-- ==== Sys2Proof/Word.lean ====
section
/-!
DEFINITION. Sys2Proof/Word.lean: the words of the machine (R2) and the finite map that sparse state is held in.
-/

namespace Sys2Proof

/-- A byte of memory, tiles and queues. -/
abbrev Byte := BitVec 8

/-- A control register, a pointer, a 64-bit CSR (R6). -/
abbrev Word := BitVec 64

/-- A 32-bit register of an engine stream (k, o registers, 32-bit CSRs). -/
abbrev Half := BitVec 32

/-- A vector register of 2,048 bytes (R353). -/
abbrev VReg := BitVec 16384

/-- A finite map as plain data: an association list, the first entry of a key in force. A key with no entry
has the default that its reader names. -/
abbrev AMap (α : Type) := List (Nat × α)

/-- The value of key `k`, `d` when the map has no entry for it. -/
def AMap.get {α : Type} (m : AMap α) (k : Nat) (d : α) : α :=
  match m with
  | [] => d
  | (k', a) :: rest => if k' = k then a else AMap.get rest k d

/-- Sets key `k`; the other keys keep their values and their order. -/
def AMap.set {α : Type} (m : AMap α) (k : Nat) (a : α) : AMap α :=
  match m with
  | [] => [(k, a)]
  | (k', b) :: rest => if k' = k then (k, a) :: rest else (k', b) :: AMap.set rest k a

/-- Removes every entry of key `k`. -/
def AMap.del {α : Type} (m : AMap α) (k : Nat) : AMap α := m.filter fun e => e.1 ≠ k

/-- Whether key `k` has an entry. -/
def AMap.has {α : Type} (m : AMap α) (k : Nat) : Bool := m.any fun e => e.1 = k

theorem AMap.get_set_same {α : Type} (m : AMap α) (k : Nat) (a d : α) : (m.set k a).get k d = a := by
  induction m with
  | nil => simp [AMap.set, AMap.get]
  | cons e rest ih =>
    obtain ⟨k', b⟩ := e
    by_cases h : k' = k <;> simp [AMap.set, AMap.get, h, ih]

theorem AMap.get_set_other {α : Type} (m : AMap α) (k j : Nat) (a d : α) (h : j ≠ k) :
    (m.set k a).get j d = m.get j d := by
  induction m with
  | nil => simp [AMap.set, AMap.get, Ne.symm h]
  | cons e rest ih =>
    obtain ⟨k', b⟩ := e
    by_cases hk : k' = k
    · subst hk; simp [AMap.set, AMap.get, Ne.symm h]
    · simp only [AMap.set, hk, if_false, AMap.get, ih]

end Sys2Proof
end

