-- ==== Sys2Proof/Syntax.lean ====
section
/-!
DEFINITION. Sys2Proof/Syntax.lean: every row of spec/opcode_table.json as one constructor of `Instr`.

Instruction words carry their operand fields as the encodings of 13_encoding.md number them; the rows
that are no instruction word (host writes, scheduler steps, transitions of the ordering machine, commits of the
engines) carry what says which unit takes the step, and, where the outside world supplies a value (a measurement,
a remote byte, which messages a failing link holds), that value (notes/assumptions/15.md).
-/

namespace Sys2Proof

/-- The four streams of a context (R6, R134). -/
inductive Strm where
  | c | m | v | y
deriving DecidableEq, Repr

/-- The functions the host port presents: the physical function and virtual function n (R51). -/
inductive Fn where
  | pf
  | vf (n : Nat)
deriving DecidableEq, Repr

/-- A vector source field: 2-bit direction (0 row, 1 col, 2 diag) and register (R280, R355). -/
structure VSrc where
  dir : Nat
  reg : Nat
deriving DecidableEq, Repr

/-- One rail's measured values, an input from outside (R23, Table 1-6). -/
structure RailMeas where
  slot : Nat
  vmv : Nat
  ima : Nat
  temp : Nat
deriving DecidableEq, Repr

/-- An SRAM word of 32 bits that carries check bits (R121): a die-cache word by its location (notes/assumptions/12.md) divided
by 4, or word `word` of a tile named as Table 6-2 names it. -/
inductive SramWord where
  | cache (die word : Nat)
  | tile (level owner h word : Nat)
deriving DecidableEq, Repr

/-- One constructor per row of spec/opcode_table.json. -/
inductive Instr where
  -- common words (13_encoding.md Tables 13-7, 13-8; 14_common_system_isa.md)
  /-- BLK (R282): A block header issues once, opening a block of LEN halfwords repeated CNT times. -/
  | blk (cnt len : Nat)
  /-- WAIT (R300): Holds the stream's issue for n slots or cycles; nop is wait 1. Operands as encoded: n holds n + 1 slots. -/
  | wait (n : Nat)
  /-- END (R303): Retires after earlier work, pending results and commit points, and makes the stream ARRIVED or ends the control stream. -/
  | endS
  /-- BRK (R304): Raises the BREAK trap with the immediate in SUB. -/
  | brk (imm : Nat)
  /-- ERET (R243): Applies each VALID record's action, clears HMODE and returns to HSTAT.PC. -/
  | eret
  /-- HALT (R306): Ends the task with status 7 in the next scheduler step (privileged). -/
  | halt
  /-- RDV (R138): Retires when every running stream has ARRIVED, then makes them IDLE. -/
  | rdv
  /-- RET (R337): Returns to g31 if it matches the shadow-stack top, else raises CTLINT. -/
  | ret
  /-- SVC (R304): Raises the SVC trap with the immediate in SUB. -/
  | svc (imm : Nat)
  /-- SYNC_PREFIX (R143): Makes the following instruction wait for tokens, decide on a guard, and push tokens at retire. -/
  | syncPrefix (push wset : Nat) (gen : Bool) (slot : Nat) (sense : Bool)
  /-- BR (R301): Transfers to the block header at PC + 2 × offset. -/
  | br (off : Int)
  /-- BG (R302): Holds while the guard slot is UNRESOLVED, then branches if it equals the sense. -/
  | bg (slot : Nat) (sense : Bool) (off : Int)
  /-- RPT (R287): Repeats the next instruction 1–64 times, stepping the selected register fields. Operands as encoded: n + 1 iterations, step + 1. -/
  | rpt (g : Bool) (step mask n : Nat)
  /-- CSRR (R309): Reads a CSR into a g, k or o register. -/
  | csrr (reg csr : Nat)
  /-- CSRW (R309): Writes a register's value to a CSR, effective at retire. -/
  | csrw (csr reg : Nat)
  /-- CSRWI (R309): Writes an 8-bit immediate to a CSR. -/
  | csrwi (csr imm : Nat)
  /-- SIGC (R312): Makes a class 2 commit point of its own stream; no effect in other classes. -/
  | sigc
  /-- DSTC (R313): Writes an HBM word with chosen check bits, as a global store. -/
  | dstc (ga gb gc : Nat)
  /-- DSTC_SRAM (R314): Plants a codeword in the issuing die's cache view, or in a tile word. -/
  | dstcSram (ga gb gc : Nat)
  -- control stream (Table 13-9; 15_control_isa.md)
  /-- GSET_IMM (R350): Sets a guard slot to FALSE or TRUE. -/
  | gsetImm (slot : Nat) (val : Bool)
  /-- GCLR (R350): Sets a guard slot to UNRESOLVED. -/
  | gclr (slot : Nat)
  /-- MOV (R322): Copies ga to gd. -/
  | mov (gd ga : Nat)
  /-- ADD (R317): gd := ga + gb mod 2^64. -/
  | add (gd ga gb : Nat)
  /-- SUB (R317): gd := ga − gb mod 2^64. -/
  | sub (gd ga gb : Nat)
  /-- AND (R317): Bitwise and. -/
  | and (gd ga gb : Nat)
  /-- OR (R317): Bitwise or. -/
  | or (gd ga gb : Nat)
  /-- XOR (R317): Bitwise exclusive or. -/
  | xor (gd ga gb : Nat)
  /-- SHL (R317): Shift left by gb[5:0]. -/
  | shl (gd ga gb : Nat)
  /-- SHR (R317): Logical shift right by gb[5:0]. -/
  | shr (gd ga gb : Nat)
  /-- SAR (R317): Arithmetic shift right by gb[5:0]. -/
  | sar (gd ga gb : Nat)
  /-- MUL (R317): Low 64 bits of the product. -/
  | mul (gd ga gb : Nat)
  /-- MULH (R317): High 64 bits of the signed product. -/
  | mulh (gd ga gb : Nat)
  /-- MULHU (R317): High 64 bits of the unsigned product. -/
  | mulhu (gd ga gb : Nat)
  /-- DIV (R318): Signed quotient with defined results for zero and overflow. -/
  | div (gd ga gb : Nat)
  /-- DIVU (R318): Unsigned quotient. -/
  | divu (gd ga gb : Nat)
  /-- REM (R318): Signed remainder. -/
  | rem (gd ga gb : Nat)
  /-- REMU (R318): Unsigned remainder. -/
  | remu (gd ga gb : Nat)
  /-- MIN (R317): Signed minimum. -/
  | min (gd ga gb : Nat)
  /-- MAX (R317): Signed maximum. -/
  | max (gd ga gb : Nat)
  /-- MINU (R317): Unsigned minimum. -/
  | minu (gd ga gb : Nat)
  /-- MAXU (R317): Unsigned maximum. -/
  | maxu (gd ga gb : Nat)
  /-- SLT (R317): 1 if ga < gb, signed. -/
  | slt (gd ga gb : Nat)
  /-- SLTU (R317): 1 if ga < gb, unsigned. -/
  | sltu (gd ga gb : Nat)
  /-- SEQ (R317): 1 if ga = gb. -/
  | seq (gd ga gb : Nat)
  /-- SNE (R317): 1 if ga ≠ gb. -/
  | sne (gd ga gb : Nat)
  /-- SEL (R317): gd := ga if the old gd ≠ 0, else gb. -/
  | sel (gd ga gb : Nat)
  /-- ADDI (R319): Adds a sign-extended 16-bit immediate. -/
  | addi (gd ga : Nat) (imm : Int)
  /-- SLTI (R319): 1 if ga < the signed immediate. -/
  | slti (gd ga : Nat) (imm : Int)
  /-- ANDI (R319): And with a zero-extended immediate. -/
  | andi (gd ga imm : Nat)
  /-- ORI (R319): Or with a zero-extended immediate. -/
  | ori (gd ga imm : Nat)
  /-- XORI (R319): Exclusive or with a zero-extended immediate. -/
  | xori (gd ga imm : Nat)
  /-- SHLI (R320): Shift left by an immediate amount. -/
  | shli (gd ga n : Nat)
  /-- SHRI (R320): Logical shift right by an immediate amount. -/
  | shri (gd ga n : Nat)
  /-- SARI (R320): Arithmetic shift right by an immediate amount. -/
  | sari (gd ga n : Nat)
  /-- LI (R321): Places a 16-bit immediate at a halfword of gd and clears the rest. -/
  | li (gd imm hw : Nat)
  /-- LIK (R321): Places a 16-bit immediate at a halfword of gd and keeps the rest. -/
  | lik (gd imm hw : Nat)
  /-- LD (R324): Plain load of 1–8 bytes in a class, zero- or sign-extended. -/
  | ld (gd gb : Nat) (off : Int) (sx : Bool) (lsz cls : Nat)
  /-- ST (R325): Early or global store of 1–8 bytes in a class. -/
  | st (gb gs : Nat) (off : Int) (glob : Bool) (lsz cls : Nat)
  /-- LD_ACQ (R326): Acquire load at a scope. -/
  | ldAcq (gd gb scope : Nat) (sx : Bool) (lsz cls : Nat)
  /-- ST_REL (R326): Release store: a full-mask fence at a scope, then a store. -/
  | stRel (gb gs scope : Nat) (glob : Bool) (lsz cls : Nat)
  /-- AMOADD (R327): Atomic add returning the old value. -/
  | amoadd (gd gb gs scope form cls : Nat)
  /-- AMOAND (R327): Atomic and returning the old value. -/
  | amoand (gd gb gs scope form cls : Nat)
  /-- AMOOR (R327): Atomic or returning the old value. -/
  | amoor (gd gb gs scope form cls : Nat)
  /-- AMOXOR (R327): Atomic exclusive or returning the old value. -/
  | amoxor (gd gb gs scope form cls : Nat)
  /-- AMOMIN (R327): Atomic signed minimum. -/
  | amomin (gd gb gs scope form cls : Nat)
  /-- AMOMAX (R327): Atomic signed maximum. -/
  | amomax (gd gb gs scope form cls : Nat)
  /-- AMOSWP (R327): Atomic swap. -/
  | amoswp (gd gb gs scope form cls : Nat)
  /-- CAS (R328): Compare-and-swap against gd, returning the old value. -/
  | cas (gd gb gs scope form cls : Nat)
  /-- WADD (R330): Adds an FP32 or FP64 value to a wide cell atomically. -/
  | wadd (gb gs : Nat) (f64 : Bool) (cls : Nat)
  /-- CREAD (R331): Reads a wide cell as FP32 or FP64. -/
  | cread (gd gb : Nat) (f64 : Bool) (cls : Nat)
  /-- FENCE (R332): Enters the masked class queues and leaves when R176 holds at its scope. -/
  | fence (scope mask : Nat)
  /-- SPILL (R333): Stores n consecutive g registers as 8-byte stores. Operands as encoded: n + 1 registers. -/
  | spill (gf gb n : Nat) (glob : Bool) (cls : Nat)
  /-- FILL (R333): Loads n consecutive g registers. Operands as encoded: n + 1 registers. -/
  | fill (gf gb n cls : Nat)
  /-- PF (R334): Prefetches a 64-byte line into the die view without returning a value. -/
  | pf (gb : Nat) (off : Int) (cls : Nat)
  /-- BZ (R335): Branches when ga = 0. -/
  | bz (ga : Nat) (off : Int)
  /-- BNZ (R335): Branches when ga ≠ 0. -/
  | bnz (ga : Nat) (off : Int)
  /-- CALL (R336): Calls a block, writing g31 and pushing the shadow stack. -/
  | call (off : Int)
  /-- JT (R339): Transfers through an entry of an n-entry jump table. -/
  | jt (ga gb n : Nat)
  /-- FORK (R340): Starts the named IDLE engine streams at their entry blocks in one cycle. -/
  | fork (set : Nat) (om ov oy : Int)
  /-- TALLOC (R344): Allocates a tile handle of ROWS × RB bytes at its level. -/
  | talloc (h ga gb : Nat)
  /-- TFREE (R345): Waits for accesses to the handle to retire, then frees it. -/
  | tfree (h : Nat)
  /-- DLD (R347): Loads a shape register from a tensor-table entry, plus the codebook for CB4. -/
  | dld (dn gr cls : Nat)
  /-- DSET (R348): Writes one field of a shape register. -/
  | dset (dn gr field : Nat)
  /-- DGET (R348): Reads one field of a shape register. -/
  | dget (gr dn field : Nat)
  /-- DST (R349): Stores a 512-bit descriptor to memory. -/
  | dst (gr dn : Nat) (glob : Bool) (cls : Nat)
  /-- GSET_REG (R350): Sets a guard slot TRUE if ga ≠ 0, else FALSE. -/
  | gsetReg (ga slot : Nat)
  /-- QDEPTH (R351): Reads the depth of one queue of the context's engines. -/
  | qdepth (gd qn : Nat) (oper : Bool) (kind : Nat)
  /-- TSIG (R342): Fences at system scope, then sends one decrement to the task named by a tag. -/
  | tsig (ga : Nat)
  -- matrix and copy streams (Tables 13-11, 13-12; 17_matrix_copy_isa.md)
  /-- MZERO (R390): Clears an accumulator or pair to +0. -/
  | mzero (acc : Nat) (pair : Bool)
  /-- ASTC (R390): Clears an accumulator's sticky flags. -/
  | astc (acc : Nat)
  /-- MMA (R391): Multiplies two tensors into an accumulator over the whole K range. -/
  | mma (acc da db : Nat) (z : Bool) (cls : Nat)
  /-- MMA_RANGE (R391): Multiplies over count K-steps starting from a given K-step. -/
  | mmaRange (acc da db os oc : Nat) (z : Bool) (cls : Nat)
  /-- MDRAIN (R394): Converts an accumulator into tensor rows with bounds. -/
  | mdrain (dn acc ro rnd : Nat) (glob : Bool) (cls : Nat)
  /-- MDRAINT (R396): Converts an accumulator into 128 tile rows. -/
  | mdraint (h acc ro rnd fmt cls : Nat)
  /-- MLD (R397): Loads 128 tile rows into an accumulator bit for bit. -/
  | mld (acc h ro cls : Nat)
  /-- WQ (R399): Sends query rows to the weight die and receives FP32 partial sums. -/
  | wq (acc dq dw os cls : Nat)
  /-- OADD (R401): Offset add mod 2^32 (matrix and copy streams). -/
  | oadd (od oa ob : Nat)
  /-- OSUB (R401): Offset subtract. -/
  | osub (od oa ob : Nat)
  /-- OMUL (R401): Offset multiply. -/
  | omul (od oa ob : Nat)
  /-- OAND (R401): Offset bitwise and. -/
  | oand (od oa ob : Nat)
  /-- OSHL (R401): Offset shift left. -/
  | oshl (od oa ob : Nat)
  /-- OSHR (R401): Offset logical shift right. -/
  | oshr (od oa ob : Nat)
  /-- OMIN (R401): Offset signed minimum. -/
  | omin (od oa ob : Nat)
  /-- OMAX (R401): Offset signed maximum. -/
  | omax (od oa ob : Nat)
  /-- OADDI (R401): Adds a signed 18-bit immediate to an offset. -/
  | oaddi (od oa : Nat) (imm : Int)
  /-- OLI (R401): Loads a sign-extended 22-bit immediate into an offset. -/
  | oli (od : Nat) (imm : Int)
  /-- QPOP (R402): Pops an operand-queue entry into tile rows. -/
  | qpop (h pr qn : Nat)
  /-- QPUSH (R402): Pushes tile rows as one result-queue entry. -/
  | qpush (h pr qn : Nat)
  /-- BARM (R406): Adds an offset's value to a byte barrier. -/
  | barm (ro bar : Nat)
  /-- BWAIT (R406): Retires when the barrier count is at most 0. -/
  | bwait (bar : Nat)
  /-- CPY_TENSOR_TILE (R403): Copies tensor rows into tile rows, optionally counted. -/
  | cpyTensorTile (h dn pr : Nat) (cnt : Bool) (bar cls : Nat)
  /-- CPY_TILE_TENSOR (R403): Copies tile rows into tensor rows with early or global stores. -/
  | cpyTileTensor (dn h pr : Nat) (glob cnt : Bool) (bar cls : Nat)
  /-- CPY_TENSOR_TENSOR (R403): Copies tensor rows to tensor rows. -/
  | cpyTensorTensor (dd ds pr : Nat) (glob cnt : Bool) (bar cls : Nat)
  /-- CPY_TILE_TILE (R403): Copies tile rows to tile rows. -/
  | cpyTileTile (hd hs pr cls : Nat)
  /-- CPYS (R407): Copies rows, then atomically adds 1 to a signal word after the payload is performed at module scope. -/
  | cpys (dd ds pr dg cls : Nat)
  /-- CPF (R408): Issues fills for the lines of the named rows. -/
  | cpf (dn pr cls : Nat)
  /-- WLD (R400): Copies MX rows and scales into the weight window. -/
  | wld (dw ds pr cls : Nat)
  /-- RPUT (R409): Copies a local tensor to a remote module over RoCE. -/
  | rput (dd ds pr : Nat) (cnt : Bool) (bar cls : Nat)
  /-- RGET (R409): Copies a remote tensor into a local tensor. -/
  | rget (dd ds pr : Nat) (cnt : Bool) (bar cls : Nat)
  -- vector stream (Table 13-13; 16_vector_isa.md)
  /-- VMODE (R387): Waits for pending results, then switches between exposed and interlocked mode. -/
  | vmode (exposed : Bool)
  /-- VADD (R359): FP32 add, jet-aware. -/
  | vadd (vd : Nat) (va vb : VSrc)
  /-- VSUB (R359): FP32 subtract. -/
  | vsub (vd : Nat) (va vb : VSrc)
  /-- VMUL (R359): FP32 multiply. -/
  | vmul (vd : Nat) (va vb : VSrc)
  /-- VFMA (R359): FP32 fused multiply-add into vd. -/
  | vfma (vd : Nat) (va vb : VSrc)
  /-- VDIV (R359): FP32 divide. -/
  | vdiv (vd : Nat) (va vb : VSrc)
  /-- VMIN (R361): FP32 minimum by exact value. -/
  | vmin (vd : Nat) (va vb : VSrc)
  /-- VMAX (R361): FP32 maximum by exact value. -/
  | vmax (vd : Nat) (va vb : VSrc)
  /-- VRCP (R359): FP32 reciprocal. -/
  | vrcp (vd : Nat) (va : VSrc)
  /-- VSQRT (R359): FP32 square root. -/
  | vsqrt (vd : Nat) (va : VSrc)
  /-- VRSQRT (R359): FP32 reciprocal square root. -/
  | vrsqrt (vd : Nat) (va : VSrc)
  /-- VEXP2 (R359): FP32 2^a, correctly rounded. -/
  | vexp2 (vd : Nat) (va : VSrc)
  /-- VLOG2 (R359): FP32 log2, correctly rounded. -/
  | vlog2 (vd : Nat) (va : VSrc)
  /-- VSIN (R359): FP32 sine, correctly rounded. -/
  | vsin (vd : Nat) (va : VSrc)
  /-- VCOS (R359): FP32 cosine, correctly rounded. -/
  | vcos (vd : Nat) (va : VSrc)
  /-- VTANH (R359): FP32 tanh, correctly rounded. -/
  | vtanh (vd : Nat) (va : VSrc)
  /-- VSIGM (R359): FP32 sigmoid, correctly rounded. -/
  | vsigm (vd : Nat) (va : VSrc)
  /-- VNEG (R361): FP32 negate. -/
  | vneg (vd : Nat) (va : VSrc)
  /-- VABS (R361): FP32 absolute value. -/
  | vabs (vd : Nat) (va : VSrc)
  /-- VADD_F16 (R362): FP16 add. -/
  | vaddF16 (vd : Nat) (va vb : VSrc)
  /-- VSUB_F16 (R362): FP16 subtract. -/
  | vsubF16 (vd : Nat) (va vb : VSrc)
  /-- VMUL_F16 (R362): FP16 multiply. -/
  | vmulF16 (vd : Nat) (va vb : VSrc)
  /-- VFMA_F16 (R362): FP16 fused multiply-add. -/
  | vfmaF16 (vd : Nat) (va vb : VSrc)
  /-- VMIN_F16 (R362): FP16 minimum. -/
  | vminF16 (vd : Nat) (va vb : VSrc)
  /-- VMAX_F16 (R362): FP16 maximum. -/
  | vmaxF16 (vd : Nat) (va vb : VSrc)
  /-- VADD_BF16 (R362): BF16 add. -/
  | vaddBf16 (vd : Nat) (va vb : VSrc)
  /-- VSUB_BF16 (R362): BF16 subtract. -/
  | vsubBf16 (vd : Nat) (va vb : VSrc)
  /-- VMUL_BF16 (R362): BF16 multiply. -/
  | vmulBf16 (vd : Nat) (va vb : VSrc)
  /-- VFMA_BF16 (R362): BF16 fused multiply-add. -/
  | vfmaBf16 (vd : Nat) (va vb : VSrc)
  /-- VMIN_BF16 (R362): BF16 minimum. -/
  | vminBf16 (vd : Nat) (va vb : VSrc)
  /-- VMAX_BF16 (R362): BF16 maximum. -/
  | vmaxBf16 (vd : Nat) (va vb : VSrc)
  /-- VIADD (R363): Integer add mod 2^w. -/
  | viadd (vd : Nat) (va vb : VSrc)
  /-- VISUB (R363): Integer subtract mod 2^w. -/
  | visub (vd : Nat) (va vb : VSrc)
  /-- VIMUL (R363): Integer multiply mod 2^w. -/
  | vimul (vd : Nat) (va vb : VSrc)
  /-- VIMAD (R363): Integer multiply-add into vd. -/
  | vimad (vd : Nat) (va vb : VSrc)
  /-- VAND (R363): Bitwise and. -/
  | vand (vd : Nat) (va vb : VSrc)
  /-- VOR (R363): Bitwise or. -/
  | vor (vd : Nat) (va vb : VSrc)
  /-- VXOR (R363): Bitwise exclusive or. -/
  | vxor (vd : Nat) (va vb : VSrc)
  /-- VSHL (R363): Shift left by b mod w. -/
  | vshl (vd : Nat) (va vb : VSrc)
  /-- VSHR (R363): Logical shift right. -/
  | vshr (vd : Nat) (va vb : VSrc)
  /-- VSAR (R363): Arithmetic shift right. -/
  | vsar (vd : Nat) (va vb : VSrc)
  /-- VIMIN (R363): Signed integer minimum. -/
  | vimin (vd : Nat) (va vb : VSrc)
  /-- VIMAX (R363): Signed integer maximum. -/
  | vimax (vd : Nat) (va vb : VSrc)
  /-- VIADDS (R363): Saturating signed add. -/
  | viadds (vd : Nat) (va vb : VSrc)
  /-- VISUBS (R363): Saturating signed subtract. -/
  | visubs (vd : Nat) (va vb : VSrc)
  /-- VIMULH (R363): High half of the signed product. -/
  | vimulh (vd : Nat) (va vb : VSrc)
  /-- VINEG (R363): Integer negate. -/
  | vineg (vd : Nat) (va : VSrc)
  /-- VNOT (R363): Bitwise complement. -/
  | vnot (vd : Nat) (va : VSrc)
  /-- VIABS (R363): Integer absolute value. -/
  | viabs (vd : Nat) (va : VSrc)
  /-- VFEQ (R364): FP32 equal compare, quiet. -/
  | vfeq (vd : Nat) (va vb : VSrc)
  /-- VFNE (R364): FP32 not-equal compare. -/
  | vfne (vd : Nat) (va vb : VSrc)
  /-- VFLT (R364): FP32 less-than, quiet. -/
  | vflt (vd : Nat) (va vb : VSrc)
  /-- VFLE (R364): FP32 less-or-equal, quiet. -/
  | vfle (vd : Nat) (va vb : VSrc)
  /-- VFSLT (R364): FP32 signalling less-than. -/
  | vfslt (vd : Nat) (va vb : VSrc)
  /-- VFSLE (R364): FP32 signalling less-or-equal. -/
  | vfsle (vd : Nat) (va vb : VSrc)
  /-- VFUN (R364): FP32 unordered test. -/
  | vfun (vd : Nat) (va vb : VSrc)
  /-- VIEQ (R364): Integer equal. -/
  | vieq (vd : Nat) (va vb : VSrc)
  /-- VILT (R364): Signed less-than. -/
  | vilt (vd : Nat) (va vb : VSrc)
  /-- VILE (R364): Signed less-or-equal. -/
  | vile (vd : Nat) (va vb : VSrc)
  /-- VILTU (R364): Unsigned less-than. -/
  | viltu (vd : Nat) (va vb : VSrc)
  /-- VILEU (R364): Unsigned less-or-equal. -/
  | vileu (vd : Nat) (va vb : VSrc)
  /-- VSEL (R365): Selects va or vb per element by the old vd. -/
  | vsel (vd : Nat) (va vb : VSrc)
  /-- VCVT (R366): Converts each active element between formats as CONV gives it. -/
  | vcvt (vd : Nat) (va : VSrc) (rv : Bool) (rnd conv : Nat)
  /-- VPACK (R368): Packs FP32 elements into P8, P4, MX8 or MX4 blocks. -/
  | vpack (vd : Nat) (va : VSrc) (rv : Bool) (rnd fmt : Nat)
  /-- VPACK_CB4 (R368): Packs FP32 elements into CB4 codes with a codebook. -/
  | vpackCb4 (vd : Nat) (va : VSrc) (dn : Nat) (rv : Bool) (rnd : Nat)
  /-- VUNPACK (R369): Unpacks block-format bytes into FP32 elements. -/
  | vunpack (vd : Nat) (va : VSrc) (rv : Bool) (rnd fmt : Nat)
  /-- VUNPACK_CB4 (R369): Unpacks CB4 codes through a codebook. -/
  | vunpackCb4 (vd : Nat) (va : VSrc) (dn : Nat) (rv : Bool) (rnd : Nat)
  /-- VRSUM (R371): FP32 sum reduction with one rounding. -/
  | vrsum (vd : Nat) (va : VSrc)
  /-- VRMIN (R371): FP32 minimum reduction. -/
  | vrmin (vd : Nat) (va : VSrc)
  /-- VRMAX (R371): FP32 maximum reduction. -/
  | vrmax (vd : Nat) (va : VSrc)
  /-- VIRSUM (R372): Integer sum reduction mod 2^w. -/
  | virsum (vd : Nat) (va : VSrc)
  /-- VIRMIN (R372): Signed integer minimum reduction. -/
  | virmin (vd : Nat) (va : VSrc)
  /-- VIRMAX (R372): Signed integer maximum reduction. -/
  | virmax (vd : Nat) (va : VSrc)
  /-- VRANY (R373): Writes a guard slot TRUE if any active element is nonzero. -/
  | vrany (va : VSrc) (slot : Nat)
  /-- VRALL (R373): Writes a guard slot TRUE if every active element is nonzero. -/
  | vrall (va : VSrc) (slot : Nat)
  /-- VMOV (R374): Moves the view of va into vd. -/
  | vmov (vd : Nat) (va : VSrc)
  /-- VTRN (R374): Writes the transpose of the view into vd. -/
  | vtrn (vd : Nat) (va : VSrc)
  /-- VBCE (R375): Broadcasts view element u(k) of va to vd. -/
  | vbce (vd : Nat) (va : VSrc) (km : Nat)
  /-- VBCK (R375): Broadcasts the low bits of a k register to vd. -/
  | vbck (vd km : Nat)
  /-- VEXT (R375): Extracts view element VVIEW.IDX into a k register. -/
  | vext (km : Nat) (va : VSrc)
  /-- JSEED (R382): Seeds a jet group as (value, 1, 0, …). -/
  | jseed (vd : Nat) (va : VSrc)
  /-- JCONST (R382): Writes a constant jet (value, 0, …). -/
  | jconst (vd : Nat) (va : VSrc)
  /-- JGET (R382): Extracts coefficient n of a jet group. -/
  | jget (vd : Nat) (va : VSrc) (n : Nat)
  /-- JPUT (R382): Inserts coefficient n into a jet group. -/
  | jput (vd : Nat) (va : VSrc) (n : Nat)
  /-- JDIFF (R382): Differentiates a jet group. -/
  | jdiff (vd : Nat) (va : VSrc)
  /-- VLD (R376): Loads active elements from a tensor at k-indexed rows and columns. -/
  | vld (vd dn km cls : Nat)
  /-- VST (R377): Stores active elements to a tensor with bounds, early or global. -/
  | vst (dn km va : Nat) (glob : Bool) (cls : Nat)
  /-- VTLD (R378): Loads active elements from tile rows. -/
  | vtld (vd h km cls : Nat)
  /-- VTST (R378): Stores active elements to tile rows. -/
  | vtst (h km va cls : Nat)
  /-- VPOP (R379): Pops an operand-queue entry into vd. -/
  | vpop (vd qn : Nat)
  /-- VPUSH (R379): Pushes va's bytes as one result-queue entry. -/
  | vpush (va qn : Nat)
  /-- VSHAPE (R354): Sets the rows, columns and width of every vector register. Operands as encoded: rows + 1, cols + 1, width code w. -/
  | vshape (rows cols w : Nat)
  /-- PSET_IMM (R380): Sets a predicate's count and width from an immediate. -/
  | psetImm (pn count w : Nat)
  /-- PSET_K (R380): Sets a predicate's count from a k register. -/
  | psetK (pn km w : Nat)
  /-- KADD (R381): k add mod 2^32. -/
  | kadd (kd ka kb : Nat)
  /-- KSUB (R381): k subtract. -/
  | ksub (kd ka kb : Nat)
  /-- KMUL (R381): k multiply. -/
  | kmul (kd ka kb : Nat)
  /-- KAND (R381): k bitwise and. -/
  | kand (kd ka kb : Nat)
  /-- KOR (R381): k bitwise or. -/
  | kor (kd ka kb : Nat)
  /-- KSHL (R381): k shift left. -/
  | kshl (kd ka kb : Nat)
  /-- KSHR (R381): k logical shift right. -/
  | kshr (kd ka kb : Nat)
  /-- KMIN (R381): k signed minimum. -/
  | kmin (kd ka kb : Nat)
  /-- KMAX (R381): k signed maximum. -/
  | kmax (kd ka kb : Nat)
  /-- KADDI (R381): Adds a signed 18-bit immediate to a k register. -/
  | kaddi (kd ka : Nat) (imm : Int)
  /-- VDEFER (R384): Appends deferral entries for active elements whose condition is nonzero. -/
  | vdefer (va tag : Nat)
  /-- VDRAIN (R385): Pops same-tag deferral entries into a dense register and sets the scatter list. -/
  | vdrain (vd pn : Nat)
  /-- VSCATB (R386): Scatters a register's elements back to the scatter list's positions. -/
  | vscatb (va : Nat)
  -- events of the module (95_what_each_step_holds.md)
  /-- MODULE_COLD_RESET (R7): Module cold reset loads every register with its Reset value and clears all die views, streams and scheduler state. -/
  | moduleColdReset
  /-- CONVERTER_FAULT (R14): A converter fault in one voltage domain removes only that domain's dies, which L0 then quiesces in ascending die index. -/
  | converterFault (dom : Nat)
  /-- RAIL_INJECTION (R17): An engine injects a beat onto a column rail; a beat in transit has priority, and the control core and copy engine alternate. -/
  | railInjection (die : Nat) (col : Nat) (south : Bool) (strip : Nat)
  /-- RAIL_BEAT_ARRIVAL (R16): A beat arrives at its target strip |i − j| cycles after injection. -/
  | railBeatArrival (die : Nat) (col : Nat) (south : Bool) (strip : Nat)
  /-- ROUTER_POWER_GATE (R19): A strip router with no traffic and no wake for 512 consecutive cycles is power-gated. -/
  | routerPowerGate (die : Nat) (strip : Nat) (col : Nat)
  /-- ROUTER_WAKE (R19): A gated router finishes its 6-cycle wake and the waiting header may leave. -/
  | routerWake (die : Nat) (strip : Nat) (col : Nat)
  /-- RAIL_TELEMETRY_SAMPLE (R24): Every 100 µs all rail slots are sampled: SEQ is made odd, words 0–2 are updated, and SEQ is made even again. -/
  | railTelemetrySample (vals : List RailMeas)
  /-- COOLANT_WRITE (R25): A PF write to COOLANT sets CAPEN, DERATE and CHF, which take effect at the next 10 µs control interval. -/
  | coolantWrite (v : Nat)
  /-- POWER_CONTROL_INTERVAL (R26): Every 10 µs each die applies any new COOLANT values, compares its power with its effective cap and steps its clock by 25 MHz. -/
  | powerControlInterval (watts : List (Nat × Nat))
  /-- DIE_MARKED_UNAVAILABLE (R26): A die held at 350 MHz and above its cap for 1 ms is marked unavailable for new placements. -/
  | dieMarkedUnavailable (die : Nat)
  /-- DIE_UNAVAILABLE_CLEAR (R26): A die that has been below its cap for 1 ms has its unavailable mark cleared. -/
  | dieUnavailableClear (die : Nat)
  /-- CONNECTOR_MEASUREMENT (R29): A connector's METRIC is measured (every 100 ms for the input, every 10 ms for a link) and its thresholds are applied. -/
  | connectorMeasurement (idx : Nat) (metric : Nat)
  /-- EVT_CLEAR (R28): A host write of 1 to CONN.EVT clears it, unless a state change sets it in the same cycle. -/
  | evtClear (idx : Nat)
  /-- REGISTER_WRITE (R7): A write to a register without behaviour of its own updates its RW fields and ignores RO and Reserved fields. -/
  | registerWrite (fn : Fn) (off : Nat) (v : Nat)
  /-- EXPERT_CLEAR (R54): A write that clears CTLLVL.EXPERT returns every expert field of the function to its reset value. -/
  | expertClear (fn : Fn)
  /-- HOME_TABLE_WRITE (R34): A PF write to a home-table entry is sent by L0 to every live die and completes when all have acknowledged; it waits while MIG = 1. -/
  | homeTableWrite (slot : Nat) (v : Nat)
  /-- FFMAP_WRITE (R35): A PF write replaces one 32-bit word of a memory die's free-frame map at once. -/
  | ffmapWrite (m : Nat) (w : Nat) (v : Nat)
  /-- OWNERSHIP_WRITE (R56): A write to an engine ownership entry assigns the engine, is ignored if a core would be used by five partitions, and pre-empts a task that loses the engine. -/
  | ownershipWrite (idx : Nat) (v : Nat)
  /-- PCTL_WRITE (R57): A write to a partition's PCTL words, ignored as a whole when it breaks a seal, way, slot or vector rule. -/
  | pctlWrite (vf : Nat) (word : Nat) (v : Nat)
  /-- WWIN_WRITE (R398): A write to a VF's weight window, ignored if windows would overlap or pass 4,096 units. -/
  | wwinWrite (vf : Nat) (word : Nat) (v : Nat)
  /-- QUEUE_ENABLE (R62): Setting EN checks the queue configuration and overrun, and then starts fetching cards or faults the queue with CAUSE 3 or 2. -/
  | queueEnable (vf : Nat) (q : Nat) (v : Nat)
  /-- QUEUE_DRAIN (R70): Clearing EN with ABORT = 0 stops fetching and lets admitted tasks run to their end (STATE 2, or STATE 0 at once from STATE 3). -/
  | queueDrain (vf : Nat) (q : Nat) (v : Nat)
  /-- QUEUE_ABORT (R70): Clearing EN with ABORT = 1 stops admitted tasks, discards their save areas and held stores, and ends each with status 7. -/
  | queueAbort (vf : Nat) (q : Nat) (v : Nat)
  /-- PIDX_WRITE (R63): A host write of the producer index is stored, and while STATE = 1 it is checked for overrun. -/
  | pidxWrite (vf : Nat) (q : Nat) (v : Nat)
  /-- CARD_FETCH (R63): The scheduler starts fetching card CIDX of a running queue whenever PIDX ≠ CIDX, rotating among queues and VFs. -/
  | cardFetch
  /-- CARD_FETCH_DONE (R63): All 512 bytes of a card have been read and CIDX is incremented. -/
  | cardFetchDone
  /-- CARD_FETCH_FAULT (R71): A host-memory fault during a card fetch leaves the card unadmitted, with STATE 3 and CAUSE 1. -/
  | cardFetchFault
  /-- CHEAD_WRITE (R68): A host write of CHEAD is taken only if it does not pass CTAIL, and it frees room for held completion records. -/
  | cheadWrite (vf : Nat) (q : Nat) (v : Nat)
  /-- MISS_SIGNAL (R74): A memory die receives a missed-window signal and lowers its best-effort admission rate n by 1. -/
  | missSignal (m : Nat)
  /-- ADMISSION_RATE_RISE (R74): After 2^16 requests served since the last signal, a memory die raises n by 1. -/
  | admissionRateRise (m : Nat)
  /-- TRANSLATION_WALK_DONE (R37): A stage-1 walk completes, fills the translation cache and replays the waiting accesses, or raises a translation fault. -/
  | translationWalkDone (die : Nat)
  /-- TLBINV_PAGE (R39): A TLBINV write with SCOPE 0 invalidates one page of one identifier on all compute dies. -/
  | tlbinvPage (ctx : Nat)
  /-- TLBINV_ASID (R39): A TLBINV write with SCOPE 1 invalidates every translation of one identifier. -/
  | tlbinvAsid (ctx : Nat)
  /-- TLBINV_PARTITION (R39): A TLBINV write with SCOPE 2 invalidates every identifier of the partition. -/
  | tlbinvPartition (ctx : Nat)
  /-- TLBINV_DONE (R39): All 16 compute dies have invalidated and BUSY clears. -/
  | tlbinvDone (ctx : Nat)
  /-- COUNTER_HALVING (R40): A memory die that has served 2^20 requests halves every quadrant counter it holds. -/
  | counterHalving (m : Nat)
  /-- MIGRATION_START (R41): An idle migration engine takes the oldest candidate, sets MIG in every copy of the entry, or halves its counters when no frame is free. -/
  | migrationStart (m : Nat)
  /-- MIGRATION_COPY_DONE (R41): The 2 MiB copy finishes, the new home's stage-2 entry is written, and L0 starts writing HOME and MIG to every die. -/
  | migrationCopyDone (m : Nat)
  /-- MIGRATION_ACKS_COMPLETE (R41): With all acknowledgements in, the old home forwards the held writes in order and frees its frame. -/
  | migrationAcksComplete (m : Nat)
  /-- FIRST_TOUCH_BIND (R43): L0 serialises a touch of an unbacked slot with FT = 1 and binds it to a zero-filled free frame, or completes it with code 5. -/
  | firstTouchBind
  /-- PULL_FETCH (R44): A touch of a slot with PULL = 1 stalls its stream while L0 fetches the granule over scale-out. -/
  | pullFetch
  /-- PULL_FETCH_DONE (R44): The pulled granule is bound and filled, PULL is cleared, and the waiting touches proceed. -/
  | pullFetchDone (bytes : List Host.Cell)
  /-- PULL_FAILED (R44): The transport exhausts its 7 retries, and every waiting toucher takes the pull-failed fault with code 6. -/
  | pullFailed
  /-- ESCAPE_CHANNEL_SWITCH (R46): A packet that has waited 64 cycles for a credit at one hop moves to the escape channel. -/
  | escapeChannelSwitch (kind : Nat) (idx : Nat)
  /-- DRST_GO (R47): A PF write of GO while PHASE = 0 starts quiescing die DIE with phase 1, reroute. -/
  | drstGo (die : Nat)
  /-- QUIESCE_START (R47): A quiesce that L0 starts itself begins once no other quiesce runs, in the order its cause arose. -/
  | quiesceStart
  /-- QUIESCE_DRAIN_DONE (R47): The leaving die's transit buffers are empty, and fence, complete and reset follow: neighbours stop, requests to it complete with code 2, and it resets. -/
  | quiesceDrainDone
  /-- DRAIN_TIMEOUT (R47): After 65,536 cycles of drain, the remaining transit packets complete with code 7 and TMO is set. -/
  | drainTimeout (ups : List Nat) (dns : List Nat)
  /-- DRST_JOIN (R47): A PF write of JOIN rejoins a die that has left: it loads the home table, tables are reinstalled, and DLIVE shows it. -/
  | drstJoin (die : Nat)
  /-- LINK_FAILURE (R48): A link fails after 16 replays of one flit or a failed retraining; waiting packets complete with code 3, and tables are reinstalled. -/
  | linkFailure (a : Nat) (b : Nat) (ups : List Nat) (dns : List Nat)
  /-- K_MESSAGE (R199): A home takes K(L) in any line state and answers with KR(L), stating for each store whether it is in CO and whether P was sent. -/
  | kMessage (die : Nat) (line : Nat)
  /-- KR_MESSAGE (R199): A die view applies KR(L): V2 and the recorded messages for stores in CO, drops the others, and applies V5 where P was sent. -/
  | krMessage (die : Nat) (line : Nat)
  /-- ERROR_COMPLETION (R49): An error completion with a 4-bit code arrives for a request; a read faults at once, a write faults later. -/
  | errorCompletion (die : Nat) (line : Nat)
  /-- EARLY_STORE_ERROR (R436): An error completion for E(A) clears A's pending bytes to INVALID, removes A from OBS and faults the issuer. -/
  | earlyStoreError (die : Nat) (line : Nat)
  /-- SCHEDULER_STEP (R75): Every 4 cycles of L0, the scheduler performs the endings, admission, placement, preload and pre-emption phases in order. -/
  | schedulerStep
  /-- BUDGET_EXHAUSTED (R93): A team's usage counter reaches BUDGET, and the whole instance is pre-empted. -/
  | budgetExhausted (inst : Nat)
  /-- POOL_SLICE_END (R58): A pool engine's 2^SLICE-cycle slice ends, and it pre-empts the current member. -/
  | poolSliceEnd (core : Nat) (kind : Nat)
  /-- SAVE_AREA_RETRY (R249): When a save area frees, a waiting pre-emption searches again for areas for all its contexts. -/
  | saveAreaRetry
  /-- STREAM_SAVE (R246): A stream reaches its boundary with R183 satisfied and is saved; the instance is SAVED when its last stream is saved. -/
  | streamSave (ctx : Nat) (st : Strm)
  /-- DEADLOCK (R96): A context blocked with no producer in flight for 2^24 cycles takes the deadlock fault. -/
  | deadlock (ctx : Nat)
  /-- EPOCH_RELEASE (R113): Once the previous epoch is FREE, the compare engine performs the released epoch's records at their homes in held order. -/
  | epochRelease (key : Nat)
  /-- EPOCH_FREE (R112): Every record of a released epoch is performed at module scope, and its word is folded into the chain. -/
  | epochFree (key : Nat)
  /-- DIE_RETIRE (R119): A PF write of RET = 1 retires a die: no placement, preloads withdrawn, and running instances pre-empted elsewhere. -/
  | dieRetire (die : Nat)
  /-- DIE_RETURN_TO_SERVICE (R118): A write of RET = 0 to a retired die returns it to service with SCORE 0. -/
  | dieReturnToService (die : Nat)
  /-- SCORE_WRITE (R119): An expert write of SCORE sets the suspicion score and retires the die when it reaches 16. -/
  | scoreWrite (die : Nat) (v : Nat)
  /-- REGISTER_FILE_SCRUB (R122): Each register-file word is visited once per 2^20 cycles, and single-bit errors are corrected. -/
  | registerFileScrub (ctx : Nat) (word : Nat)
  /-- SRAM_SCRUB (R122): Each tile-bank, die-cache and memory-die SRAM word is visited once per 2^26 cycles. -/
  | sramScrub (w : SramWord)
  /-- HBM_SWEEP (R123): Each pseudo-channel sweeps its rows once per 2^32 cycles of its memory die. -/
  | hbmSweep (m : Nat) (row : Nat)
  /-- HISTORY_ROW_VISIT (R123): Rows in the correction history table are visited once per 2^28 cycles. -/
  | historyRowVisit (m : Nat)
  /-- ECC_WRITEBACK (R121): At the bank's next idle cycle, the corrected word is written back. -/
  | eccWriteback
  /-- CHECKPOINT (R130): GO with RST = 0 stops fetching, pre-empts the partition, and writes the SCHED, SAVE, HELD and MEM shards and the manifest. -/
  | checkpoint (vf : Nat)
  /-- RESTORE (R131): GO with RST = 1 checks the manifest and shards, then loads memory, held records, save areas and scheduler state. -/
  | restore (vf : Nat)
  /-- FIRMWARE_LOAD (R133): FWCTL GO copies an image into L0, verifies its signature and writes it to flash. -/
  | firmwareLoad
  /-- DIE_CHECK (R255): Uncorrectable data in a compute die's tile table, sequencer or home-table copy resets that die and logs MCSTAT. -/
  | dieCheck (die : Nat) (src : Nat)
  /-- MODULE_CHECK (R255): A memory die or L0 leaving, or corrupt scheduler or containment data, stops all further scheduling until cold reset. -/
  | moduleCheck (die : Nat) (src : Nat)
  /-- MCSTAT_CLEAR (R255): A write of 1 to MCSTAT.VALID clears the logged machine check. -/
  | mcstatClear
  /-- DOVETAIL_BIND (R157): A binding-register write waits until its result queue is empty, then resolves the target core and takes effect. -/
  | dovetailBind (ctx : Nat) (reg : Nat)
  /-- DOVETAIL_DELIVERY (R158): A result-queue entry leaves, in push order, when its target operand queue has a free entry. -/
  | dovetailDelivery (ctx : Nat) (reg : Nat)
  /-- DOVETAIL_ARRIVAL (R158): A dovetail entry enters its operand queue, and same-cycle arrivals are ordered by core, engine and queue. -/
  | dovetailArrival (idx : Nat)
  /-- INSTRUCTION_DISCARD (R143): A guarded instruction whose slot resolves against its sense retires at once, pushing its tokens. -/
  | instructionDiscard (ctx : Nat) (st : Strm)
  /-- RESULT_LANDING (R160): In exposed mode, an instruction's results and flags land L issue slots after its issue. -/
  | resultLanding (ctx : Nat)
  /-- FAULT_DELIVERY (R242): At the control stream's next boundary after a record becomes VALID, the PC is saved, HMODE is set, and the handler starts. -/
  | faultDelivery (ctx : Nat)
  /-- K_STEP_COMMIT (R391): An mma K-step's rounded sums are written to the accumulator, and CPOS advances. -/
  | kStepCommit (ctx : Nat)
  /-- COPY_BYTE_COMMIT (R405): A copy byte's write is performed at die scope, CPOS advances, and a counted barrier falls by 1. -/
  | copyByteCommit (ctx : Nat)
  /-- S2_READ (R170): A read at its queue head returns bytes that are VALID or pending in the die view and records unpropagated early writers in OBS. -/
  | s2Read (ctx : Nat) (st : Strm) (cls : Nat)
  /-- S2A_FILL (R170): A read at its head finding an INVALID, not-pending byte sends F(L) unless one is outstanding. -/
  | s2aFill (ctx : Nat) (st : Strm) (cls : Nat)
  /-- S3_EARLY_STORE (R170): An early store at its head writes the die view as VALID and pending and sends E(A). -/
  | s3EarlyStore (ctx : Nat) (st : Strm) (cls : Nat)
  /-- S4_GLOBAL_SEND (R170): A global store or atomic at its head sends G(A) and starts its timer. -/
  | s4GlobalSend (ctx : Nat) (st : Strm) (cls : Nat)
  /-- S5_GLOBAL_DONE (R170): GA(A) arrives; non-pending bytes become VALID, an atomic takes its value, and A leaves. -/
  | s5GlobalDone (die : Nat) (line : Nat)
  /-- S6_FENCE (R176): A fence at the head of every masked queue leaves once earlier accesses and observed stores are performed at its scope. -/
  | s6Fence (ctx : Nat) (st : Strm) (cls : Nat)
  /-- GLOBAL_ACK_TIMEOUT (R180): 2^24 cycles after S4 without every GA, the store leaves marked lost, its bytes become INVALID and LOST is set. -/
  | globalAckTimeout (ctx : Nat) (st : Strm) (cls : Nat)
  /-- H1_PLACE_EARLY (R171): A FREE line takes E(A) into CO and sends C(A) to the writer and U(A) to every other live die. -/
  | h1PlaceEarly (die : Nat) (line : Nat)
  /-- H2_PROPAGATE (R171): The last UA(A) arrives, and P(A) is sent to every live compute die. -/
  | h2Propagate (line : Nat) (id : Nat)
  /-- H3_HOLD (R171): A FREE line takes G(A), becomes HELD and sends I(L) to every live compute die. -/
  | h3Hold (die : Nat) (line : Nat)
  /-- H4_PERFORM (R171): The last IA(L) arrives; A is appended to CO, an atomic computes, GA is sent, and the line becomes FREE. -/
  | h4Perform (line : Nat)
  /-- H5_SERVE_FILL (R171): A FREE line answers F(L) with FR(L), carrying the last values in CO and their propagation state. -/
  | h5ServeFill (die : Nat) (line : Nat)
  /-- V1_UPDATE (R172): U(A) makes non-pending bytes VALID with A's value, and UA(A) is sent. -/
  | v1Update (die : Nat) (line : Nat)
  /-- V2_CONFIRM (R172): C(A) clears pending identifiers that equal A. -/
  | v2Confirm (die : Nat) (line : Nat)
  /-- V3_INVALIDATE (R172): I(L) makes non-pending bytes INVALID, and IA(L) is sent. -/
  | v3Invalidate (die : Nat) (line : Nat)
  /-- V4_FILL_REPLY (R172): FR(L) makes INVALID, non-pending bytes VALID as carried. -/
  | v4FillReply (die : Nat) (line : Nat)
  /-- V5_PROPAGATED (R172): P(A) removes A from OBS of every stream of the die. -/
  | v5Propagated (die : Nat) (line : Nat)
  /-- HOME_TABLE_WRITE_COMPLETE (R34): The last live die acknowledges a PF home-table write, L0 completes the host's write and accepts the next one. -/
  | homeTableWriteComplete
  /-- LINK_REJOIN (R45): A die-to-die link that had failed retrains and rejoins, and L0 recomputes the route table with it. -/
  | linkRejoin (a : Nat) (b : Nat)
  /-- SEALED_SLOT_START (R60): The die counter enters a new 64-cycle slot under sealed mode: resources change owner, waiting packets of the new owner may proceed and gated routers are woken. -/
  | sealedSlotStart (die : Nat)
  /-- FAR_END_ACKNOWLEDGEMENT (R409): The remote module acknowledges an rput or host-port copy write, which is then performed at system scope. -/
  | farEndAcknowledgement (ctx : Nat) (id : Nat)
  /-- WEIGHT_DIE_QUERY_RESULT (R399): The weight die returns a wq query's FP32 partial sums, which are written to the accumulator with their flags. -/
  | weightDieQueryResult (ctx : Nat)
  /-- INTERLOCKED_COMPLETION (R161): A vector instruction in interlocked mode completes, writing its destination or guard slot and releasing the scoreboard. -/
  | interlockedCompletion (ctx : Nat)
deriving DecidableEq, Repr

end Sys2Proof
end

