-- ==== Sys2Proof/WellFormed.lean ====
section
/-!
DEFINITION. Sys2Proof/WellFormed.lean: which terms of `Instr` are instructions of a stream. An instruction word that
breaks one of these checks is a reserved encoding: it takes the illegal-instruction trap when it would issue
(R8, R296). The checks are those of 13_encoding.md (field widths of Table 13-2, the fields given as 0, the excluded
values) and the streams of R290 to R295.
-/

namespace Sys2Proof

/-- The instruction is a word of stream `st` with every field in range. For the event rows the check bounds
the unit that is named (37 dies, 4 memory dies, 1,024 contexts, 512 functions, 4 queues, 16 classes). -/
def Instr.wf (st : Strm) (i : Instr) : Bool :=
  match i with
  | .blk cnt len => decide (cnt < 16384 ∧ len < 4096 ∧ cnt ≥ 1 ∧ len ≥ 2)
  | .wait n => decide (n < 2048)
  | .endS => true
  | .brk imm => decide (imm < 128)
  | .eret => decide (st = .c)
  | .halt => decide (st = .c)
  | .rdv => decide (st = .c)
  | .ret => decide (st = .c)
  | .svc imm => decide (imm < 2048)
  | .syncPrefix push wset gen slot sense => decide (push < 8 ∧ wset < 8 ∧ slot < 8 ∧
      (gen = true ∨ (slot = 0 ∧ sense = false)) ∧ (gen = true ∨ push ≠ 0 ∨ wset ≠ 0))
  | .br off => decide (-16777216 ≤ off ∧ off < 16777216)
  | .bg slot _ off => decide (slot < 8 ∧ -1048576 ≤ off ∧ off < 1048576)
  | .rpt _ step mask n => decide (step < 16 ∧ mask < 16 ∧ n < 64 ∧ mask ≠ 0)
  | .csrr reg csr => decide (reg < (if st = .c then 32 else 16) ∧ csr < 1024)
  | .csrw csr reg => decide (csr < 1024 ∧ reg < (if st = .c then 32 else 16))
  | .csrwi csr imm => decide (csr < 1024 ∧ imm < 256)
  | .sigc => true
  | .dstc ga gb gc => decide (st = .c ∧ ga < 32 ∧ gb < 32 ∧ gc < 32)
  | .dstcSram ga gb gc => decide (st = .c ∧ ga < 32 ∧ gb < 32 ∧ gc < 32)
  | .gsetImm slot _ => decide (st = .c ∧ slot < 8)
  | .gclr slot => decide (st = .c ∧ slot < 8)
  | .mov gd ga => decide (st = .c ∧ gd < 32 ∧ ga < 32)
  | .add gd ga gb => decide (st = .c ∧ gd < 32 ∧ ga < 32 ∧ gb < 32)
  | .sub gd ga gb => decide (st = .c ∧ gd < 32 ∧ ga < 32 ∧ gb < 32)
  | .and gd ga gb => decide (st = .c ∧ gd < 32 ∧ ga < 32 ∧ gb < 32)
  | .or gd ga gb => decide (st = .c ∧ gd < 32 ∧ ga < 32 ∧ gb < 32)
  | .xor gd ga gb => decide (st = .c ∧ gd < 32 ∧ ga < 32 ∧ gb < 32)
  | .shl gd ga gb => decide (st = .c ∧ gd < 32 ∧ ga < 32 ∧ gb < 32)
  | .shr gd ga gb => decide (st = .c ∧ gd < 32 ∧ ga < 32 ∧ gb < 32)
  | .sar gd ga gb => decide (st = .c ∧ gd < 32 ∧ ga < 32 ∧ gb < 32)
  | .mul gd ga gb => decide (st = .c ∧ gd < 32 ∧ ga < 32 ∧ gb < 32)
  | .mulh gd ga gb => decide (st = .c ∧ gd < 32 ∧ ga < 32 ∧ gb < 32)
  | .mulhu gd ga gb => decide (st = .c ∧ gd < 32 ∧ ga < 32 ∧ gb < 32)
  | .div gd ga gb => decide (st = .c ∧ gd < 32 ∧ ga < 32 ∧ gb < 32)
  | .divu gd ga gb => decide (st = .c ∧ gd < 32 ∧ ga < 32 ∧ gb < 32)
  | .rem gd ga gb => decide (st = .c ∧ gd < 32 ∧ ga < 32 ∧ gb < 32)
  | .remu gd ga gb => decide (st = .c ∧ gd < 32 ∧ ga < 32 ∧ gb < 32)
  | .min gd ga gb => decide (st = .c ∧ gd < 32 ∧ ga < 32 ∧ gb < 32)
  | .max gd ga gb => decide (st = .c ∧ gd < 32 ∧ ga < 32 ∧ gb < 32)
  | .minu gd ga gb => decide (st = .c ∧ gd < 32 ∧ ga < 32 ∧ gb < 32)
  | .maxu gd ga gb => decide (st = .c ∧ gd < 32 ∧ ga < 32 ∧ gb < 32)
  | .slt gd ga gb => decide (st = .c ∧ gd < 32 ∧ ga < 32 ∧ gb < 32)
  | .sltu gd ga gb => decide (st = .c ∧ gd < 32 ∧ ga < 32 ∧ gb < 32)
  | .seq gd ga gb => decide (st = .c ∧ gd < 32 ∧ ga < 32 ∧ gb < 32)
  | .sne gd ga gb => decide (st = .c ∧ gd < 32 ∧ ga < 32 ∧ gb < 32)
  | .sel gd ga gb => decide (st = .c ∧ gd < 32 ∧ ga < 32 ∧ gb < 32)
  | .addi gd ga imm => decide (st = .c ∧ gd < 32 ∧ ga < 32 ∧ -32768 ≤ imm ∧ imm < 32768)
  | .slti gd ga imm => decide (st = .c ∧ gd < 32 ∧ ga < 32 ∧ -32768 ≤ imm ∧ imm < 32768)
  | .andi gd ga imm => decide (st = .c ∧ gd < 32 ∧ ga < 32 ∧ imm < 65536)
  | .ori gd ga imm => decide (st = .c ∧ gd < 32 ∧ ga < 32 ∧ imm < 65536)
  | .xori gd ga imm => decide (st = .c ∧ gd < 32 ∧ ga < 32 ∧ imm < 65536)
  | .shli gd ga n => decide (st = .c ∧ gd < 32 ∧ ga < 32 ∧ n < 64)
  | .shri gd ga n => decide (st = .c ∧ gd < 32 ∧ ga < 32 ∧ n < 64)
  | .sari gd ga n => decide (st = .c ∧ gd < 32 ∧ ga < 32 ∧ n < 64)
  | .li gd imm hw => decide (st = .c ∧ gd < 32 ∧ imm < 65536 ∧ hw < 4)
  | .lik gd imm hw => decide (st = .c ∧ gd < 32 ∧ imm < 65536 ∧ hw < 4)
  | .ld gd gb off sx lsz cls => decide (st = .c ∧ gd < 32 ∧ gb < 32 ∧ -256 ≤ off ∧ off < 256 ∧ lsz < 4 ∧ cls < 16 ∧ ¬(sx = true ∧ lsz = 3))
  | .st gb gs off _ lsz cls => decide (st = .c ∧ gb < 32 ∧ gs < 32 ∧ -256 ≤ off ∧ off < 256 ∧ lsz < 4 ∧ cls < 16)
  | .ldAcq gd gb scope sx lsz cls => decide (st = .c ∧ gd < 32 ∧ gb < 32 ∧ scope < 8 ∧ lsz < 4 ∧ cls < 16 ∧ scope ≤ 4 ∧ ¬(sx = true ∧ lsz = 3))
  | .stRel gb gs scope _ lsz cls => decide (st = .c ∧ gb < 32 ∧ gs < 32 ∧ scope < 8 ∧ lsz < 4 ∧ cls < 16 ∧ scope ≤ 4)
  | .amoadd gd gb gs scope form cls => decide (st = .c ∧ gd < 32 ∧ gb < 32 ∧ gs < 32 ∧ scope < 8 ∧ form < 4 ∧ cls < 16 ∧
      form ≤ 2 ∧ scope ≤ 4 ∧ (form = 0 → scope = 0))
  | .amoand gd gb gs scope form cls => decide (st = .c ∧ gd < 32 ∧ gb < 32 ∧ gs < 32 ∧ scope < 8 ∧ form < 4 ∧ cls < 16 ∧
      form ≤ 2 ∧ scope ≤ 4 ∧ (form = 0 → scope = 0))
  | .amoor gd gb gs scope form cls => decide (st = .c ∧ gd < 32 ∧ gb < 32 ∧ gs < 32 ∧ scope < 8 ∧ form < 4 ∧ cls < 16 ∧
      form ≤ 2 ∧ scope ≤ 4 ∧ (form = 0 → scope = 0))
  | .amoxor gd gb gs scope form cls => decide (st = .c ∧ gd < 32 ∧ gb < 32 ∧ gs < 32 ∧ scope < 8 ∧ form < 4 ∧ cls < 16 ∧
      form ≤ 2 ∧ scope ≤ 4 ∧ (form = 0 → scope = 0))
  | .amomin gd gb gs scope form cls => decide (st = .c ∧ gd < 32 ∧ gb < 32 ∧ gs < 32 ∧ scope < 8 ∧ form < 4 ∧ cls < 16 ∧
      form ≤ 2 ∧ scope ≤ 4 ∧ (form = 0 → scope = 0))
  | .amomax gd gb gs scope form cls => decide (st = .c ∧ gd < 32 ∧ gb < 32 ∧ gs < 32 ∧ scope < 8 ∧ form < 4 ∧ cls < 16 ∧
      form ≤ 2 ∧ scope ≤ 4 ∧ (form = 0 → scope = 0))
  | .amoswp gd gb gs scope form cls => decide (st = .c ∧ gd < 32 ∧ gb < 32 ∧ gs < 32 ∧ scope < 8 ∧ form < 4 ∧ cls < 16 ∧
      form ≤ 2 ∧ scope ≤ 4 ∧ (form = 0 → scope = 0))
  | .cas gd gb gs scope form cls => decide (st = .c ∧ gd < 32 ∧ gb < 32 ∧ gs < 32 ∧ scope < 8 ∧ form < 4 ∧ cls < 16 ∧
      form ≤ 2 ∧ scope ≤ 4 ∧ (form = 0 → scope = 0))
  | .wadd gb gs _ cls => decide (st = .c ∧ gb < 32 ∧ gs < 32 ∧ cls < 16)
  | .cread gd gb _ cls => decide (st = .c ∧ gd < 32 ∧ gb < 32 ∧ cls < 16)
  | .fence scope mask => decide (st = .c ∧ scope < 8 ∧ mask < 65536 ∧ scope ≤ 4 ∧ mask ≠ 0)
  | .spill gf gb n _ cls => decide (st = .c ∧ gf < 32 ∧ gb < 32 ∧ n < 32 ∧ cls < 16 ∧ gf + n ≤ 31)
  | .fill gf gb n cls => decide (st = .c ∧ gf < 32 ∧ gb < 32 ∧ n < 32 ∧ cls < 16 ∧ gf + n ≤ 31 ∧ ¬(gf ≤ gb ∧ gb ≤ gf + n))
  | .pf gb off cls => decide (st = .c ∧ gb < 32 ∧ -2048 ≤ off ∧ off < 2048 ∧ cls < 16)
  | .bz ga off => decide (st = .c ∧ ga < 32 ∧ -524288 ≤ off ∧ off < 524288)
  | .bnz ga off => decide (st = .c ∧ ga < 32 ∧ -524288 ≤ off ∧ off < 524288)
  | .call off => decide (st = .c ∧ -33554432 ≤ off ∧ off < 33554432)
  | .jt ga gb n => decide (st = .c ∧ ga < 32 ∧ gb < 32 ∧ n < 65536)
  | .fork set om ov oy => decide (st = .c ∧ set < 8 ∧ -2147483648 ≤ om ∧ om < 2147483648 ∧ -2147483648 ≤ ov ∧ ov < 2147483648 ∧ -2147483648 ≤ oy ∧
      oy < 2147483648 ∧ set ≠ 0 ∧ (set % 2 = 1 ∨ om = 0) ∧ (set / 2 % 2 = 1 ∨ ov = 0) ∧ (set / 4 = 1 ∨ oy = 0))
  | .talloc h ga gb => decide (st = .c ∧ h < 256 ∧ ga < 32 ∧ gb < 32)
  | .tfree h => decide (st = .c ∧ h < 256)
  | .dld dn gr cls => decide (st = .c ∧ dn < 16 ∧ gr < 32 ∧ cls < 16)
  | .dset dn gr field => decide (st = .c ∧ dn < 16 ∧ gr < 32 ∧ field < 16 ∧ field ≤ 14)
  | .dget gr dn field => decide (st = .c ∧ gr < 32 ∧ dn < 16 ∧ field < 16 ∧ field ≤ 14)
  | .dst gr dn _ cls => decide (st = .c ∧ gr < 32 ∧ dn < 16 ∧ cls < 16)
  | .gsetReg ga slot => decide (st = .c ∧ ga < 32 ∧ slot < 8)
  | .qdepth gd qn _ kind => decide (st = .c ∧ gd < 32 ∧ qn < 2 ∧ kind < 4 ∧ kind ≤ 2)
  | .tsig ga => decide (st = .c ∧ ga < 32)
  | .mzero acc pair => decide (st = .m ∧ acc < 4 ∧ ¬(pair = true ∧ acc % 2 = 1))
  | .astc acc => decide (st = .m ∧ acc < 4)
  | .mma acc da db _ cls => decide (st = .m ∧ acc < 4 ∧ da < 16 ∧ db < 16 ∧ cls < 16)
  | .mmaRange acc da db os oc _ cls => decide (st = .m ∧ acc < 4 ∧ da < 16 ∧ db < 16 ∧ os < 16 ∧ oc < 16 ∧ cls < 16)
  | .mdrain dn acc ro rnd _ cls => decide (st = .m ∧ dn < 16 ∧ acc < 4 ∧ ro < 16 ∧ rnd < 4 ∧ cls < 16)
  | .mdraint h acc ro rnd fmt cls => decide (st = .m ∧ h < 256 ∧ acc < 4 ∧ ro < 16 ∧ rnd < 4 ∧ fmt < 16 ∧ cls < 16 ∧ fmt ≤ 8)
  | .mld acc h ro cls => decide (st = .m ∧ acc < 4 ∧ h < 256 ∧ ro < 16 ∧ cls < 16)
  | .wq acc dq dw os cls => decide (st = .m ∧ acc < 4 ∧ dq < 16 ∧ dw < 16 ∧ os < 16 ∧ cls < 16)
  | .oadd od oa ob => decide ((st = .m ∨ st = .y) ∧ od < 16 ∧ oa < 16 ∧ ob < 16)
  | .osub od oa ob => decide ((st = .m ∨ st = .y) ∧ od < 16 ∧ oa < 16 ∧ ob < 16)
  | .omul od oa ob => decide ((st = .m ∨ st = .y) ∧ od < 16 ∧ oa < 16 ∧ ob < 16)
  | .oand od oa ob => decide ((st = .m ∨ st = .y) ∧ od < 16 ∧ oa < 16 ∧ ob < 16)
  | .oshl od oa ob => decide ((st = .m ∨ st = .y) ∧ od < 16 ∧ oa < 16 ∧ ob < 16)
  | .oshr od oa ob => decide ((st = .m ∨ st = .y) ∧ od < 16 ∧ oa < 16 ∧ ob < 16)
  | .omin od oa ob => decide ((st = .m ∨ st = .y) ∧ od < 16 ∧ oa < 16 ∧ ob < 16)
  | .omax od oa ob => decide ((st = .m ∨ st = .y) ∧ od < 16 ∧ oa < 16 ∧ ob < 16)
  | .oaddi od oa imm => decide ((st = .m ∨ st = .y) ∧ od < 16 ∧ oa < 16 ∧ -131072 ≤ imm ∧ imm < 131072)
  | .oli od imm => decide ((st = .m ∨ st = .y) ∧ od < 16 ∧ -2097152 ≤ imm ∧ imm < 2097152)
  | .qpop h pr qn => decide ((st = .m ∨ st = .y) ∧ h < 256 ∧ pr < 8 ∧ qn < 2)
  | .qpush h pr qn => decide ((st = .m ∨ st = .y) ∧ h < 256 ∧ pr < 8 ∧ qn < 2)
  | .barm ro bar => decide (st = .y ∧ ro < 16 ∧ bar < 8)
  | .bwait bar => decide (st = .y ∧ bar < 8)
  | .cpyTensorTile h dn pr cnt bar cls => decide (st = .y ∧ h < 256 ∧ dn < 16 ∧ pr < 8 ∧ bar < 8 ∧ cls < 16 ∧ (cnt = true ∨ bar = 0))
  | .cpyTileTensor dn h pr _ cnt bar cls => decide (st = .y ∧ dn < 16 ∧ h < 256 ∧ pr < 8 ∧ bar < 8 ∧ cls < 16 ∧ (cnt = true ∨ bar = 0))
  | .cpyTensorTensor dd ds pr _ cnt bar cls => decide (st = .y ∧ dd < 16 ∧ ds < 16 ∧ pr < 8 ∧ bar < 8 ∧ cls < 16 ∧ (cnt = true ∨ bar = 0))
  | .cpyTileTile hd hs pr cls => decide (st = .y ∧ hd < 256 ∧ hs < 256 ∧ pr < 8 ∧ cls < 16)
  | .cpys dd ds pr dg cls => decide (st = .y ∧ dd < 16 ∧ ds < 16 ∧ pr < 8 ∧ dg < 16 ∧ cls < 16)
  | .cpf dn pr cls => decide (st = .y ∧ dn < 16 ∧ pr < 8 ∧ cls < 16)
  | .wld dw ds pr cls => decide (st = .y ∧ dw < 16 ∧ ds < 16 ∧ pr < 8 ∧ cls < 16)
  | .rput dd ds pr cnt bar cls => decide (st = .y ∧ dd < 16 ∧ ds < 16 ∧ pr < 8 ∧ bar < 8 ∧ cls < 16 ∧ (cnt = true ∨ bar = 0))
  | .rget dd ds pr cnt bar cls => decide (st = .y ∧ dd < 16 ∧ ds < 16 ∧ pr < 8 ∧ bar < 8 ∧ cls < 16 ∧ (cnt = true ∨ bar = 0))
  | .vmode _ => decide (st = .v)
  | .vadd vd va vb => decide (st = .v ∧ vd < 64 ∧ va.dir < 3 ∧ va.reg < 64 ∧ vb.dir < 3 ∧ vb.reg < 64)
  | .vsub vd va vb => decide (st = .v ∧ vd < 64 ∧ va.dir < 3 ∧ va.reg < 64 ∧ vb.dir < 3 ∧ vb.reg < 64)
  | .vmul vd va vb => decide (st = .v ∧ vd < 64 ∧ va.dir < 3 ∧ va.reg < 64 ∧ vb.dir < 3 ∧ vb.reg < 64)
  | .vfma vd va vb => decide (st = .v ∧ vd < 64 ∧ va.dir < 3 ∧ va.reg < 64 ∧ vb.dir < 3 ∧ vb.reg < 64)
  | .vdiv vd va vb => decide (st = .v ∧ vd < 64 ∧ va.dir < 3 ∧ va.reg < 64 ∧ vb.dir < 3 ∧ vb.reg < 64)
  | .vmin vd va vb => decide (st = .v ∧ vd < 64 ∧ va.dir < 3 ∧ va.reg < 64 ∧ vb.dir < 3 ∧ vb.reg < 64)
  | .vmax vd va vb => decide (st = .v ∧ vd < 64 ∧ va.dir < 3 ∧ va.reg < 64 ∧ vb.dir < 3 ∧ vb.reg < 64)
  | .vrcp vd va => decide (st = .v ∧ vd < 64 ∧ va.dir < 3 ∧ va.reg < 64)
  | .vsqrt vd va => decide (st = .v ∧ vd < 64 ∧ va.dir < 3 ∧ va.reg < 64)
  | .vrsqrt vd va => decide (st = .v ∧ vd < 64 ∧ va.dir < 3 ∧ va.reg < 64)
  | .vexp2 vd va => decide (st = .v ∧ vd < 64 ∧ va.dir < 3 ∧ va.reg < 64)
  | .vlog2 vd va => decide (st = .v ∧ vd < 64 ∧ va.dir < 3 ∧ va.reg < 64)
  | .vsin vd va => decide (st = .v ∧ vd < 64 ∧ va.dir < 3 ∧ va.reg < 64)
  | .vcos vd va => decide (st = .v ∧ vd < 64 ∧ va.dir < 3 ∧ va.reg < 64)
  | .vtanh vd va => decide (st = .v ∧ vd < 64 ∧ va.dir < 3 ∧ va.reg < 64)
  | .vsigm vd va => decide (st = .v ∧ vd < 64 ∧ va.dir < 3 ∧ va.reg < 64)
  | .vneg vd va => decide (st = .v ∧ vd < 64 ∧ va.dir < 3 ∧ va.reg < 64)
  | .vabs vd va => decide (st = .v ∧ vd < 64 ∧ va.dir < 3 ∧ va.reg < 64)
  | .vaddF16 vd va vb => decide (st = .v ∧ vd < 64 ∧ va.dir < 3 ∧ va.reg < 64 ∧ vb.dir < 3 ∧ vb.reg < 64)
  | .vsubF16 vd va vb => decide (st = .v ∧ vd < 64 ∧ va.dir < 3 ∧ va.reg < 64 ∧ vb.dir < 3 ∧ vb.reg < 64)
  | .vmulF16 vd va vb => decide (st = .v ∧ vd < 64 ∧ va.dir < 3 ∧ va.reg < 64 ∧ vb.dir < 3 ∧ vb.reg < 64)
  | .vfmaF16 vd va vb => decide (st = .v ∧ vd < 64 ∧ va.dir < 3 ∧ va.reg < 64 ∧ vb.dir < 3 ∧ vb.reg < 64)
  | .vminF16 vd va vb => decide (st = .v ∧ vd < 64 ∧ va.dir < 3 ∧ va.reg < 64 ∧ vb.dir < 3 ∧ vb.reg < 64)
  | .vmaxF16 vd va vb => decide (st = .v ∧ vd < 64 ∧ va.dir < 3 ∧ va.reg < 64 ∧ vb.dir < 3 ∧ vb.reg < 64)
  | .vaddBf16 vd va vb => decide (st = .v ∧ vd < 64 ∧ va.dir < 3 ∧ va.reg < 64 ∧ vb.dir < 3 ∧ vb.reg < 64)
  | .vsubBf16 vd va vb => decide (st = .v ∧ vd < 64 ∧ va.dir < 3 ∧ va.reg < 64 ∧ vb.dir < 3 ∧ vb.reg < 64)
  | .vmulBf16 vd va vb => decide (st = .v ∧ vd < 64 ∧ va.dir < 3 ∧ va.reg < 64 ∧ vb.dir < 3 ∧ vb.reg < 64)
  | .vfmaBf16 vd va vb => decide (st = .v ∧ vd < 64 ∧ va.dir < 3 ∧ va.reg < 64 ∧ vb.dir < 3 ∧ vb.reg < 64)
  | .vminBf16 vd va vb => decide (st = .v ∧ vd < 64 ∧ va.dir < 3 ∧ va.reg < 64 ∧ vb.dir < 3 ∧ vb.reg < 64)
  | .vmaxBf16 vd va vb => decide (st = .v ∧ vd < 64 ∧ va.dir < 3 ∧ va.reg < 64 ∧ vb.dir < 3 ∧ vb.reg < 64)
  | .viadd vd va vb => decide (st = .v ∧ vd < 64 ∧ va.dir < 3 ∧ va.reg < 64 ∧ vb.dir < 3 ∧ vb.reg < 64)
  | .visub vd va vb => decide (st = .v ∧ vd < 64 ∧ va.dir < 3 ∧ va.reg < 64 ∧ vb.dir < 3 ∧ vb.reg < 64)
  | .vimul vd va vb => decide (st = .v ∧ vd < 64 ∧ va.dir < 3 ∧ va.reg < 64 ∧ vb.dir < 3 ∧ vb.reg < 64)
  | .vimad vd va vb => decide (st = .v ∧ vd < 64 ∧ va.dir < 3 ∧ va.reg < 64 ∧ vb.dir < 3 ∧ vb.reg < 64)
  | .vand vd va vb => decide (st = .v ∧ vd < 64 ∧ va.dir < 3 ∧ va.reg < 64 ∧ vb.dir < 3 ∧ vb.reg < 64)
  | .vor vd va vb => decide (st = .v ∧ vd < 64 ∧ va.dir < 3 ∧ va.reg < 64 ∧ vb.dir < 3 ∧ vb.reg < 64)
  | .vxor vd va vb => decide (st = .v ∧ vd < 64 ∧ va.dir < 3 ∧ va.reg < 64 ∧ vb.dir < 3 ∧ vb.reg < 64)
  | .vshl vd va vb => decide (st = .v ∧ vd < 64 ∧ va.dir < 3 ∧ va.reg < 64 ∧ vb.dir < 3 ∧ vb.reg < 64)
  | .vshr vd va vb => decide (st = .v ∧ vd < 64 ∧ va.dir < 3 ∧ va.reg < 64 ∧ vb.dir < 3 ∧ vb.reg < 64)
  | .vsar vd va vb => decide (st = .v ∧ vd < 64 ∧ va.dir < 3 ∧ va.reg < 64 ∧ vb.dir < 3 ∧ vb.reg < 64)
  | .vimin vd va vb => decide (st = .v ∧ vd < 64 ∧ va.dir < 3 ∧ va.reg < 64 ∧ vb.dir < 3 ∧ vb.reg < 64)
  | .vimax vd va vb => decide (st = .v ∧ vd < 64 ∧ va.dir < 3 ∧ va.reg < 64 ∧ vb.dir < 3 ∧ vb.reg < 64)
  | .viadds vd va vb => decide (st = .v ∧ vd < 64 ∧ va.dir < 3 ∧ va.reg < 64 ∧ vb.dir < 3 ∧ vb.reg < 64)
  | .visubs vd va vb => decide (st = .v ∧ vd < 64 ∧ va.dir < 3 ∧ va.reg < 64 ∧ vb.dir < 3 ∧ vb.reg < 64)
  | .vimulh vd va vb => decide (st = .v ∧ vd < 64 ∧ va.dir < 3 ∧ va.reg < 64 ∧ vb.dir < 3 ∧ vb.reg < 64)
  | .vineg vd va => decide (st = .v ∧ vd < 64 ∧ va.dir < 3 ∧ va.reg < 64)
  | .vnot vd va => decide (st = .v ∧ vd < 64 ∧ va.dir < 3 ∧ va.reg < 64)
  | .viabs vd va => decide (st = .v ∧ vd < 64 ∧ va.dir < 3 ∧ va.reg < 64)
  | .vfeq vd va vb => decide (st = .v ∧ vd < 64 ∧ va.dir < 3 ∧ va.reg < 64 ∧ vb.dir < 3 ∧ vb.reg < 64)
  | .vfne vd va vb => decide (st = .v ∧ vd < 64 ∧ va.dir < 3 ∧ va.reg < 64 ∧ vb.dir < 3 ∧ vb.reg < 64)
  | .vflt vd va vb => decide (st = .v ∧ vd < 64 ∧ va.dir < 3 ∧ va.reg < 64 ∧ vb.dir < 3 ∧ vb.reg < 64)
  | .vfle vd va vb => decide (st = .v ∧ vd < 64 ∧ va.dir < 3 ∧ va.reg < 64 ∧ vb.dir < 3 ∧ vb.reg < 64)
  | .vfslt vd va vb => decide (st = .v ∧ vd < 64 ∧ va.dir < 3 ∧ va.reg < 64 ∧ vb.dir < 3 ∧ vb.reg < 64)
  | .vfsle vd va vb => decide (st = .v ∧ vd < 64 ∧ va.dir < 3 ∧ va.reg < 64 ∧ vb.dir < 3 ∧ vb.reg < 64)
  | .vfun vd va vb => decide (st = .v ∧ vd < 64 ∧ va.dir < 3 ∧ va.reg < 64 ∧ vb.dir < 3 ∧ vb.reg < 64)
  | .vieq vd va vb => decide (st = .v ∧ vd < 64 ∧ va.dir < 3 ∧ va.reg < 64 ∧ vb.dir < 3 ∧ vb.reg < 64)
  | .vilt vd va vb => decide (st = .v ∧ vd < 64 ∧ va.dir < 3 ∧ va.reg < 64 ∧ vb.dir < 3 ∧ vb.reg < 64)
  | .vile vd va vb => decide (st = .v ∧ vd < 64 ∧ va.dir < 3 ∧ va.reg < 64 ∧ vb.dir < 3 ∧ vb.reg < 64)
  | .viltu vd va vb => decide (st = .v ∧ vd < 64 ∧ va.dir < 3 ∧ va.reg < 64 ∧ vb.dir < 3 ∧ vb.reg < 64)
  | .vileu vd va vb => decide (st = .v ∧ vd < 64 ∧ va.dir < 3 ∧ va.reg < 64 ∧ vb.dir < 3 ∧ vb.reg < 64)
  | .vsel vd va vb => decide (st = .v ∧ vd < 64 ∧ va.dir < 3 ∧ va.reg < 64 ∧ vb.dir < 3 ∧ vb.reg < 64)
  | .vcvt vd va rv rnd conv => decide (st = .v ∧ vd < 64 ∧ va.dir < 3 ∧ va.reg < 64 ∧ rnd < 8 ∧ conv < 16 ∧
      (rv = false ∨ rnd = 0) ∧ rnd ≤ 4 ∧ conv ≤ 11)
  | .vpack vd va rv rnd fmt => decide (st = .v ∧ vd < 64 ∧ va.dir < 3 ∧ va.reg < 64 ∧ rnd < 8 ∧ fmt < 8 ∧
      (rv = false ∨ rnd = 0) ∧ rnd ≤ 4 ∧ fmt ≤ 4 ∧ fmt ≠ 2 ∧ ¬(fmt ≥ 3 ∧ vd = 63))
  | .vpackCb4 vd va dn rv rnd => decide (st = .v ∧ vd < 64 ∧ va.dir < 3 ∧ va.reg < 64 ∧ dn < 16 ∧ rnd < 8 ∧ (rv = false ∨ rnd = 0) ∧ rnd ≤ 4)
  | .vunpack vd va rv rnd fmt => decide (st = .v ∧ vd < 64 ∧ va.dir < 3 ∧ va.reg < 64 ∧ rnd < 8 ∧ fmt < 8 ∧
      (rv = false ∨ rnd = 0) ∧ rnd ≤ 4 ∧ fmt ≤ 4 ∧ fmt ≠ 2 ∧ va.dir = 0 ∧ ¬(fmt ≥ 3 ∧ va.reg = 63))
  | .vunpackCb4 vd va dn rv rnd => decide (st = .v ∧ vd < 64 ∧ va.dir < 3 ∧ va.reg < 64 ∧ dn < 16 ∧ rnd < 8 ∧
      (rv = false ∨ rnd = 0) ∧ rnd ≤ 4 ∧ va.dir = 0)
  | .vrsum vd va => decide (st = .v ∧ vd < 64 ∧ va.dir < 3 ∧ va.reg < 64)
  | .vrmin vd va => decide (st = .v ∧ vd < 64 ∧ va.dir < 3 ∧ va.reg < 64)
  | .vrmax vd va => decide (st = .v ∧ vd < 64 ∧ va.dir < 3 ∧ va.reg < 64)
  | .virsum vd va => decide (st = .v ∧ vd < 64 ∧ va.dir < 3 ∧ va.reg < 64)
  | .virmin vd va => decide (st = .v ∧ vd < 64 ∧ va.dir < 3 ∧ va.reg < 64)
  | .virmax vd va => decide (st = .v ∧ vd < 64 ∧ va.dir < 3 ∧ va.reg < 64)
  | .vrany va slot => decide (st = .v ∧ va.dir < 3 ∧ va.reg < 64 ∧ slot < 8)
  | .vrall va slot => decide (st = .v ∧ va.dir < 3 ∧ va.reg < 64 ∧ slot < 8)
  | .vmov vd va => decide (st = .v ∧ vd < 64 ∧ va.dir < 3 ∧ va.reg < 64)
  | .vtrn vd va => decide (st = .v ∧ vd < 64 ∧ va.dir < 3 ∧ va.reg < 64)
  | .vbce vd va km => decide (st = .v ∧ vd < 64 ∧ va.dir < 3 ∧ va.reg < 64 ∧ km < 16)
  | .vbck vd km => decide (st = .v ∧ vd < 64 ∧ km < 16)
  | .vext km va => decide (st = .v ∧ km < 16 ∧ va.dir < 3 ∧ va.reg < 64)
  | .jseed vd va => decide (st = .v ∧ vd < 64 ∧ va.dir < 3 ∧ va.reg < 64)
  | .jconst vd va => decide (st = .v ∧ vd < 64 ∧ va.dir < 3 ∧ va.reg < 64)
  | .jget vd va n => decide (st = .v ∧ vd < 64 ∧ va.dir < 3 ∧ va.reg < 64 ∧ n < 8 ∧ n ≤ 5)
  | .jput vd va n => decide (st = .v ∧ vd < 64 ∧ va.dir < 3 ∧ va.reg < 64 ∧ n < 8 ∧ n ≤ 5)
  | .jdiff vd va => decide (st = .v ∧ vd < 64 ∧ va.dir < 3 ∧ va.reg < 64)
  | .vld vd dn km cls => decide (st = .v ∧ vd < 64 ∧ dn < 16 ∧ km < 16 ∧ cls < 16)
  | .vst dn km va _ cls => decide (st = .v ∧ dn < 16 ∧ km < 16 ∧ va < 64 ∧ cls < 16)
  | .vtld vd h km cls => decide (st = .v ∧ vd < 64 ∧ h < 256 ∧ km < 16 ∧ cls < 16)
  | .vtst h km va cls => decide (st = .v ∧ h < 256 ∧ km < 16 ∧ va < 64 ∧ cls < 16)
  | .vpop vd qn => decide (st = .v ∧ vd < 64 ∧ qn < 2)
  | .vpush va qn => decide (st = .v ∧ va < 64 ∧ qn < 2)
  | .vshape rows cols w => decide (st = .v ∧ rows < 32 ∧ cols < 64 ∧ w < 4 ∧ w ≤ 2 ∧ (rows + 1) * (cols + 1) * 2 ^ w ≤ 2048)
  | .psetImm pn count w => decide (st = .v ∧ pn < 8 ∧ count < 2048 ∧ w < 4 ∧ w ≤ 2)
  | .psetK pn km w => decide (st = .v ∧ pn < 8 ∧ km < 16 ∧ w < 4 ∧ w ≤ 2)
  | .kadd kd ka kb => decide (st = .v ∧ kd < 16 ∧ ka < 16 ∧ kb < 16)
  | .ksub kd ka kb => decide (st = .v ∧ kd < 16 ∧ ka < 16 ∧ kb < 16)
  | .kmul kd ka kb => decide (st = .v ∧ kd < 16 ∧ ka < 16 ∧ kb < 16)
  | .kand kd ka kb => decide (st = .v ∧ kd < 16 ∧ ka < 16 ∧ kb < 16)
  | .kor kd ka kb => decide (st = .v ∧ kd < 16 ∧ ka < 16 ∧ kb < 16)
  | .kshl kd ka kb => decide (st = .v ∧ kd < 16 ∧ ka < 16 ∧ kb < 16)
  | .kshr kd ka kb => decide (st = .v ∧ kd < 16 ∧ ka < 16 ∧ kb < 16)
  | .kmin kd ka kb => decide (st = .v ∧ kd < 16 ∧ ka < 16 ∧ kb < 16)
  | .kmax kd ka kb => decide (st = .v ∧ kd < 16 ∧ ka < 16 ∧ kb < 16)
  | .kaddi kd ka imm => decide (st = .v ∧ kd < 16 ∧ ka < 16 ∧ -131072 ≤ imm ∧ imm < 131072)
  | .vdefer va tag => decide (st = .v ∧ va < 64 ∧ tag < 256)
  | .vdrain vd pn => decide (st = .v ∧ vd < 64 ∧ pn < 8)
  | .vscatb va => decide (st = .v ∧ va < 64)
  | .moduleColdReset => true
  | .converterFault dom => decide (dom < 5)
  | .railInjection die col _ strip => decide (die < 37 ∧ col < 16 ∧ strip < 5)
  | .railBeatArrival die col _ strip => decide (die < 37 ∧ col < 16 ∧ strip < 5)
  | .routerPowerGate die strip col => decide (die < 37 ∧ strip < 5 ∧ col < 16)
  | .routerWake die strip col => decide (die < 37 ∧ strip < 5 ∧ col < 16)
  | .railTelemetrySample _ => true
  | .coolantWrite v => decide (v < 2 ^ 64)
  | .powerControlInterval _ => true
  | .dieMarkedUnavailable die => decide (die < 37)
  | .dieUnavailableClear die => decide (die < 37)
  | .connectorMeasurement idx _ => decide (idx < 10)
  | .evtClear idx => decide (idx < 10)
  | .registerWrite _ _ v => decide (v < 2 ^ 64)
  | .expertClear _ => true
  | .homeTableWrite slot v => decide (slot < 262144 ∧ v < 2 ^ 64)
  | .ffmapWrite m _ v => decide (m < 4 ∧ v < 2 ^ 64)
  | .ownershipWrite _ v => decide (v < 2 ^ 64)
  | .pctlWrite vf _ v => decide (vf < 512 ∧ v < 2 ^ 64)
  | .wwinWrite vf _ v => decide (vf < 512 ∧ v < 2 ^ 64)
  | .queueEnable vf q v => decide (vf < 512 ∧ q < 4 ∧ v < 2 ^ 64)
  | .queueDrain vf q v => decide (vf < 512 ∧ q < 4 ∧ v < 2 ^ 64)
  | .queueAbort vf q v => decide (vf < 512 ∧ q < 4 ∧ v < 2 ^ 64)
  | .pidxWrite vf q v => decide (vf < 512 ∧ q < 4 ∧ v < 2 ^ 64)
  | .cardFetch => true
  | .cardFetchDone => true
  | .cardFetchFault => true
  | .cheadWrite vf q v => decide (vf < 512 ∧ q < 4 ∧ v < 2 ^ 64)
  | .missSignal m => decide (m < 4)
  | .admissionRateRise m => decide (m < 4)
  | .translationWalkDone die => decide (die < 37)
  | .tlbinvPage ctx => decide (ctx < 1024)
  | .tlbinvAsid ctx => decide (ctx < 1024)
  | .tlbinvPartition ctx => decide (ctx < 1024)
  | .tlbinvDone ctx => decide (ctx < 1024)
  | .counterHalving m => decide (m < 4)
  | .migrationStart m => decide (m < 4)
  | .migrationCopyDone m => decide (m < 4)
  | .migrationAcksComplete m => decide (m < 4)
  | .firstTouchBind => true
  | .pullFetch => true
  | .pullFetchDone _ => true
  | .pullFailed => true
  | .escapeChannelSwitch kind _ => decide (kind < 3)
  | .drstGo die => decide (die < 37)
  | .quiesceStart => true
  | .quiesceDrainDone => true
  | .drainTimeout _ _ => true
  | .drstJoin die => decide (die < 37)
  | .linkFailure a b _ _ => decide (a < 37 ∧ b < 37)
  | .kMessage die _ => decide (die < 37)
  | .krMessage die _ => decide (die < 37)
  | .errorCompletion die _ => decide (die < 37)
  | .earlyStoreError die _ => decide (die < 37)
  | .schedulerStep => true
  | .budgetExhausted _ => true
  | .poolSliceEnd core kind => decide (core < 256 ∧ kind < 3)
  | .saveAreaRetry => true
  | .streamSave ctx _ => decide (ctx < 1024)
  | .deadlock ctx => decide (ctx < 1024)
  | .epochRelease _ => true
  | .epochFree _ => true
  | .dieRetire die => decide (die < 37)
  | .dieReturnToService die => decide (die < 37)
  | .scoreWrite die v => decide (die < 37 ∧ v < 2 ^ 64)
  | .registerFileScrub ctx _ => decide (ctx < 1024)
  | .sramScrub _ => true
  | .hbmSweep m _ => decide (m < 4)
  | .historyRowVisit m => decide (m < 4)
  | .eccWriteback => true
  | .checkpoint vf => decide (vf < 512)
  | .restore vf => decide (vf < 512)
  | .firmwareLoad => true
  | .dieCheck die _ => decide (die < 37)
  | .moduleCheck die _ => decide (die < 37)
  | .mcstatClear => true
  | .dovetailBind ctx _ => decide (ctx < 1024)
  | .dovetailDelivery ctx _ => decide (ctx < 1024)
  | .dovetailArrival _ => true
  | .instructionDiscard ctx _ => decide (ctx < 1024)
  | .resultLanding ctx => decide (ctx < 1024)
  | .faultDelivery ctx => decide (ctx < 1024)
  | .kStepCommit ctx => decide (ctx < 1024)
  | .copyByteCommit ctx => decide (ctx < 1024)
  | .s2Read ctx _ cls => decide (ctx < 1024 ∧ cls < 16)
  | .s2aFill ctx _ cls => decide (ctx < 1024 ∧ cls < 16)
  | .s3EarlyStore ctx _ cls => decide (ctx < 1024 ∧ cls < 16)
  | .s4GlobalSend ctx _ cls => decide (ctx < 1024 ∧ cls < 16)
  | .s5GlobalDone die _ => decide (die < 37)
  | .s6Fence ctx _ cls => decide (ctx < 1024 ∧ cls < 16)
  | .globalAckTimeout ctx _ cls => decide (ctx < 1024 ∧ cls < 16)
  | .h1PlaceEarly die _ => decide (die < 37)
  | .h2Propagate _ _ => true
  | .h3Hold die _ => decide (die < 37)
  | .h4Perform _ => true
  | .h5ServeFill die _ => decide (die < 37)
  | .v1Update die _ => decide (die < 37)
  | .v2Confirm die _ => decide (die < 37)
  | .v3Invalidate die _ => decide (die < 37)
  | .v4FillReply die _ => decide (die < 37)
  | .v5Propagated die _ => decide (die < 37)
  | .homeTableWriteComplete => true
  | .linkRejoin a b => decide (a < 37 ∧ b < 37)
  | .sealedSlotStart die => decide (die < 37)
  | .farEndAcknowledgement ctx _ => decide (ctx < 1024)
  | .weightDieQueryResult ctx => decide (ctx < 1024)
  | .interlockedCompletion ctx => decide (ctx < 1024)

/-- The rows that are steps of the module and no instruction word. -/
def Instr.isEvent (i : Instr) : Bool :=
  match i with
  | .moduleColdReset => true
  | .converterFault .. => true
  | .railInjection .. => true
  | .railBeatArrival .. => true
  | .routerPowerGate .. => true
  | .routerWake .. => true
  | .railTelemetrySample .. => true
  | .coolantWrite .. => true
  | .powerControlInterval .. => true
  | .dieMarkedUnavailable .. => true
  | .dieUnavailableClear .. => true
  | .connectorMeasurement .. => true
  | .evtClear .. => true
  | .registerWrite .. => true
  | .expertClear .. => true
  | .homeTableWrite .. => true
  | .ffmapWrite .. => true
  | .ownershipWrite .. => true
  | .pctlWrite .. => true
  | .wwinWrite .. => true
  | .queueEnable .. => true
  | .queueDrain .. => true
  | .queueAbort .. => true
  | .pidxWrite .. => true
  | .cardFetch => true
  | .cardFetchDone => true
  | .cardFetchFault => true
  | .cheadWrite .. => true
  | .missSignal .. => true
  | .admissionRateRise .. => true
  | .translationWalkDone .. => true
  | .tlbinvPage .. => true
  | .tlbinvAsid .. => true
  | .tlbinvPartition .. => true
  | .tlbinvDone .. => true
  | .counterHalving .. => true
  | .migrationStart .. => true
  | .migrationCopyDone .. => true
  | .migrationAcksComplete .. => true
  | .firstTouchBind .. => true
  | .pullFetch => true
  | .pullFetchDone .. => true
  | .pullFailed => true
  | .escapeChannelSwitch .. => true
  | .drstGo .. => true
  | .quiesceStart => true
  | .quiesceDrainDone => true
  | .drainTimeout .. => true
  | .drstJoin .. => true
  | .linkFailure .. => true
  | .kMessage .. => true
  | .krMessage .. => true
  | .errorCompletion .. => true
  | .earlyStoreError .. => true
  | .schedulerStep => true
  | .budgetExhausted .. => true
  | .poolSliceEnd .. => true
  | .saveAreaRetry => true
  | .streamSave .. => true
  | .deadlock .. => true
  | .epochRelease .. => true
  | .epochFree .. => true
  | .dieRetire .. => true
  | .dieReturnToService .. => true
  | .scoreWrite .. => true
  | .registerFileScrub .. => true
  | .sramScrub .. => true
  | .hbmSweep .. => true
  | .historyRowVisit .. => true
  | .eccWriteback => true
  | .checkpoint .. => true
  | .restore .. => true
  | .firmwareLoad => true
  | .dieCheck .. => true
  | .moduleCheck .. => true
  | .mcstatClear => true
  | .dovetailBind .. => true
  | .dovetailDelivery .. => true
  | .dovetailArrival .. => true
  | .instructionDiscard .. => true
  | .resultLanding .. => true
  | .faultDelivery .. => true
  | .kStepCommit .. => true
  | .copyByteCommit .. => true
  | .s2Read .. => true
  | .s2aFill .. => true
  | .s3EarlyStore .. => true
  | .s4GlobalSend .. => true
  | .s5GlobalDone .. => true
  | .s6Fence .. => true
  | .globalAckTimeout .. => true
  | .h1PlaceEarly .. => true
  | .h2Propagate .. => true
  | .h3Hold .. => true
  | .h4Perform .. => true
  | .h5ServeFill .. => true
  | .v1Update .. => true
  | .v2Confirm .. => true
  | .v3Invalidate .. => true
  | .v4FillReply .. => true
  | .v5Propagated .. => true
  | .homeTableWriteComplete => true
  | .linkRejoin .. => true
  | .sealedSlotStart .. => true
  | .farEndAcknowledgement .. => true
  | .weightDieQueryResult .. => true
  | .interlockedCompletion .. => true
  | .blk .. => false
  | .wait .. => false
  | .endS => false
  | .brk .. => false
  | .eret => false
  | .halt => false
  | .rdv => false
  | .ret => false
  | .svc .. => false
  | .syncPrefix .. => false
  | .br .. => false
  | .bg .. => false
  | .rpt .. => false
  | .csrr .. => false
  | .csrw .. => false
  | .csrwi .. => false
  | .sigc => false
  | .dstc .. => false
  | .dstcSram .. => false
  | .gsetImm .. => false
  | .gclr .. => false
  | .mov .. => false
  | .add .. => false
  | .sub .. => false
  | .and .. => false
  | .or .. => false
  | .xor .. => false
  | .shl .. => false
  | .shr .. => false
  | .sar .. => false
  | .mul .. => false
  | .mulh .. => false
  | .mulhu .. => false
  | .div .. => false
  | .divu .. => false
  | .rem .. => false
  | .remu .. => false
  | .min .. => false
  | .max .. => false
  | .minu .. => false
  | .maxu .. => false
  | .slt .. => false
  | .sltu .. => false
  | .seq .. => false
  | .sne .. => false
  | .sel .. => false
  | .addi .. => false
  | .slti .. => false
  | .andi .. => false
  | .ori .. => false
  | .xori .. => false
  | .shli .. => false
  | .shri .. => false
  | .sari .. => false
  | .li .. => false
  | .lik .. => false
  | .ld .. => false
  | .st .. => false
  | .ldAcq .. => false
  | .stRel .. => false
  | .amoadd .. => false
  | .amoand .. => false
  | .amoor .. => false
  | .amoxor .. => false
  | .amomin .. => false
  | .amomax .. => false
  | .amoswp .. => false
  | .cas .. => false
  | .wadd .. => false
  | .cread .. => false
  | .fence .. => false
  | .spill .. => false
  | .fill .. => false
  | .pf .. => false
  | .bz .. => false
  | .bnz .. => false
  | .call .. => false
  | .jt .. => false
  | .fork .. => false
  | .talloc .. => false
  | .tfree .. => false
  | .dld .. => false
  | .dset .. => false
  | .dget .. => false
  | .dst .. => false
  | .gsetReg .. => false
  | .qdepth .. => false
  | .tsig .. => false
  | .mzero .. => false
  | .astc .. => false
  | .mma .. => false
  | .mmaRange .. => false
  | .mdrain .. => false
  | .mdraint .. => false
  | .mld .. => false
  | .wq .. => false
  | .oadd .. => false
  | .osub .. => false
  | .omul .. => false
  | .oand .. => false
  | .oshl .. => false
  | .oshr .. => false
  | .omin .. => false
  | .omax .. => false
  | .oaddi .. => false
  | .oli .. => false
  | .qpop .. => false
  | .qpush .. => false
  | .barm .. => false
  | .bwait .. => false
  | .cpyTensorTile .. => false
  | .cpyTileTensor .. => false
  | .cpyTensorTensor .. => false
  | .cpyTileTile .. => false
  | .cpys .. => false
  | .cpf .. => false
  | .wld .. => false
  | .rput .. => false
  | .rget .. => false
  | .vmode .. => false
  | .vadd .. => false
  | .vsub .. => false
  | .vmul .. => false
  | .vfma .. => false
  | .vdiv .. => false
  | .vmin .. => false
  | .vmax .. => false
  | .vrcp .. => false
  | .vsqrt .. => false
  | .vrsqrt .. => false
  | .vexp2 .. => false
  | .vlog2 .. => false
  | .vsin .. => false
  | .vcos .. => false
  | .vtanh .. => false
  | .vsigm .. => false
  | .vneg .. => false
  | .vabs .. => false
  | .vaddF16 .. => false
  | .vsubF16 .. => false
  | .vmulF16 .. => false
  | .vfmaF16 .. => false
  | .vminF16 .. => false
  | .vmaxF16 .. => false
  | .vaddBf16 .. => false
  | .vsubBf16 .. => false
  | .vmulBf16 .. => false
  | .vfmaBf16 .. => false
  | .vminBf16 .. => false
  | .vmaxBf16 .. => false
  | .viadd .. => false
  | .visub .. => false
  | .vimul .. => false
  | .vimad .. => false
  | .vand .. => false
  | .vor .. => false
  | .vxor .. => false
  | .vshl .. => false
  | .vshr .. => false
  | .vsar .. => false
  | .vimin .. => false
  | .vimax .. => false
  | .viadds .. => false
  | .visubs .. => false
  | .vimulh .. => false
  | .vineg .. => false
  | .vnot .. => false
  | .viabs .. => false
  | .vfeq .. => false
  | .vfne .. => false
  | .vflt .. => false
  | .vfle .. => false
  | .vfslt .. => false
  | .vfsle .. => false
  | .vfun .. => false
  | .vieq .. => false
  | .vilt .. => false
  | .vile .. => false
  | .viltu .. => false
  | .vileu .. => false
  | .vsel .. => false
  | .vcvt .. => false
  | .vpack .. => false
  | .vpackCb4 .. => false
  | .vunpack .. => false
  | .vunpackCb4 .. => false
  | .vrsum .. => false
  | .vrmin .. => false
  | .vrmax .. => false
  | .virsum .. => false
  | .virmin .. => false
  | .virmax .. => false
  | .vrany .. => false
  | .vrall .. => false
  | .vmov .. => false
  | .vtrn .. => false
  | .vbce .. => false
  | .vbck .. => false
  | .vext .. => false
  | .jseed .. => false
  | .jconst .. => false
  | .jget .. => false
  | .jput .. => false
  | .jdiff .. => false
  | .vld .. => false
  | .vst .. => false
  | .vtld .. => false
  | .vtst .. => false
  | .vpop .. => false
  | .vpush .. => false
  | .vshape .. => false
  | .psetImm .. => false
  | .psetK .. => false
  | .kadd .. => false
  | .ksub .. => false
  | .kmul .. => false
  | .kand .. => false
  | .kor .. => false
  | .kshl .. => false
  | .kshr .. => false
  | .kmin .. => false
  | .kmax .. => false
  | .kaddi .. => false
  | .vdefer .. => false
  | .vdrain .. => false
  | .vscatb .. => false

end Sys2Proof
end

