-- ==== Sys2Proof/Decode.lean ====
section
/-!
DEFINITION. Sys2Proof/Decode.lean: from bytes to instructions and back, from the encoding tables of
13_encoding.md (Tables 13-3 to 13-13) and spec/opcode_table.json.

Which instruction a word is depends on the stream that fetches it (R290 to R295), so decoding takes the stream.
A word that no row assigns, or one of whose fields holds an excluded value, is rejected as reserved (R296).
-/

namespace Sys2Proof

/-! ### Bit fields of a word -/

/-- Bits lo + n - 1 down to lo of a word (R2). -/
def fld (w lo n : Nat) : Nat := w / 2 ^ lo % 2 ^ n

/-- Bit k of a word. -/
def bit (w k : Nat) : Bool := decide (fld w k 1 = 1)

/-- A two's-complement field of n bits as an integer (R281). -/
def sgn (n x : Nat) : Int := if x < 2 ^ (n - 1) then (x : Int) else (x : Int) - 2 ^ n

/-- An integer as a two's-complement field of n bits (R281). -/
def uns (n : Nat) (x : Int) : Nat := (x % 2 ^ n).toNat

/-- A vector source field: direction in [7:6], register in [5:0] (Table 13-2). -/
def vsrc (x : Nat) : VSrc := ⟨x / 64, x % 64⟩

/-- The 8-bit field of a vector source. -/
def VSrc.enc (a : VSrc) : Nat := a.dir * 64 + a.reg

/-- A one-bit field. -/
def b2n (b : Bool) : Nat := if b then 1 else 0

/-- Byte k of a word, the lowest first (R2). -/
def byteOf (w k : Nat) : Byte := BitVec.ofNat 8 (w / 2 ^ (8 * k))

/-- The n bytes of a word, lowest address first (R2). -/
def bytesOf (w n : Nat) : List Byte := (List.range n).map (byteOf w)

/-! ### Why a word is rejected -/

/-- The ways bytes fail to be an instruction of a stream. -/
inductive DecErr where
  /-- the bytes end before the word or the extension words of `fork` do -/
  | truncated
  /-- a 16-bit word that the maps do not assign, or with an excluded field value (R296) -/
  | reserved16
  /-- a 32-bit word that the maps do not assign, or with an excluded field value (R296) -/
  | reserved32
deriving DecidableEq, Repr

/-! ### The maps -/

/-- Common, 16-bit major 1 (Tables 13-7, 14-1). -/
def decCommon16m1 (w : Nat) : Option Instr :=
  if fld w 5 11 = 0 then some .endS
  else if fld w 12 4 = 1 then some (.brk (fld w 5 7))
  else if fld w 5 11 = 256 then some .eret
  else if fld w 5 11 = 384 then some .halt
  else if fld w 5 11 = 512 then some .rdv
  else if fld w 5 11 = 640 then some .ret
  else none

/-- Common 16-bit words (Tables 13-7, 14-1). -/
def decCommon16 (w : Nat) : Option Instr :=
  match fld w 1 4 with
  | 0 =>
    some (.wait (fld w 5 11))
  | 1 => decCommon16m1 w
  | 2 =>
    some (.syncPrefix (fld w 13 3) (fld w 10 3) (bit w 9) (fld w 6 3) (bit w 5))
  | 3 =>
    some (.svc (fld w 5 11))
  | _ => none

/-- Control 16-bit words (R292). -/
def decControl16 (w : Nat) : Option Instr :=
  match fld w 1 4 with
  | 4 =>
    if fld w 9 7 = 0 then some (.gsetImm (fld w 5 3) (bit w 8))
    else if fld w 8 8 = 2 then some (.gclr (fld w 5 3))
    else none
  | 5 =>
    if fld w 15 1 = 0 then some (.mov (fld w 5 5) (fld w 10 5))
    else none
  | _ => none

/-- Matrix 16-bit words (R293). -/
def decMatrix16 (w : Nat) : Option Instr :=
  match fld w 1 4 with
  | 4 =>
    if fld w 8 8 = 0 then some (.mzero (fld w 5 2) (bit w 7))
    else none
  | 5 =>
    if fld w 7 9 = 0 then some (.astc (fld w 5 2))
    else none
  | _ => none

/-- Copy 16-bit words (R294). -/
def decCopy16 (w : Nat) : Option Instr :=
  match fld w 1 4 with
  | 4 =>
    if fld w 12 4 = 0 then some (.barm (fld w 8 4) (fld w 5 3))
    else if fld w 8 8 = 16 then some (.bwait (fld w 5 3))
    else none
  | _ => none

/-- Vector 16-bit words (R295). -/
def decVector16 (w : Nat) : Option Instr :=
  match fld w 1 4 with
  | 4 =>
    if fld w 6 10 = 0 then some (.vmode (bit w 5))
    else none
  | _ => none

/-- Common, 32-bit major 3 (Tables 13-8, 14-1). -/
def decCommon32m3 (w : Nat) : Option Instr :=
  if fld w 6 3 = 0 ∧ fld w 24 8 = 0 then some (.csrr (fld w 9 5) (fld w 14 10))
  else if fld w 6 3 = 1 ∧ fld w 24 8 = 0 then some (.csrw (fld w 14 10) (fld w 9 5))
  else if fld w 6 8 = 2 then some (.csrwi (fld w 14 10) (fld w 24 8))
  else if fld w 6 26 = 3 then some .sigc
  else if fld w 6 3 = 4 ∧ fld w 24 8 = 0 then some (.dstc (fld w 9 5) (fld w 14 5) (fld w 19 5))
  else if fld w 6 3 = 4 ∧ fld w 24 8 = 1 then some (.dstcSram (fld w 9 5) (fld w 14 5) (fld w 19 5))
  else none

/-- Common 32-bit words (Tables 13-8, 14-1). -/
def decCommon32 (w : Nat) : Option Instr :=
  match fld w 1 5 with
  | 0 =>
    some (.blk (fld w 18 14) (fld w 6 12))
  | 1 =>
    if fld w 6 1 = 0 then some (.br (sgn 25 (fld w 7 25)))
    else if fld w 6 1 = 1 then some (.bg (fld w 7 3) (bit w 10) (sgn 21 (fld w 11 21)))
    else none
  | 2 =>
    if fld w 21 11 = 0 then some (.rpt (bit w 20) (fld w 16 4) (fld w 12 4) (fld w 6 6))
    else none
  | 3 => decCommon32m3 w
  | _ => none

/-- Control, 32-bit major 4 (Tables 13-9, 13-10). -/
def decControl32m4 (w : Nat) : Option Instr :=
  if fld w 21 11 = 0 then some (.add (fld w 6 5) (fld w 11 5) (fld w 16 5))
  else if fld w 21 11 = 1 then some (.sub (fld w 6 5) (fld w 11 5) (fld w 16 5))
  else if fld w 21 11 = 2 then some (.and (fld w 6 5) (fld w 11 5) (fld w 16 5))
  else if fld w 21 11 = 3 then some (.or (fld w 6 5) (fld w 11 5) (fld w 16 5))
  else if fld w 21 11 = 4 then some (.xor (fld w 6 5) (fld w 11 5) (fld w 16 5))
  else if fld w 21 11 = 5 then some (.shl (fld w 6 5) (fld w 11 5) (fld w 16 5))
  else if fld w 21 11 = 6 then some (.shr (fld w 6 5) (fld w 11 5) (fld w 16 5))
  else if fld w 21 11 = 7 then some (.sar (fld w 6 5) (fld w 11 5) (fld w 16 5))
  else if fld w 21 11 = 8 then some (.mul (fld w 6 5) (fld w 11 5) (fld w 16 5))
  else if fld w 21 11 = 9 then some (.mulh (fld w 6 5) (fld w 11 5) (fld w 16 5))
  else if fld w 21 11 = 10 then some (.mulhu (fld w 6 5) (fld w 11 5) (fld w 16 5))
  else if fld w 21 11 = 11 then some (.div (fld w 6 5) (fld w 11 5) (fld w 16 5))
  else if fld w 21 11 = 12 then some (.divu (fld w 6 5) (fld w 11 5) (fld w 16 5))
  else if fld w 21 11 = 13 then some (.rem (fld w 6 5) (fld w 11 5) (fld w 16 5))
  else if fld w 21 11 = 14 then some (.remu (fld w 6 5) (fld w 11 5) (fld w 16 5))
  else if fld w 21 11 = 15 then some (.min (fld w 6 5) (fld w 11 5) (fld w 16 5))
  else if fld w 21 11 = 16 then some (.max (fld w 6 5) (fld w 11 5) (fld w 16 5))
  else if fld w 21 11 = 17 then some (.minu (fld w 6 5) (fld w 11 5) (fld w 16 5))
  else if fld w 21 11 = 18 then some (.maxu (fld w 6 5) (fld w 11 5) (fld w 16 5))
  else if fld w 21 11 = 19 then some (.slt (fld w 6 5) (fld w 11 5) (fld w 16 5))
  else if fld w 21 11 = 20 then some (.sltu (fld w 6 5) (fld w 11 5) (fld w 16 5))
  else if fld w 21 11 = 21 then some (.seq (fld w 6 5) (fld w 11 5) (fld w 16 5))
  else if fld w 21 11 = 22 then some (.sne (fld w 6 5) (fld w 11 5) (fld w 16 5))
  else if fld w 21 11 = 23 then some (.sel (fld w 6 5) (fld w 11 5) (fld w 16 5))
  else none

/-- Control, 32-bit major 15 (Tables 13-9, 13-10). -/
def decControl32m15 (w : Nat) : Option Instr :=
  if fld w 25 2 = 0 then some (.amoadd (fld w 6 5) (fld w 11 5) (fld w 16 5) (fld w 29 3) (fld w 27 2) (fld w 21 4))
  else if fld w 25 2 = 1 then some (.amoand (fld w 6 5) (fld w 11 5) (fld w 16 5) (fld w 29 3) (fld w 27 2) (fld w 21 4))
  else if fld w 25 2 = 2 then some (.amoor (fld w 6 5) (fld w 11 5) (fld w 16 5) (fld w 29 3) (fld w 27 2) (fld w 21 4))
  else if fld w 25 2 = 3 then some (.amoxor (fld w 6 5) (fld w 11 5) (fld w 16 5) (fld w 29 3) (fld w 27 2) (fld w 21 4))
  else none

/-- Control, 32-bit major 16 (Tables 13-9, 13-10). -/
def decControl32m16 (w : Nat) : Option Instr :=
  if fld w 25 2 = 0 then some (.amomin (fld w 6 5) (fld w 11 5) (fld w 16 5) (fld w 29 3) (fld w 27 2) (fld w 21 4))
  else if fld w 25 2 = 1 then some (.amomax (fld w 6 5) (fld w 11 5) (fld w 16 5) (fld w 29 3) (fld w 27 2) (fld w 21 4))
  else if fld w 25 2 = 2 then some (.amoswp (fld w 6 5) (fld w 11 5) (fld w 16 5) (fld w 29 3) (fld w 27 2) (fld w 21 4))
  else if fld w 25 2 = 3 then some (.cas (fld w 6 5) (fld w 11 5) (fld w 16 5) (fld w 29 3) (fld w 27 2) (fld w 21 4))
  else none

/-- Control, 32-bit major 26 (Tables 13-9, 13-10). -/
def decControl32m26 (w : Nat) : Option Instr :=
  if fld w 10 3 = 0 ∧ fld w 18 6 = 0 ∧ fld w 28 4 = 0 then some (.dld (fld w 6 4) (fld w 13 5) (fld w 24 4))
  else if fld w 10 3 = 1 ∧ fld w 22 10 = 0 then some (.dset (fld w 6 4) (fld w 13 5) (fld w 18 4))
  else if fld w 10 3 = 2 ∧ fld w 22 10 = 0 then some (.dget (fld w 13 5) (fld w 6 4) (fld w 18 4))
  else if fld w 10 3 = 3 ∧ fld w 18 5 = 0 ∧ fld w 28 4 = 0 then some (.dst (fld w 13 5) (fld w 6 4) (bit w 23) (fld w 24 4))
  else none

/-- Control 32-bit words (Tables 13-9, 13-10). -/
def decControl32 (w : Nat) : Option Instr :=
  match fld w 1 5 with
  | 4 => decControl32m4 w
  | 5 =>
    some (.addi (fld w 6 5) (fld w 11 5) (sgn 16 (fld w 16 16)))
  | 6 =>
    some (.slti (fld w 6 5) (fld w 11 5) (sgn 16 (fld w 16 16)))
  | 7 =>
    some (.andi (fld w 6 5) (fld w 11 5) (fld w 16 16))
  | 8 =>
    some (.ori (fld w 6 5) (fld w 11 5) (fld w 16 16))
  | 9 =>
    some (.xori (fld w 6 5) (fld w 11 5) (fld w 16 16))
  | 10 =>
    if fld w 22 10 = 0 then some (.shli (fld w 6 5) (fld w 11 5) (fld w 16 6))
    else if fld w 22 10 = 1 then some (.shri (fld w 6 5) (fld w 11 5) (fld w 16 6))
    else if fld w 22 10 = 2 then some (.sari (fld w 6 5) (fld w 11 5) (fld w 16 6))
    else none
  | 11 =>
    if fld w 13 3 = 0 then some (.li (fld w 6 5) (fld w 16 16) (fld w 11 2))
    else if fld w 13 3 = 1 then some (.lik (fld w 6 5) (fld w 16 16) (fld w 11 2))
    else none
  | 12 =>
    some (.ld (fld w 6 5) (fld w 11 5) (sgn 9 (fld w 23 9)) (bit w 22) (fld w 20 2) (fld w 16 4))
  | 13 =>
    some (.st (fld w 11 5) (fld w 6 5) (sgn 9 (fld w 23 9)) (bit w 22) (fld w 20 2) (fld w 16 4))
  | 14 =>
    if fld w 23 1 = 0 ∧ fld w 27 5 = 0 then some (.ldAcq (fld w 6 5) (fld w 11 5) (fld w 24 3) (bit w 22) (fld w 20 2) (fld w 16 4))
    else if fld w 23 1 = 1 ∧ fld w 27 5 = 0 then some (.stRel (fld w 11 5) (fld w 6 5) (fld w 24 3) (bit w 22) (fld w 20 2) (fld w 16 4))
    else none
  | 15 => decControl32m15 w
  | 16 => decControl32m16 w
  | 17 =>
    if fld w 6 5 = 0 ∧ fld w 25 1 = 0 ∧ fld w 27 5 = 0 then some (.wadd (fld w 11 5) (fld w 16 5) (bit w 26) (fld w 21 4))
    else if fld w 16 5 = 0 ∧ fld w 25 1 = 1 ∧ fld w 27 5 = 0 then some (.cread (fld w 6 5) (fld w 11 5) (bit w 26) (fld w 21 4))
    else none
  | 18 =>
    if fld w 25 7 = 0 then some (.fence (fld w 22 3) (fld w 6 16))
    else none
  | 19 =>
    if fld w 25 1 = 0 ∧ fld w 27 5 = 0 then some (.spill (fld w 6 5) (fld w 11 5) (fld w 20 5) (bit w 26) (fld w 16 4))
    else if fld w 25 7 = 1 then some (.fill (fld w 6 5) (fld w 11 5) (fld w 20 5) (fld w 16 4))
    else none
  | 20 =>
    if fld w 6 5 = 0 then some (.pf (fld w 11 5) (sgn 12 (fld w 20 12)) (fld w 16 4))
    else none
  | 21 =>
    if fld w 11 1 = 0 then some (.bz (fld w 6 5) (sgn 20 (fld w 12 20)))
    else if fld w 11 1 = 1 then some (.bnz (fld w 6 5) (sgn 20 (fld w 12 20)))
    else none
  | 22 =>
    some (.call (sgn 26 (fld w 6 26)))
  | 23 =>
    some (.jt (fld w 6 5) (fld w 11 5) (fld w 16 16))
  | 25 =>
    if fld w 14 1 = 0 ∧ fld w 25 7 = 0 then some (.talloc (fld w 6 8) (fld w 15 5) (fld w 20 5))
    else if fld w 14 18 = 1 then some (.tfree (fld w 6 8))
    else none
  | 26 => decControl32m26 w
  | 27 =>
    if fld w 14 18 = 0 then some (.gsetReg (fld w 9 5) (fld w 6 3))
    else none
  | 28 =>
    if fld w 15 17 = 0 then some (.qdepth (fld w 6 5) (fld w 14 1) (bit w 13) (fld w 11 2))
    else none
  | 29 =>
    if fld w 11 21 = 0 then some (.tsig (fld w 6 5))
    else none
  | _ => none

/-- Matrix, 32-bit major 9 (Table 13-11). -/
def decMatrix32m9 (w : Nat) : Option Instr :=
  if fld w 18 14 = 0 then some (.oadd (fld w 6 4) (fld w 10 4) (fld w 14 4))
  else if fld w 18 14 = 1 then some (.osub (fld w 6 4) (fld w 10 4) (fld w 14 4))
  else if fld w 18 14 = 2 then some (.omul (fld w 6 4) (fld w 10 4) (fld w 14 4))
  else if fld w 18 14 = 3 then some (.oand (fld w 6 4) (fld w 10 4) (fld w 14 4))
  else if fld w 18 14 = 4 then some (.oshl (fld w 6 4) (fld w 10 4) (fld w 14 4))
  else if fld w 18 14 = 5 then some (.oshr (fld w 6 4) (fld w 10 4) (fld w 14 4))
  else if fld w 18 14 = 6 then some (.omin (fld w 6 4) (fld w 10 4) (fld w 14 4))
  else if fld w 18 14 = 7 then some (.omax (fld w 6 4) (fld w 10 4) (fld w 14 4))
  else none

/-- Matrix 32-bit words (Table 13-11). -/
def decMatrix32 (w : Nat) : Option Instr :=
  match fld w 1 5 with
  | 4 =>
    if fld w 16 8 = 0 ∧ fld w 29 3 = 0 then some (.mma (fld w 6 2) (fld w 8 4) (fld w 12 4) (bit w 28) (fld w 24 4))
    else if fld w 29 3 = 1 then some (.mmaRange (fld w 6 2) (fld w 8 4) (fld w 12 4) (fld w 16 4) (fld w 20 4) (bit w 28) (fld w 24 4))
    else none
  | 5 =>
    if fld w 23 9 = 0 then some (.mdrain (fld w 8 4) (fld w 6 2) (fld w 12 4) (fld w 16 2) (bit w 22) (fld w 18 4))
    else none
  | 6 =>
    if fld w 30 2 = 0 then some (.mdraint (fld w 8 8) (fld w 6 2) (fld w 16 4) (fld w 20 2) (fld w 22 4) (fld w 26 4))
    else none
  | 7 =>
    if fld w 24 8 = 0 then some (.mld (fld w 6 2) (fld w 8 8) (fld w 16 4) (fld w 20 4))
    else none
  | 8 =>
    if fld w 24 8 = 0 then some (.wq (fld w 6 2) (fld w 8 4) (fld w 12 4) (fld w 16 4) (fld w 20 4))
    else none
  | 9 => decMatrix32m9 w
  | 10 =>
    some (.oaddi (fld w 6 4) (fld w 10 4) (sgn 18 (fld w 14 18)))
  | 11 =>
    some (.oli (fld w 6 4) (sgn 22 (fld w 10 22)))
  | 12 =>
    if fld w 18 14 = 0 then some (.qpop (fld w 6 8) (fld w 14 3) (fld w 17 1))
    else if fld w 18 14 = 1 then some (.qpush (fld w 6 8) (fld w 14 3) (fld w 17 1))
    else none
  | _ => none

/-- Copy, 32-bit major 9 (Table 13-12). -/
def decCopy32m9 (w : Nat) : Option Instr :=
  if fld w 18 14 = 0 then some (.oadd (fld w 6 4) (fld w 10 4) (fld w 14 4))
  else if fld w 18 14 = 1 then some (.osub (fld w 6 4) (fld w 10 4) (fld w 14 4))
  else if fld w 18 14 = 2 then some (.omul (fld w 6 4) (fld w 10 4) (fld w 14 4))
  else if fld w 18 14 = 3 then some (.oand (fld w 6 4) (fld w 10 4) (fld w 14 4))
  else if fld w 18 14 = 4 then some (.oshl (fld w 6 4) (fld w 10 4) (fld w 14 4))
  else if fld w 18 14 = 5 then some (.oshr (fld w 6 4) (fld w 10 4) (fld w 14 4))
  else if fld w 18 14 = 6 then some (.omin (fld w 6 4) (fld w 10 4) (fld w 14 4))
  else if fld w 18 14 = 7 then some (.omax (fld w 6 4) (fld w 10 4) (fld w 14 4))
  else none

/-- Copy 32-bit words (Table 13-12). -/
def decCopy32 (w : Nat) : Option Instr :=
  match fld w 1 5 with
  | 4 =>
    if fld w 29 3 = 0 then some (.cpyTensorTile (fld w 6 8) (fld w 14 4) (fld w 18 3) (bit w 28) (fld w 25 3) (fld w 21 4))
    else none
  | 5 =>
    if fld w 30 2 = 0 then some (.cpyTileTensor (fld w 14 4) (fld w 6 8) (fld w 18 3) (bit w 29) (bit w 28) (fld w 25 3) (fld w 21 4))
    else none
  | 6 =>
    if fld w 26 6 = 0 then some (.cpyTensorTensor (fld w 6 4) (fld w 10 4) (fld w 14 3) (bit w 25) (bit w 24) (fld w 21 3) (fld w 17 4))
    else none
  | 7 =>
    if fld w 29 3 = 0 then some (.cpyTileTile (fld w 6 8) (fld w 14 8) (fld w 22 3) (fld w 25 4))
    else none
  | 8 =>
    if fld w 25 7 = 0 then some (.cpys (fld w 6 4) (fld w 10 4) (fld w 14 3) (fld w 21 4) (fld w 17 4))
    else none
  | 9 => decCopy32m9 w
  | 10 =>
    some (.oaddi (fld w 6 4) (fld w 10 4) (sgn 18 (fld w 14 18)))
  | 11 =>
    some (.oli (fld w 6 4) (sgn 22 (fld w 10 22)))
  | 12 =>
    if fld w 18 14 = 0 then some (.qpop (fld w 6 8) (fld w 14 3) (fld w 17 1))
    else if fld w 18 14 = 1 then some (.qpush (fld w 6 8) (fld w 14 3) (fld w 17 1))
    else none
  | 13 =>
    if fld w 17 15 = 0 then some (.cpf (fld w 6 4) (fld w 10 3) (fld w 13 4))
    else none
  | 14 =>
    if fld w 21 11 = 0 then some (.wld (fld w 6 4) (fld w 10 4) (fld w 14 3) (fld w 17 4))
    else none
  | 15 =>
    if fld w 21 1 = 0 ∧ fld w 26 6 = 0 then some (.rput (fld w 6 4) (fld w 10 4) (fld w 14 3) (bit w 25) (fld w 22 3) (fld w 17 4))
    else if fld w 21 1 = 1 ∧ fld w 26 6 = 0 then some (.rget (fld w 6 4) (fld w 10 4) (fld w 14 3) (bit w 25) (fld w 22 3) (fld w 17 4))
    else none
  | _ => none

/-- Vector, 32-bit major 4 (Table 13-13). -/
def decVector32m4 (w : Nat) : Option Instr :=
  if fld w 28 4 = 0 then some (.vadd (fld w 6 6) (vsrc (fld w 12 8)) (vsrc (fld w 20 8)))
  else if fld w 28 4 = 1 then some (.vsub (fld w 6 6) (vsrc (fld w 12 8)) (vsrc (fld w 20 8)))
  else if fld w 28 4 = 2 then some (.vmul (fld w 6 6) (vsrc (fld w 12 8)) (vsrc (fld w 20 8)))
  else if fld w 28 4 = 3 then some (.vfma (fld w 6 6) (vsrc (fld w 12 8)) (vsrc (fld w 20 8)))
  else if fld w 28 4 = 4 then some (.vdiv (fld w 6 6) (vsrc (fld w 12 8)) (vsrc (fld w 20 8)))
  else if fld w 28 4 = 5 then some (.vmin (fld w 6 6) (vsrc (fld w 12 8)) (vsrc (fld w 20 8)))
  else if fld w 28 4 = 6 then some (.vmax (fld w 6 6) (vsrc (fld w 12 8)) (vsrc (fld w 20 8)))
  else none

/-- Vector, 32-bit major 5 (Table 13-13). -/
def decVector32m5 (w : Nat) : Option Instr :=
  if fld w 20 12 = 0 then some (.vrcp (fld w 6 6) (vsrc (fld w 12 8)))
  else if fld w 20 12 = 1 then some (.vsqrt (fld w 6 6) (vsrc (fld w 12 8)))
  else if fld w 20 12 = 2 then some (.vrsqrt (fld w 6 6) (vsrc (fld w 12 8)))
  else if fld w 20 12 = 3 then some (.vexp2 (fld w 6 6) (vsrc (fld w 12 8)))
  else if fld w 20 12 = 4 then some (.vlog2 (fld w 6 6) (vsrc (fld w 12 8)))
  else if fld w 20 12 = 5 then some (.vsin (fld w 6 6) (vsrc (fld w 12 8)))
  else if fld w 20 12 = 6 then some (.vcos (fld w 6 6) (vsrc (fld w 12 8)))
  else if fld w 20 12 = 7 then some (.vtanh (fld w 6 6) (vsrc (fld w 12 8)))
  else if fld w 20 12 = 8 then some (.vsigm (fld w 6 6) (vsrc (fld w 12 8)))
  else if fld w 20 12 = 9 then some (.vneg (fld w 6 6) (vsrc (fld w 12 8)))
  else if fld w 20 12 = 10 then some (.vabs (fld w 6 6) (vsrc (fld w 12 8)))
  else none

/-- Vector, 32-bit major 6 (Table 13-13). -/
def decVector32m6 (w : Nat) : Option Instr :=
  if fld w 28 4 = 0 then some (.vaddF16 (fld w 6 6) (vsrc (fld w 12 8)) (vsrc (fld w 20 8)))
  else if fld w 28 4 = 1 then some (.vsubF16 (fld w 6 6) (vsrc (fld w 12 8)) (vsrc (fld w 20 8)))
  else if fld w 28 4 = 2 then some (.vmulF16 (fld w 6 6) (vsrc (fld w 12 8)) (vsrc (fld w 20 8)))
  else if fld w 28 4 = 3 then some (.vfmaF16 (fld w 6 6) (vsrc (fld w 12 8)) (vsrc (fld w 20 8)))
  else if fld w 28 4 = 4 then some (.vminF16 (fld w 6 6) (vsrc (fld w 12 8)) (vsrc (fld w 20 8)))
  else if fld w 28 4 = 5 then some (.vmaxF16 (fld w 6 6) (vsrc (fld w 12 8)) (vsrc (fld w 20 8)))
  else none

/-- Vector, 32-bit major 7 (Table 13-13). -/
def decVector32m7 (w : Nat) : Option Instr :=
  if fld w 28 4 = 0 then some (.vaddBf16 (fld w 6 6) (vsrc (fld w 12 8)) (vsrc (fld w 20 8)))
  else if fld w 28 4 = 1 then some (.vsubBf16 (fld w 6 6) (vsrc (fld w 12 8)) (vsrc (fld w 20 8)))
  else if fld w 28 4 = 2 then some (.vmulBf16 (fld w 6 6) (vsrc (fld w 12 8)) (vsrc (fld w 20 8)))
  else if fld w 28 4 = 3 then some (.vfmaBf16 (fld w 6 6) (vsrc (fld w 12 8)) (vsrc (fld w 20 8)))
  else if fld w 28 4 = 4 then some (.vminBf16 (fld w 6 6) (vsrc (fld w 12 8)) (vsrc (fld w 20 8)))
  else if fld w 28 4 = 5 then some (.vmaxBf16 (fld w 6 6) (vsrc (fld w 12 8)) (vsrc (fld w 20 8)))
  else none

/-- Vector, 32-bit major 8 (Table 13-13). -/
def decVector32m8 (w : Nat) : Option Instr :=
  if fld w 28 4 = 0 then some (.viadd (fld w 6 6) (vsrc (fld w 12 8)) (vsrc (fld w 20 8)))
  else if fld w 28 4 = 1 then some (.visub (fld w 6 6) (vsrc (fld w 12 8)) (vsrc (fld w 20 8)))
  else if fld w 28 4 = 2 then some (.vimul (fld w 6 6) (vsrc (fld w 12 8)) (vsrc (fld w 20 8)))
  else if fld w 28 4 = 3 then some (.vimad (fld w 6 6) (vsrc (fld w 12 8)) (vsrc (fld w 20 8)))
  else if fld w 28 4 = 4 then some (.vand (fld w 6 6) (vsrc (fld w 12 8)) (vsrc (fld w 20 8)))
  else if fld w 28 4 = 5 then some (.vor (fld w 6 6) (vsrc (fld w 12 8)) (vsrc (fld w 20 8)))
  else if fld w 28 4 = 6 then some (.vxor (fld w 6 6) (vsrc (fld w 12 8)) (vsrc (fld w 20 8)))
  else if fld w 28 4 = 7 then some (.vshl (fld w 6 6) (vsrc (fld w 12 8)) (vsrc (fld w 20 8)))
  else if fld w 28 4 = 8 then some (.vshr (fld w 6 6) (vsrc (fld w 12 8)) (vsrc (fld w 20 8)))
  else if fld w 28 4 = 9 then some (.vsar (fld w 6 6) (vsrc (fld w 12 8)) (vsrc (fld w 20 8)))
  else if fld w 28 4 = 10 then some (.vimin (fld w 6 6) (vsrc (fld w 12 8)) (vsrc (fld w 20 8)))
  else if fld w 28 4 = 11 then some (.vimax (fld w 6 6) (vsrc (fld w 12 8)) (vsrc (fld w 20 8)))
  else if fld w 28 4 = 12 then some (.viadds (fld w 6 6) (vsrc (fld w 12 8)) (vsrc (fld w 20 8)))
  else if fld w 28 4 = 13 then some (.visubs (fld w 6 6) (vsrc (fld w 12 8)) (vsrc (fld w 20 8)))
  else if fld w 28 4 = 14 then some (.vimulh (fld w 6 6) (vsrc (fld w 12 8)) (vsrc (fld w 20 8)))
  else none

/-- Vector, 32-bit major 10 (Table 13-13). -/
def decVector32m10 (w : Nat) : Option Instr :=
  if fld w 28 4 = 0 then some (.vfeq (fld w 6 6) (vsrc (fld w 12 8)) (vsrc (fld w 20 8)))
  else if fld w 28 4 = 1 then some (.vfne (fld w 6 6) (vsrc (fld w 12 8)) (vsrc (fld w 20 8)))
  else if fld w 28 4 = 2 then some (.vflt (fld w 6 6) (vsrc (fld w 12 8)) (vsrc (fld w 20 8)))
  else if fld w 28 4 = 3 then some (.vfle (fld w 6 6) (vsrc (fld w 12 8)) (vsrc (fld w 20 8)))
  else if fld w 28 4 = 4 then some (.vfslt (fld w 6 6) (vsrc (fld w 12 8)) (vsrc (fld w 20 8)))
  else if fld w 28 4 = 5 then some (.vfsle (fld w 6 6) (vsrc (fld w 12 8)) (vsrc (fld w 20 8)))
  else if fld w 28 4 = 6 then some (.vfun (fld w 6 6) (vsrc (fld w 12 8)) (vsrc (fld w 20 8)))
  else if fld w 28 4 = 7 then some (.vieq (fld w 6 6) (vsrc (fld w 12 8)) (vsrc (fld w 20 8)))
  else if fld w 28 4 = 8 then some (.vilt (fld w 6 6) (vsrc (fld w 12 8)) (vsrc (fld w 20 8)))
  else if fld w 28 4 = 9 then some (.vile (fld w 6 6) (vsrc (fld w 12 8)) (vsrc (fld w 20 8)))
  else if fld w 28 4 = 10 then some (.viltu (fld w 6 6) (vsrc (fld w 12 8)) (vsrc (fld w 20 8)))
  else if fld w 28 4 = 11 then some (.vileu (fld w 6 6) (vsrc (fld w 12 8)) (vsrc (fld w 20 8)))
  else if fld w 28 4 = 12 then some (.vsel (fld w 6 6) (vsrc (fld w 12 8)) (vsrc (fld w 20 8)))
  else none

/-- Vector, 32-bit major 12 (Table 13-13). -/
def decVector32m12 (w : Nat) : Option Instr :=
  if fld w 23 1 = 0 ∧ fld w 28 4 = 0 ∧ fld w 20 3 ≠ 2 then some (.vpack (fld w 6 6) (vsrc (fld w 12 8)) (bit w 27) (fld w 24 3) (fld w 20 3))
  else if fld w 20 4 = 2 then some (.vpackCb4 (fld w 6 6) (vsrc (fld w 12 8)) (fld w 28 4) (bit w 27) (fld w 24 3))
  else if fld w 23 1 = 1 ∧ fld w 28 4 = 0 ∧ fld w 20 3 ≠ 2 then some (.vunpack (fld w 6 6) (vsrc (fld w 12 8)) (bit w 27) (fld w 24 3) (fld w 20 3))
  else if fld w 20 4 = 10 then some (.vunpackCb4 (fld w 6 6) (vsrc (fld w 12 8)) (fld w 28 4) (bit w 27) (fld w 24 3))
  else none

/-- Vector, 32-bit major 13 (Table 13-13). -/
def decVector32m13 (w : Nat) : Option Instr :=
  if fld w 20 12 = 0 then some (.vrsum (fld w 6 6) (vsrc (fld w 12 8)))
  else if fld w 20 12 = 1 then some (.vrmin (fld w 6 6) (vsrc (fld w 12 8)))
  else if fld w 20 12 = 2 then some (.vrmax (fld w 6 6) (vsrc (fld w 12 8)))
  else if fld w 20 12 = 3 then some (.virsum (fld w 6 6) (vsrc (fld w 12 8)))
  else if fld w 20 12 = 4 then some (.virmin (fld w 6 6) (vsrc (fld w 12 8)))
  else if fld w 20 12 = 5 then some (.virmax (fld w 6 6) (vsrc (fld w 12 8)))
  else if fld w 6 6 = 0 ∧ fld w 20 4 = 6 ∧ fld w 27 5 = 0 then some (.vrany (vsrc (fld w 12 8)) (fld w 24 3))
  else if fld w 6 6 = 0 ∧ fld w 20 4 = 7 ∧ fld w 27 5 = 0 then some (.vrall (vsrc (fld w 12 8)) (fld w 24 3))
  else none

/-- Vector, 32-bit major 14 (Table 13-13). -/
def decVector32m14 (w : Nat) : Option Instr :=
  if fld w 20 12 = 0 then some (.vmov (fld w 6 6) (vsrc (fld w 12 8)))
  else if fld w 20 12 = 1 then some (.vtrn (fld w 6 6) (vsrc (fld w 12 8)))
  else if fld w 20 4 = 2 ∧ fld w 28 4 = 0 then some (.vbce (fld w 6 6) (vsrc (fld w 12 8)) (fld w 24 4))
  else if fld w 12 12 = 768 ∧ fld w 28 4 = 0 then some (.vbck (fld w 6 6) (fld w 24 4))
  else if fld w 6 6 = 0 ∧ fld w 20 4 = 4 ∧ fld w 28 4 = 0 then some (.vext (fld w 24 4) (vsrc (fld w 12 8)))
  else none

/-- Vector, 32-bit major 15 (Table 13-13). -/
def decVector32m15 (w : Nat) : Option Instr :=
  if fld w 20 12 = 0 then some (.jseed (fld w 6 6) (vsrc (fld w 12 8)))
  else if fld w 20 12 = 1 then some (.jconst (fld w 6 6) (vsrc (fld w 12 8)))
  else if fld w 20 4 = 2 ∧ fld w 27 5 = 0 then some (.jget (fld w 6 6) (vsrc (fld w 12 8)) (fld w 24 3))
  else if fld w 20 4 = 3 ∧ fld w 27 5 = 0 then some (.jput (fld w 6 6) (vsrc (fld w 12 8)) (fld w 24 3))
  else if fld w 20 12 = 4 then some (.jdiff (fld w 6 6) (vsrc (fld w 12 8)))
  else none

/-- Vector, 32-bit major 21 (Table 13-13). -/
def decVector32m21 (w : Nat) : Option Instr :=
  if fld w 18 14 = 0 then some (.kadd (fld w 6 4) (fld w 10 4) (fld w 14 4))
  else if fld w 18 14 = 1 then some (.ksub (fld w 6 4) (fld w 10 4) (fld w 14 4))
  else if fld w 18 14 = 2 then some (.kmul (fld w 6 4) (fld w 10 4) (fld w 14 4))
  else if fld w 18 14 = 3 then some (.kand (fld w 6 4) (fld w 10 4) (fld w 14 4))
  else if fld w 18 14 = 4 then some (.kor (fld w 6 4) (fld w 10 4) (fld w 14 4))
  else if fld w 18 14 = 5 then some (.kshl (fld w 6 4) (fld w 10 4) (fld w 14 4))
  else if fld w 18 14 = 6 then some (.kshr (fld w 6 4) (fld w 10 4) (fld w 14 4))
  else if fld w 18 14 = 7 then some (.kmin (fld w 6 4) (fld w 10 4) (fld w 14 4))
  else if fld w 18 14 = 8 then some (.kmax (fld w 6 4) (fld w 10 4) (fld w 14 4))
  else none

/-- Vector 32-bit words (Table 13-13). -/
def decVector32 (w : Nat) : Option Instr :=
  match fld w 1 5 with
  | 4 => decVector32m4 w
  | 5 => decVector32m5 w
  | 6 => decVector32m6 w
  | 7 => decVector32m7 w
  | 8 => decVector32m8 w
  | 9 =>
    if fld w 20 12 = 0 then some (.vineg (fld w 6 6) (vsrc (fld w 12 8)))
    else if fld w 20 12 = 1 then some (.vnot (fld w 6 6) (vsrc (fld w 12 8)))
    else if fld w 20 12 = 2 then some (.viabs (fld w 6 6) (vsrc (fld w 12 8)))
    else none
  | 10 => decVector32m10 w
  | 11 =>
    if fld w 28 4 = 0 then some (.vcvt (fld w 6 6) (vsrc (fld w 12 8)) (bit w 27) (fld w 24 3) (fld w 20 4))
    else none
  | 12 => decVector32m12 w
  | 13 => decVector32m13 w
  | 14 => decVector32m14 w
  | 15 => decVector32m15 w
  | 16 =>
    if fld w 24 8 = 0 then some (.vld (fld w 6 6) (fld w 12 4) (fld w 16 4) (fld w 20 4))
    else if fld w 24 1 = 1 ∧ fld w 26 6 = 0 then some (.vst (fld w 12 4) (fld w 16 4) (fld w 6 6) (bit w 25) (fld w 20 4))
    else none
  | 17 =>
    if fld w 28 4 = 0 then some (.vtld (fld w 6 6) (fld w 12 8) (fld w 20 4) (fld w 24 4))
    else if fld w 28 4 = 1 then some (.vtst (fld w 12 8) (fld w 20 4) (fld w 6 6) (fld w 24 4))
    else none
  | 18 =>
    if fld w 13 19 = 0 then some (.vpop (fld w 6 6) (fld w 12 1))
    else if fld w 13 19 = 1 then some (.vpush (fld w 6 6) (fld w 12 1))
    else none
  | 19 =>
    if fld w 19 13 = 0 then some (.vshape (fld w 6 5) (fld w 11 6) (fld w 17 2))
    else none
  | 20 =>
    if fld w 11 1 = 0 ∧ fld w 23 9 = 0 then some (.psetImm (fld w 6 3) (fld w 12 11) (fld w 9 2))
    else if fld w 11 1 = 1 ∧ fld w 16 16 = 0 then some (.psetK (fld w 6 3) (fld w 12 4) (fld w 9 2))
    else none
  | 21 => decVector32m21 w
  | 22 =>
    some (.kaddi (fld w 6 4) (fld w 10 4) (sgn 18 (fld w 14 18)))
  | 23 =>
    if fld w 20 12 = 0 then some (.vdefer (fld w 6 6) (fld w 12 8))
    else if fld w 15 17 = 32 then some (.vdrain (fld w 6 6) (fld w 12 3))
    else if fld w 12 20 = 512 then some (.vscatb (fld w 6 6))
    else none
  | _ => none

/-- The row a 16-bit word of stream `st` belongs to; majors 0 to 3 are common (R290). -/
def dec16 (st : Strm) (w : Nat) : Option Instr :=
  if fld w 1 4 < 4 then decCommon16 w
  else
    match st with
    | .c => decControl16 w
    | .m => decMatrix16 w
    | .v => decVector16 w
    | .y => decCopy16 w

/-- The row a 32-bit word of stream `st` belongs to; majors 0 to 3 are common (R291). -/
def dec32 (st : Strm) (w : Nat) : Option Instr :=
  if fld w 1 5 < 4 then decCommon32 w
  else
    match st with
    | .c => decControl32 w
    | .m => decMatrix32 w
    | .v => decVector32 w
    | .y => decCopy32 w

/-- An instruction of the maps is taken only when every field is in range for the stream (R8, R296). -/
def checked (st : Strm) (i : Option Instr) (e : DecErr) : Except DecErr Instr :=
  match i with
  | some i => if i.wf st then .ok i else .error e
  | none => .error e

/-- The 32-bit word of four bytes (R277). -/
def word32 (b0 b1 b2 b3 : Byte) : Nat :=
  b0.toNat + b1.toNat * 2 ^ 8 + b2.toNat * 2 ^ 16 + b3.toNat * 2 ^ 24

/-- One extension word of `fork`, present when its stream is in the set (R340). -/
def takeExt (present : Bool) (bs : List Byte) : Except DecErr (Int × List Byte) :=
  match present, bs with
  | false, bs => .ok (0, bs)
  | true, b0 :: b1 :: b2 :: b3 :: rest => .ok (sgn 32 (word32 b0 b1 b2 b3), rest)
  | true, _ => .error .truncated

/-- `fork`: the word of major 24 and its extension words in the order m, v, y (Table 13-9, R340). -/
def decFork (w : Nat) (bs : List Byte) : Except DecErr (Instr × List Byte) :=
  if fld w 9 23 ≠ 0 then .error .reserved32
  else do
    let (om, bs) ← takeExt (bit w 6) bs
    let (ov, bs) ← takeExt (bit w 7) bs
    let (oy, bs) ← takeExt (bit w 8) bs
    let i ← checked .c (some (.fork (fld w 6 3) om ov oy)) .reserved32
    .ok (i, bs)

/-- One instruction word of stream `st` from the front of the bytes, and the bytes behind it. -/
def decode (st : Strm) (bs : List Byte) : Except DecErr (Instr × List Byte) :=
  match bs with
  | b0 :: b1 :: rest =>
    if b0.toNat % 2 = 0 then do
      let i ← checked st (dec16 st (b0.toNat + b1.toNat * 2 ^ 8)) .reserved16
      .ok (i, rest)
    else
      match rest with
      | b2 :: b3 :: rest =>
        if st = .c ∧ fld (word32 b0 b1 b2 b3) 1 5 = 24 then decFork (word32 b0 b1 b2 b3) rest
        else do
          let i ← checked st (dec32 st (word32 b0 b1 b2 b3)) .reserved32
          .ok (i, rest)
      | _ => .error .truncated
  | _ => .error .truncated

/-! ### The encoder -/

/-- Width and value of an instruction's word; the event rows have none. -/
def encWord (i : Instr) : Option (Nat × Nat) :=
  match i with
  | .blk cnt len => some (32, 0x00000001 + cnt * 262144 + len * 64)
  | .wait n => some (16, 0x0000 + n * 32)
  | .endS => some (16, 0x0002)
  | .brk imm => some (16, 0x1002 + imm * 32)
  | .eret => some (16, 0x2002)
  | .halt => some (16, 0x3002)
  | .rdv => some (16, 0x4002)
  | .ret => some (16, 0x5002)
  | .svc imm => some (16, 0x0006 + imm * 32)
  | .syncPrefix push wset gen slot sense => some (16, 0x0004 + push * 8192 + wset * 1024 + b2n gen * 512 + slot * 64 + b2n sense * 32)
  | .br off => some (32, 0x00000003 + uns 25 off * 128)
  | .bg slot sense off => some (32, 0x00000043 + slot * 128 + b2n sense * 1024 + uns 21 off * 2048)
  | .rpt g step mask n => some (32, 0x00000005 + b2n g * 1048576 + step * 65536 + mask * 4096 + n * 64)
  | .csrr reg csr => some (32, 0x00000007 + reg * 512 + csr * 16384)
  | .csrw csr reg => some (32, 0x00000047 + csr * 16384 + reg * 512)
  | .csrwi csr imm => some (32, 0x00000087 + csr * 16384 + imm * 16777216)
  | .sigc => some (32, 0x000000C7)
  | .dstc ga gb gc => some (32, 0x00000107 + ga * 512 + gb * 16384 + gc * 524288)
  | .dstcSram ga gb gc => some (32, 0x01000107 + ga * 512 + gb * 16384 + gc * 524288)
  | .gsetImm slot val => some (16, 0x0008 + slot * 32 + b2n val * 256)
  | .gclr slot => some (16, 0x0208 + slot * 32)
  | .mov gd ga => some (16, 0x000A + gd * 32 + ga * 1024)
  | .add gd ga gb => some (32, 0x00000009 + gd * 64 + ga * 2048 + gb * 65536)
  | .sub gd ga gb => some (32, 0x00200009 + gd * 64 + ga * 2048 + gb * 65536)
  | .and gd ga gb => some (32, 0x00400009 + gd * 64 + ga * 2048 + gb * 65536)
  | .or gd ga gb => some (32, 0x00600009 + gd * 64 + ga * 2048 + gb * 65536)
  | .xor gd ga gb => some (32, 0x00800009 + gd * 64 + ga * 2048 + gb * 65536)
  | .shl gd ga gb => some (32, 0x00A00009 + gd * 64 + ga * 2048 + gb * 65536)
  | .shr gd ga gb => some (32, 0x00C00009 + gd * 64 + ga * 2048 + gb * 65536)
  | .sar gd ga gb => some (32, 0x00E00009 + gd * 64 + ga * 2048 + gb * 65536)
  | .mul gd ga gb => some (32, 0x01000009 + gd * 64 + ga * 2048 + gb * 65536)
  | .mulh gd ga gb => some (32, 0x01200009 + gd * 64 + ga * 2048 + gb * 65536)
  | .mulhu gd ga gb => some (32, 0x01400009 + gd * 64 + ga * 2048 + gb * 65536)
  | .div gd ga gb => some (32, 0x01600009 + gd * 64 + ga * 2048 + gb * 65536)
  | .divu gd ga gb => some (32, 0x01800009 + gd * 64 + ga * 2048 + gb * 65536)
  | .rem gd ga gb => some (32, 0x01A00009 + gd * 64 + ga * 2048 + gb * 65536)
  | .remu gd ga gb => some (32, 0x01C00009 + gd * 64 + ga * 2048 + gb * 65536)
  | .min gd ga gb => some (32, 0x01E00009 + gd * 64 + ga * 2048 + gb * 65536)
  | .max gd ga gb => some (32, 0x02000009 + gd * 64 + ga * 2048 + gb * 65536)
  | .minu gd ga gb => some (32, 0x02200009 + gd * 64 + ga * 2048 + gb * 65536)
  | .maxu gd ga gb => some (32, 0x02400009 + gd * 64 + ga * 2048 + gb * 65536)
  | .slt gd ga gb => some (32, 0x02600009 + gd * 64 + ga * 2048 + gb * 65536)
  | .sltu gd ga gb => some (32, 0x02800009 + gd * 64 + ga * 2048 + gb * 65536)
  | .seq gd ga gb => some (32, 0x02A00009 + gd * 64 + ga * 2048 + gb * 65536)
  | .sne gd ga gb => some (32, 0x02C00009 + gd * 64 + ga * 2048 + gb * 65536)
  | .sel gd ga gb => some (32, 0x02E00009 + gd * 64 + ga * 2048 + gb * 65536)
  | .addi gd ga imm => some (32, 0x0000000B + gd * 64 + ga * 2048 + uns 16 imm * 65536)
  | .slti gd ga imm => some (32, 0x0000000D + gd * 64 + ga * 2048 + uns 16 imm * 65536)
  | .andi gd ga imm => some (32, 0x0000000F + gd * 64 + ga * 2048 + imm * 65536)
  | .ori gd ga imm => some (32, 0x00000011 + gd * 64 + ga * 2048 + imm * 65536)
  | .xori gd ga imm => some (32, 0x00000013 + gd * 64 + ga * 2048 + imm * 65536)
  | .shli gd ga n => some (32, 0x00000015 + gd * 64 + ga * 2048 + n * 65536)
  | .shri gd ga n => some (32, 0x00400015 + gd * 64 + ga * 2048 + n * 65536)
  | .sari gd ga n => some (32, 0x00800015 + gd * 64 + ga * 2048 + n * 65536)
  | .li gd imm hw => some (32, 0x00000017 + gd * 64 + imm * 65536 + hw * 2048)
  | .lik gd imm hw => some (32, 0x00002017 + gd * 64 + imm * 65536 + hw * 2048)
  | .ld gd gb off sx lsz cls => some (32, 0x00000019 + gd * 64 + gb * 2048 + uns 9 off * 8388608 + b2n sx * 4194304 + lsz * 1048576 + cls * 65536)
  | .st gb gs off glob lsz cls => some (32, 0x0000001B + gb * 2048 + gs * 64 + uns 9 off * 8388608 + b2n glob * 4194304 + lsz * 1048576 + cls * 65536)
  | .ldAcq gd gb scope sx lsz cls => some (32, 0x0000001D + gd * 64 + gb * 2048 + scope * 16777216 + b2n sx * 4194304 + lsz * 1048576 + cls * 65536)
  | .stRel gb gs scope glob lsz cls => some (32, 0x0080001D + gb * 2048 + gs * 64 + scope * 16777216 + b2n glob * 4194304 + lsz * 1048576 + cls * 65536)
  | .amoadd gd gb gs scope form cls => some (32, 0x0000001F + gd * 64 + gb * 2048 + gs * 65536 + scope * 536870912 + form * 134217728 + cls * 2097152)
  | .amoand gd gb gs scope form cls => some (32, 0x0200001F + gd * 64 + gb * 2048 + gs * 65536 + scope * 536870912 + form * 134217728 + cls * 2097152)
  | .amoor gd gb gs scope form cls => some (32, 0x0400001F + gd * 64 + gb * 2048 + gs * 65536 + scope * 536870912 + form * 134217728 + cls * 2097152)
  | .amoxor gd gb gs scope form cls => some (32, 0x0600001F + gd * 64 + gb * 2048 + gs * 65536 + scope * 536870912 + form * 134217728 + cls * 2097152)
  | .amomin gd gb gs scope form cls => some (32, 0x00000021 + gd * 64 + gb * 2048 + gs * 65536 + scope * 536870912 + form * 134217728 + cls * 2097152)
  | .amomax gd gb gs scope form cls => some (32, 0x02000021 + gd * 64 + gb * 2048 + gs * 65536 + scope * 536870912 + form * 134217728 + cls * 2097152)
  | .amoswp gd gb gs scope form cls => some (32, 0x04000021 + gd * 64 + gb * 2048 + gs * 65536 + scope * 536870912 + form * 134217728 + cls * 2097152)
  | .cas gd gb gs scope form cls => some (32, 0x06000021 + gd * 64 + gb * 2048 + gs * 65536 + scope * 536870912 + form * 134217728 + cls * 2097152)
  | .wadd gb gs f64 cls => some (32, 0x00000023 + gb * 2048 + gs * 65536 + b2n f64 * 67108864 + cls * 2097152)
  | .cread gd gb f64 cls => some (32, 0x02000023 + gd * 64 + gb * 2048 + b2n f64 * 67108864 + cls * 2097152)
  | .fence scope mask => some (32, 0x00000025 + scope * 4194304 + mask * 64)
  | .spill gf gb n glob cls => some (32, 0x00000027 + gf * 64 + gb * 2048 + n * 1048576 + b2n glob * 67108864 + cls * 65536)
  | .fill gf gb n cls => some (32, 0x02000027 + gf * 64 + gb * 2048 + n * 1048576 + cls * 65536)
  | .pf gb off cls => some (32, 0x00000029 + gb * 2048 + uns 12 off * 1048576 + cls * 65536)
  | .bz ga off => some (32, 0x0000002B + ga * 64 + uns 20 off * 4096)
  | .bnz ga off => some (32, 0x0000082B + ga * 64 + uns 20 off * 4096)
  | .call off => some (32, 0x0000002D + uns 26 off * 64)
  | .jt ga gb n => some (32, 0x0000002F + ga * 64 + gb * 2048 + n * 65536)
  | .fork set _ _ _ => some (32, 0x00000031 + set * 64)
  | .talloc h ga gb => some (32, 0x00000033 + h * 64 + ga * 32768 + gb * 1048576)
  | .tfree h => some (32, 0x00004033 + h * 64)
  | .dld dn gr cls => some (32, 0x00000035 + dn * 64 + gr * 8192 + cls * 16777216)
  | .dset dn gr field => some (32, 0x00000435 + dn * 64 + gr * 8192 + field * 262144)
  | .dget gr dn field => some (32, 0x00000835 + gr * 8192 + dn * 64 + field * 262144)
  | .dst gr dn glob cls => some (32, 0x00000C35 + gr * 8192 + dn * 64 + b2n glob * 8388608 + cls * 16777216)
  | .gsetReg ga slot => some (32, 0x00000037 + ga * 512 + slot * 64)
  | .qdepth gd qn oper kind => some (32, 0x00000039 + gd * 64 + qn * 16384 + b2n oper * 8192 + kind * 2048)
  | .tsig ga => some (32, 0x0000003B + ga * 64)
  | .mzero acc pair => some (16, 0x0008 + acc * 32 + b2n pair * 128)
  | .astc acc => some (16, 0x000A + acc * 32)
  | .mma acc da db z cls => some (32, 0x00000009 + acc * 64 + da * 256 + db * 4096 + b2n z * 268435456 + cls * 16777216)
  | .mmaRange acc da db os oc z cls => some (32, 0x20000009 + acc * 64 + da * 256 + db * 4096 + os * 65536 + oc * 1048576 + b2n z * 268435456 + cls * 16777216)
  | .mdrain dn acc ro rnd glob cls => some (32, 0x0000000B + dn * 256 + acc * 64 + ro * 4096 + rnd * 65536 + b2n glob * 4194304 + cls * 262144)
  | .mdraint h acc ro rnd fmt cls => some (32, 0x0000000D + h * 256 + acc * 64 + ro * 65536 + rnd * 1048576 + fmt * 4194304 + cls * 67108864)
  | .mld acc h ro cls => some (32, 0x0000000F + acc * 64 + h * 256 + ro * 65536 + cls * 1048576)
  | .wq acc dq dw os cls => some (32, 0x00000011 + acc * 64 + dq * 256 + dw * 4096 + os * 65536 + cls * 1048576)
  | .oadd od oa ob => some (32, 0x00000013 + od * 64 + oa * 1024 + ob * 16384)
  | .osub od oa ob => some (32, 0x00040013 + od * 64 + oa * 1024 + ob * 16384)
  | .omul od oa ob => some (32, 0x00080013 + od * 64 + oa * 1024 + ob * 16384)
  | .oand od oa ob => some (32, 0x000C0013 + od * 64 + oa * 1024 + ob * 16384)
  | .oshl od oa ob => some (32, 0x00100013 + od * 64 + oa * 1024 + ob * 16384)
  | .oshr od oa ob => some (32, 0x00140013 + od * 64 + oa * 1024 + ob * 16384)
  | .omin od oa ob => some (32, 0x00180013 + od * 64 + oa * 1024 + ob * 16384)
  | .omax od oa ob => some (32, 0x001C0013 + od * 64 + oa * 1024 + ob * 16384)
  | .oaddi od oa imm => some (32, 0x00000015 + od * 64 + oa * 1024 + uns 18 imm * 16384)
  | .oli od imm => some (32, 0x00000017 + od * 64 + uns 22 imm * 1024)
  | .qpop h pr qn => some (32, 0x00000019 + h * 64 + pr * 16384 + qn * 131072)
  | .qpush h pr qn => some (32, 0x00040019 + h * 64 + pr * 16384 + qn * 131072)
  | .barm ro bar => some (16, 0x0008 + ro * 256 + bar * 32)
  | .bwait bar => some (16, 0x1008 + bar * 32)
  | .cpyTensorTile h dn pr cnt bar cls => some (32, 0x00000009 + h * 64 + dn * 16384 + pr * 262144 + b2n cnt * 268435456 + bar * 33554432 + cls * 2097152)
  | .cpyTileTensor dn h pr glob cnt bar cls => some (32, 0x0000000B + dn * 16384 + h * 64 + pr * 262144 + b2n glob * 536870912 + b2n cnt * 268435456 + bar * 33554432 +
      cls * 2097152)
  | .cpyTensorTensor dd ds pr glob cnt bar cls => some (32, 0x0000000D + dd * 64 + ds * 1024 + pr * 16384 + b2n glob * 33554432 + b2n cnt * 16777216 + bar * 2097152 +
      cls * 131072)
  | .cpyTileTile hd hs pr cls => some (32, 0x0000000F + hd * 64 + hs * 16384 + pr * 4194304 + cls * 33554432)
  | .cpys dd ds pr dg cls => some (32, 0x00000011 + dd * 64 + ds * 1024 + pr * 16384 + dg * 2097152 + cls * 131072)
  | .cpf dn pr cls => some (32, 0x0000001B + dn * 64 + pr * 1024 + cls * 8192)
  | .wld dw ds pr cls => some (32, 0x0000001D + dw * 64 + ds * 1024 + pr * 16384 + cls * 131072)
  | .rput dd ds pr cnt bar cls => some (32, 0x0000001F + dd * 64 + ds * 1024 + pr * 16384 + b2n cnt * 33554432 + bar * 4194304 + cls * 131072)
  | .rget dd ds pr cnt bar cls => some (32, 0x0020001F + dd * 64 + ds * 1024 + pr * 16384 + b2n cnt * 33554432 + bar * 4194304 + cls * 131072)
  | .vmode exposed => some (16, 0x0008 + b2n exposed * 32)
  | .vadd vd va vb => some (32, 0x00000009 + vd * 64 + va.enc * 4096 + vb.enc * 1048576)
  | .vsub vd va vb => some (32, 0x10000009 + vd * 64 + va.enc * 4096 + vb.enc * 1048576)
  | .vmul vd va vb => some (32, 0x20000009 + vd * 64 + va.enc * 4096 + vb.enc * 1048576)
  | .vfma vd va vb => some (32, 0x30000009 + vd * 64 + va.enc * 4096 + vb.enc * 1048576)
  | .vdiv vd va vb => some (32, 0x40000009 + vd * 64 + va.enc * 4096 + vb.enc * 1048576)
  | .vmin vd va vb => some (32, 0x50000009 + vd * 64 + va.enc * 4096 + vb.enc * 1048576)
  | .vmax vd va vb => some (32, 0x60000009 + vd * 64 + va.enc * 4096 + vb.enc * 1048576)
  | .vrcp vd va => some (32, 0x0000000B + vd * 64 + va.enc * 4096)
  | .vsqrt vd va => some (32, 0x0010000B + vd * 64 + va.enc * 4096)
  | .vrsqrt vd va => some (32, 0x0020000B + vd * 64 + va.enc * 4096)
  | .vexp2 vd va => some (32, 0x0030000B + vd * 64 + va.enc * 4096)
  | .vlog2 vd va => some (32, 0x0040000B + vd * 64 + va.enc * 4096)
  | .vsin vd va => some (32, 0x0050000B + vd * 64 + va.enc * 4096)
  | .vcos vd va => some (32, 0x0060000B + vd * 64 + va.enc * 4096)
  | .vtanh vd va => some (32, 0x0070000B + vd * 64 + va.enc * 4096)
  | .vsigm vd va => some (32, 0x0080000B + vd * 64 + va.enc * 4096)
  | .vneg vd va => some (32, 0x0090000B + vd * 64 + va.enc * 4096)
  | .vabs vd va => some (32, 0x00A0000B + vd * 64 + va.enc * 4096)
  | .vaddF16 vd va vb => some (32, 0x0000000D + vd * 64 + va.enc * 4096 + vb.enc * 1048576)
  | .vsubF16 vd va vb => some (32, 0x1000000D + vd * 64 + va.enc * 4096 + vb.enc * 1048576)
  | .vmulF16 vd va vb => some (32, 0x2000000D + vd * 64 + va.enc * 4096 + vb.enc * 1048576)
  | .vfmaF16 vd va vb => some (32, 0x3000000D + vd * 64 + va.enc * 4096 + vb.enc * 1048576)
  | .vminF16 vd va vb => some (32, 0x4000000D + vd * 64 + va.enc * 4096 + vb.enc * 1048576)
  | .vmaxF16 vd va vb => some (32, 0x5000000D + vd * 64 + va.enc * 4096 + vb.enc * 1048576)
  | .vaddBf16 vd va vb => some (32, 0x0000000F + vd * 64 + va.enc * 4096 + vb.enc * 1048576)
  | .vsubBf16 vd va vb => some (32, 0x1000000F + vd * 64 + va.enc * 4096 + vb.enc * 1048576)
  | .vmulBf16 vd va vb => some (32, 0x2000000F + vd * 64 + va.enc * 4096 + vb.enc * 1048576)
  | .vfmaBf16 vd va vb => some (32, 0x3000000F + vd * 64 + va.enc * 4096 + vb.enc * 1048576)
  | .vminBf16 vd va vb => some (32, 0x4000000F + vd * 64 + va.enc * 4096 + vb.enc * 1048576)
  | .vmaxBf16 vd va vb => some (32, 0x5000000F + vd * 64 + va.enc * 4096 + vb.enc * 1048576)
  | .viadd vd va vb => some (32, 0x00000011 + vd * 64 + va.enc * 4096 + vb.enc * 1048576)
  | .visub vd va vb => some (32, 0x10000011 + vd * 64 + va.enc * 4096 + vb.enc * 1048576)
  | .vimul vd va vb => some (32, 0x20000011 + vd * 64 + va.enc * 4096 + vb.enc * 1048576)
  | .vimad vd va vb => some (32, 0x30000011 + vd * 64 + va.enc * 4096 + vb.enc * 1048576)
  | .vand vd va vb => some (32, 0x40000011 + vd * 64 + va.enc * 4096 + vb.enc * 1048576)
  | .vor vd va vb => some (32, 0x50000011 + vd * 64 + va.enc * 4096 + vb.enc * 1048576)
  | .vxor vd va vb => some (32, 0x60000011 + vd * 64 + va.enc * 4096 + vb.enc * 1048576)
  | .vshl vd va vb => some (32, 0x70000011 + vd * 64 + va.enc * 4096 + vb.enc * 1048576)
  | .vshr vd va vb => some (32, 0x80000011 + vd * 64 + va.enc * 4096 + vb.enc * 1048576)
  | .vsar vd va vb => some (32, 0x90000011 + vd * 64 + va.enc * 4096 + vb.enc * 1048576)
  | .vimin vd va vb => some (32, 0xA0000011 + vd * 64 + va.enc * 4096 + vb.enc * 1048576)
  | .vimax vd va vb => some (32, 0xB0000011 + vd * 64 + va.enc * 4096 + vb.enc * 1048576)
  | .viadds vd va vb => some (32, 0xC0000011 + vd * 64 + va.enc * 4096 + vb.enc * 1048576)
  | .visubs vd va vb => some (32, 0xD0000011 + vd * 64 + va.enc * 4096 + vb.enc * 1048576)
  | .vimulh vd va vb => some (32, 0xE0000011 + vd * 64 + va.enc * 4096 + vb.enc * 1048576)
  | .vineg vd va => some (32, 0x00000013 + vd * 64 + va.enc * 4096)
  | .vnot vd va => some (32, 0x00100013 + vd * 64 + va.enc * 4096)
  | .viabs vd va => some (32, 0x00200013 + vd * 64 + va.enc * 4096)
  | .vfeq vd va vb => some (32, 0x00000015 + vd * 64 + va.enc * 4096 + vb.enc * 1048576)
  | .vfne vd va vb => some (32, 0x10000015 + vd * 64 + va.enc * 4096 + vb.enc * 1048576)
  | .vflt vd va vb => some (32, 0x20000015 + vd * 64 + va.enc * 4096 + vb.enc * 1048576)
  | .vfle vd va vb => some (32, 0x30000015 + vd * 64 + va.enc * 4096 + vb.enc * 1048576)
  | .vfslt vd va vb => some (32, 0x40000015 + vd * 64 + va.enc * 4096 + vb.enc * 1048576)
  | .vfsle vd va vb => some (32, 0x50000015 + vd * 64 + va.enc * 4096 + vb.enc * 1048576)
  | .vfun vd va vb => some (32, 0x60000015 + vd * 64 + va.enc * 4096 + vb.enc * 1048576)
  | .vieq vd va vb => some (32, 0x70000015 + vd * 64 + va.enc * 4096 + vb.enc * 1048576)
  | .vilt vd va vb => some (32, 0x80000015 + vd * 64 + va.enc * 4096 + vb.enc * 1048576)
  | .vile vd va vb => some (32, 0x90000015 + vd * 64 + va.enc * 4096 + vb.enc * 1048576)
  | .viltu vd va vb => some (32, 0xA0000015 + vd * 64 + va.enc * 4096 + vb.enc * 1048576)
  | .vileu vd va vb => some (32, 0xB0000015 + vd * 64 + va.enc * 4096 + vb.enc * 1048576)
  | .vsel vd va vb => some (32, 0xC0000015 + vd * 64 + va.enc * 4096 + vb.enc * 1048576)
  | .vcvt vd va rv rnd conv => some (32, 0x00000017 + vd * 64 + va.enc * 4096 + b2n rv * 134217728 + rnd * 16777216 + conv * 1048576)
  | .vpack vd va rv rnd fmt => some (32, 0x00000019 + vd * 64 + va.enc * 4096 + b2n rv * 134217728 + rnd * 16777216 + fmt * 1048576)
  | .vpackCb4 vd va dn rv rnd => some (32, 0x00200019 + vd * 64 + va.enc * 4096 + dn * 268435456 + b2n rv * 134217728 + rnd * 16777216)
  | .vunpack vd va rv rnd fmt => some (32, 0x00800019 + vd * 64 + va.enc * 4096 + b2n rv * 134217728 + rnd * 16777216 + fmt * 1048576)
  | .vunpackCb4 vd va dn rv rnd => some (32, 0x00A00019 + vd * 64 + va.enc * 4096 + dn * 268435456 + b2n rv * 134217728 + rnd * 16777216)
  | .vrsum vd va => some (32, 0x0000001B + vd * 64 + va.enc * 4096)
  | .vrmin vd va => some (32, 0x0010001B + vd * 64 + va.enc * 4096)
  | .vrmax vd va => some (32, 0x0020001B + vd * 64 + va.enc * 4096)
  | .virsum vd va => some (32, 0x0030001B + vd * 64 + va.enc * 4096)
  | .virmin vd va => some (32, 0x0040001B + vd * 64 + va.enc * 4096)
  | .virmax vd va => some (32, 0x0050001B + vd * 64 + va.enc * 4096)
  | .vrany va slot => some (32, 0x0060001B + va.enc * 4096 + slot * 16777216)
  | .vrall va slot => some (32, 0x0070001B + va.enc * 4096 + slot * 16777216)
  | .vmov vd va => some (32, 0x0000001D + vd * 64 + va.enc * 4096)
  | .vtrn vd va => some (32, 0x0010001D + vd * 64 + va.enc * 4096)
  | .vbce vd va km => some (32, 0x0020001D + vd * 64 + va.enc * 4096 + km * 16777216)
  | .vbck vd km => some (32, 0x0030001D + vd * 64 + km * 16777216)
  | .vext km va => some (32, 0x0040001D + km * 16777216 + va.enc * 4096)
  | .jseed vd va => some (32, 0x0000001F + vd * 64 + va.enc * 4096)
  | .jconst vd va => some (32, 0x0010001F + vd * 64 + va.enc * 4096)
  | .jget vd va n => some (32, 0x0020001F + vd * 64 + va.enc * 4096 + n * 16777216)
  | .jput vd va n => some (32, 0x0030001F + vd * 64 + va.enc * 4096 + n * 16777216)
  | .jdiff vd va => some (32, 0x0040001F + vd * 64 + va.enc * 4096)
  | .vld vd dn km cls => some (32, 0x00000021 + vd * 64 + dn * 4096 + km * 65536 + cls * 1048576)
  | .vst dn km va glob cls => some (32, 0x01000021 + dn * 4096 + km * 65536 + va * 64 + b2n glob * 33554432 + cls * 1048576)
  | .vtld vd h km cls => some (32, 0x00000023 + vd * 64 + h * 4096 + km * 1048576 + cls * 16777216)
  | .vtst h km va cls => some (32, 0x10000023 + h * 4096 + km * 1048576 + va * 64 + cls * 16777216)
  | .vpop vd qn => some (32, 0x00000025 + vd * 64 + qn * 4096)
  | .vpush va qn => some (32, 0x00002025 + va * 64 + qn * 4096)
  | .vshape rows cols w => some (32, 0x00000027 + rows * 64 + cols * 2048 + w * 131072)
  | .psetImm pn count w => some (32, 0x00000029 + pn * 64 + count * 4096 + w * 512)
  | .psetK pn km w => some (32, 0x00000829 + pn * 64 + km * 4096 + w * 512)
  | .kadd kd ka kb => some (32, 0x0000002B + kd * 64 + ka * 1024 + kb * 16384)
  | .ksub kd ka kb => some (32, 0x0004002B + kd * 64 + ka * 1024 + kb * 16384)
  | .kmul kd ka kb => some (32, 0x0008002B + kd * 64 + ka * 1024 + kb * 16384)
  | .kand kd ka kb => some (32, 0x000C002B + kd * 64 + ka * 1024 + kb * 16384)
  | .kor kd ka kb => some (32, 0x0010002B + kd * 64 + ka * 1024 + kb * 16384)
  | .kshl kd ka kb => some (32, 0x0014002B + kd * 64 + ka * 1024 + kb * 16384)
  | .kshr kd ka kb => some (32, 0x0018002B + kd * 64 + ka * 1024 + kb * 16384)
  | .kmin kd ka kb => some (32, 0x001C002B + kd * 64 + ka * 1024 + kb * 16384)
  | .kmax kd ka kb => some (32, 0x0020002B + kd * 64 + ka * 1024 + kb * 16384)
  | .kaddi kd ka imm => some (32, 0x0000002D + kd * 64 + ka * 1024 + uns 18 imm * 16384)
  | .vdefer va tag => some (32, 0x0000002F + va * 64 + tag * 4096)
  | .vdrain vd pn => some (32, 0x0010002F + vd * 64 + pn * 4096)
  | .vscatb va => some (32, 0x0020002F + va * 64)
  | .moduleColdReset => none
  | .converterFault .. => none
  | .railInjection .. => none
  | .railBeatArrival .. => none
  | .routerPowerGate .. => none
  | .routerWake .. => none
  | .railTelemetrySample .. => none
  | .coolantWrite .. => none
  | .powerControlInterval .. => none
  | .dieMarkedUnavailable .. => none
  | .dieUnavailableClear .. => none
  | .connectorMeasurement .. => none
  | .evtClear .. => none
  | .registerWrite .. => none
  | .expertClear .. => none
  | .homeTableWrite .. => none
  | .ffmapWrite .. => none
  | .ownershipWrite .. => none
  | .pctlWrite .. => none
  | .wwinWrite .. => none
  | .queueEnable .. => none
  | .queueDrain .. => none
  | .queueAbort .. => none
  | .pidxWrite .. => none
  | .cardFetch => none
  | .cardFetchDone => none
  | .cardFetchFault => none
  | .cheadWrite .. => none
  | .missSignal .. => none
  | .admissionRateRise .. => none
  | .translationWalkDone .. => none
  | .tlbinvPage .. => none
  | .tlbinvAsid .. => none
  | .tlbinvPartition .. => none
  | .tlbinvDone .. => none
  | .counterHalving .. => none
  | .migrationStart .. => none
  | .migrationCopyDone .. => none
  | .migrationAcksComplete .. => none
  | .firstTouchBind .. => none
  | .pullFetch => none
  | .pullFetchDone .. => none
  | .pullFailed => none
  | .escapeChannelSwitch .. => none
  | .drstGo .. => none
  | .quiesceStart => none
  | .quiesceDrainDone => none
  | .drainTimeout .. => none
  | .drstJoin .. => none
  | .linkFailure .. => none
  | .kMessage .. => none
  | .krMessage .. => none
  | .errorCompletion .. => none
  | .earlyStoreError .. => none
  | .schedulerStep => none
  | .budgetExhausted .. => none
  | .poolSliceEnd .. => none
  | .saveAreaRetry => none
  | .streamSave .. => none
  | .deadlock .. => none
  | .epochRelease .. => none
  | .epochFree .. => none
  | .dieRetire .. => none
  | .dieReturnToService .. => none
  | .scoreWrite .. => none
  | .registerFileScrub .. => none
  | .sramScrub .. => none
  | .hbmSweep .. => none
  | .historyRowVisit .. => none
  | .eccWriteback => none
  | .checkpoint .. => none
  | .restore .. => none
  | .firmwareLoad => none
  | .dieCheck .. => none
  | .moduleCheck .. => none
  | .mcstatClear => none
  | .dovetailBind .. => none
  | .dovetailDelivery .. => none
  | .dovetailArrival .. => none
  | .instructionDiscard .. => none
  | .resultLanding .. => none
  | .faultDelivery .. => none
  | .kStepCommit .. => none
  | .copyByteCommit .. => none
  | .s2Read .. => none
  | .s2aFill .. => none
  | .s3EarlyStore .. => none
  | .s4GlobalSend .. => none
  | .s5GlobalDone .. => none
  | .s6Fence .. => none
  | .globalAckTimeout .. => none
  | .h1PlaceEarly .. => none
  | .h2Propagate .. => none
  | .h3Hold .. => none
  | .h4Perform .. => none
  | .h5ServeFill .. => none
  | .v1Update .. => none
  | .v2Confirm .. => none
  | .v3Invalidate .. => none
  | .v4FillReply .. => none
  | .v5Propagated .. => none
  | .homeTableWriteComplete => none
  | .linkRejoin .. => none
  | .sealedSlotStart .. => none
  | .farEndAcknowledgement .. => none
  | .weightDieQueryResult .. => none
  | .interlockedCompletion .. => none

/-- The extension words of `fork`, one per stream of its set (R340). -/
def encExt (i : Instr) : List Byte :=
  match i with
  | .fork set om ov oy =>
    (if set % 2 = 1 then bytesOf (uns 32 om) 4 else []) ++
    (if set / 2 % 2 = 1 then bytesOf (uns 32 ov) 4 else []) ++
    (if set / 4 = 1 then bytesOf (uns 32 oy) 4 else [])
  | _ => []

/-- The bytes of an instruction, lowest address first (R277, R2); none for an event row. -/
def encode (i : Instr) : List Byte :=
  match encWord i with
  | some (n, w) => bytesOf w (n / 8) ++ encExt i
  | none => []

/-! ### Words of the opcode table without their stream

The opcode table gives a word and no stream, and one word can belong to a row of every stream (notes/assumptions/11.md). The choice made
here, of the streams that take the word, is the row that fixes most bits of it, then the order c, m, v, y. -/

/-- How many bits of its word a row of the opcode table fixes. -/
def Instr.fixedBits (i : Instr) : Nat :=
  match i with
  | .blk .. => 6
  | .wait .. => 5
  | .endS => 16
  | .brk .. => 9
  | .eret => 16
  | .halt => 16
  | .rdv => 16
  | .ret => 16
  | .svc .. => 5
  | .syncPrefix .. => 5
  | .br .. => 7
  | .bg .. => 7
  | .rpt .. => 17
  | .csrr .. => 17
  | .csrw .. => 17
  | .csrwi .. => 14
  | .sigc => 32
  | .dstc .. => 17
  | .dstcSram .. => 17
  | .gsetImm .. => 12
  | .gclr .. => 13
  | .mov .. => 6
  | .add .. => 17
  | .sub .. => 17
  | .and .. => 17
  | .or .. => 17
  | .xor .. => 17
  | .shl .. => 17
  | .shr .. => 17
  | .sar .. => 17
  | .mul .. => 17
  | .mulh .. => 17
  | .mulhu .. => 17
  | .div .. => 17
  | .divu .. => 17
  | .rem .. => 17
  | .remu .. => 17
  | .min .. => 17
  | .max .. => 17
  | .minu .. => 17
  | .maxu .. => 17
  | .slt .. => 17
  | .sltu .. => 17
  | .seq .. => 17
  | .sne .. => 17
  | .sel .. => 17
  | .addi .. => 6
  | .slti .. => 6
  | .andi .. => 6
  | .ori .. => 6
  | .xori .. => 6
  | .shli .. => 16
  | .shri .. => 16
  | .sari .. => 16
  | .li .. => 9
  | .lik .. => 9
  | .ld .. => 6
  | .st .. => 6
  | .ldAcq .. => 12
  | .stRel .. => 12
  | .amoadd .. => 8
  | .amoand .. => 8
  | .amoor .. => 8
  | .amoxor .. => 8
  | .amomin .. => 8
  | .amomax .. => 8
  | .amoswp .. => 8
  | .cas .. => 8
  | .wadd .. => 17
  | .cread .. => 17
  | .fence .. => 13
  | .spill .. => 12
  | .fill .. => 13
  | .pf .. => 11
  | .bz .. => 7
  | .bnz .. => 7
  | .call .. => 6
  | .jt .. => 6
  | .fork .. => 29
  | .talloc .. => 14
  | .tfree .. => 24
  | .dld .. => 19
  | .dset .. => 19
  | .dget .. => 19
  | .dst .. => 18
  | .gsetReg .. => 24
  | .qdepth .. => 23
  | .tsig .. => 27
  | .mzero .. => 13
  | .astc .. => 14
  | .mma .. => 17
  | .mmaRange .. => 9
  | .mdrain .. => 15
  | .mdraint .. => 8
  | .mld .. => 14
  | .wq .. => 14
  | .oadd .. => 20
  | .osub .. => 20
  | .omul .. => 20
  | .oand .. => 20
  | .oshl .. => 20
  | .oshr .. => 20
  | .omin .. => 20
  | .omax .. => 20
  | .oaddi .. => 6
  | .oli .. => 6
  | .qpop .. => 20
  | .qpush .. => 20
  | .barm .. => 9
  | .bwait .. => 13
  | .cpyTensorTile .. => 9
  | .cpyTileTensor .. => 8
  | .cpyTensorTensor .. => 12
  | .cpyTileTile .. => 9
  | .cpys .. => 13
  | .cpf .. => 21
  | .wld .. => 17
  | .rput .. => 13
  | .rget .. => 13
  | .vmode .. => 15
  | .vadd .. => 10
  | .vsub .. => 10
  | .vmul .. => 10
  | .vfma .. => 10
  | .vdiv .. => 10
  | .vmin .. => 10
  | .vmax .. => 10
  | .vrcp .. => 18
  | .vsqrt .. => 18
  | .vrsqrt .. => 18
  | .vexp2 .. => 18
  | .vlog2 .. => 18
  | .vsin .. => 18
  | .vcos .. => 18
  | .vtanh .. => 18
  | .vsigm .. => 18
  | .vneg .. => 18
  | .vabs .. => 18
  | .vaddF16 .. => 10
  | .vsubF16 .. => 10
  | .vmulF16 .. => 10
  | .vfmaF16 .. => 10
  | .vminF16 .. => 10
  | .vmaxF16 .. => 10
  | .vaddBf16 .. => 10
  | .vsubBf16 .. => 10
  | .vmulBf16 .. => 10
  | .vfmaBf16 .. => 10
  | .vminBf16 .. => 10
  | .vmaxBf16 .. => 10
  | .viadd .. => 10
  | .visub .. => 10
  | .vimul .. => 10
  | .vimad .. => 10
  | .vand .. => 10
  | .vor .. => 10
  | .vxor .. => 10
  | .vshl .. => 10
  | .vshr .. => 10
  | .vsar .. => 10
  | .vimin .. => 10
  | .vimax .. => 10
  | .viadds .. => 10
  | .visubs .. => 10
  | .vimulh .. => 10
  | .vineg .. => 18
  | .vnot .. => 18
  | .viabs .. => 18
  | .vfeq .. => 10
  | .vfne .. => 10
  | .vflt .. => 10
  | .vfle .. => 10
  | .vfslt .. => 10
  | .vfsle .. => 10
  | .vfun .. => 10
  | .vieq .. => 10
  | .vilt .. => 10
  | .vile .. => 10
  | .viltu .. => 10
  | .vileu .. => 10
  | .vsel .. => 10
  | .vcvt .. => 10
  | .vpack .. => 11
  | .vpackCb4 .. => 10
  | .vunpack .. => 11
  | .vunpackCb4 .. => 10
  | .vrsum .. => 18
  | .vrmin .. => 18
  | .vrmax .. => 18
  | .virsum .. => 18
  | .virmin .. => 18
  | .virmax .. => 18
  | .vrany .. => 21
  | .vrall .. => 21
  | .vmov .. => 18
  | .vtrn .. => 18
  | .vbce .. => 14
  | .vbck .. => 22
  | .vext .. => 20
  | .jseed .. => 18
  | .jconst .. => 18
  | .jget .. => 15
  | .jput .. => 15
  | .jdiff .. => 18
  | .vld .. => 14
  | .vst .. => 13
  | .vtld .. => 10
  | .vtst .. => 10
  | .vpop .. => 25
  | .vpush .. => 25
  | .vshape .. => 19
  | .psetImm .. => 16
  | .psetK .. => 23
  | .kadd .. => 20
  | .ksub .. => 20
  | .kmul .. => 20
  | .kand .. => 20
  | .kor .. => 20
  | .kshl .. => 20
  | .kshr .. => 20
  | .kmin .. => 20
  | .kmax .. => 20
  | .kaddi .. => 6
  | .vdefer .. => 18
  | .vdrain .. => 23
  | .vscatb .. => 26
  | .moduleColdReset => 0
  | .converterFault .. => 0
  | .railInjection .. => 0
  | .railBeatArrival .. => 0
  | .routerPowerGate .. => 0
  | .routerWake .. => 0
  | .railTelemetrySample .. => 0
  | .coolantWrite .. => 0
  | .powerControlInterval .. => 0
  | .dieMarkedUnavailable .. => 0
  | .dieUnavailableClear .. => 0
  | .connectorMeasurement .. => 0
  | .evtClear .. => 0
  | .registerWrite .. => 0
  | .expertClear .. => 0
  | .homeTableWrite .. => 0
  | .ffmapWrite .. => 0
  | .ownershipWrite .. => 0
  | .pctlWrite .. => 0
  | .wwinWrite .. => 0
  | .queueEnable .. => 0
  | .queueDrain .. => 0
  | .queueAbort .. => 0
  | .pidxWrite .. => 0
  | .cardFetch => 0
  | .cardFetchDone => 0
  | .cardFetchFault => 0
  | .cheadWrite .. => 0
  | .missSignal .. => 0
  | .admissionRateRise .. => 0
  | .translationWalkDone .. => 0
  | .tlbinvPage .. => 0
  | .tlbinvAsid .. => 0
  | .tlbinvPartition .. => 0
  | .tlbinvDone .. => 0
  | .counterHalving .. => 0
  | .migrationStart .. => 0
  | .migrationCopyDone .. => 0
  | .migrationAcksComplete .. => 0
  | .firstTouchBind .. => 0
  | .pullFetch => 0
  | .pullFetchDone .. => 0
  | .pullFailed => 0
  | .escapeChannelSwitch .. => 0
  | .drstGo .. => 0
  | .quiesceStart => 0
  | .quiesceDrainDone => 0
  | .drainTimeout .. => 0
  | .drstJoin .. => 0
  | .linkFailure .. => 0
  | .kMessage .. => 0
  | .krMessage .. => 0
  | .errorCompletion .. => 0
  | .earlyStoreError .. => 0
  | .schedulerStep => 0
  | .budgetExhausted .. => 0
  | .poolSliceEnd .. => 0
  | .saveAreaRetry => 0
  | .streamSave .. => 0
  | .deadlock .. => 0
  | .epochRelease .. => 0
  | .epochFree .. => 0
  | .dieRetire .. => 0
  | .dieReturnToService .. => 0
  | .scoreWrite .. => 0
  | .registerFileScrub .. => 0
  | .sramScrub .. => 0
  | .hbmSweep .. => 0
  | .historyRowVisit .. => 0
  | .eccWriteback => 0
  | .checkpoint .. => 0
  | .restore .. => 0
  | .firmwareLoad => 0
  | .dieCheck .. => 0
  | .moduleCheck .. => 0
  | .mcstatClear => 0
  | .dovetailBind .. => 0
  | .dovetailDelivery .. => 0
  | .dovetailArrival .. => 0
  | .instructionDiscard .. => 0
  | .resultLanding .. => 0
  | .faultDelivery .. => 0
  | .kStepCommit .. => 0
  | .copyByteCommit .. => 0
  | .s2Read .. => 0
  | .s2aFill .. => 0
  | .s3EarlyStore .. => 0
  | .s4GlobalSend .. => 0
  | .s5GlobalDone .. => 0
  | .s6Fence .. => 0
  | .globalAckTimeout .. => 0
  | .h1PlaceEarly .. => 0
  | .h2Propagate .. => 0
  | .h3Hold .. => 0
  | .h4Perform .. => 0
  | .h5ServeFill .. => 0
  | .v1Update .. => 0
  | .v2Confirm .. => 0
  | .v3Invalidate .. => 0
  | .v4FillReply .. => 0
  | .v5Propagated .. => 0
  | .homeTableWriteComplete => 0
  | .linkRejoin .. => 0
  | .sealedSlotStart .. => 0
  | .farEndAcknowledgement .. => 0
  | .weightDieQueryResult .. => 0
  | .interlockedCompletion .. => 0

/-- The bytes of a table word: nbits bits, then zeros up to the longest instruction (16 bytes, `fork`). -/
def tableBytes (nbits w : Nat) : List Byte := bytesOf (w % 2 ^ nbits) 16

/-- The instruction stream `st` reads from a table word. -/
def tableRead (nbits w : Nat) (st : Strm) : Option Instr :=
  match decode st (tableBytes nbits w) with
  | .ok (i, _) => some i
  | .error _ => none

/-- The better of two readings of one word: the one that fixes more bits, the first one on a tie. -/
def better (a b : Option (Strm × Instr)) : Option (Strm × Instr) :=
  match a, b with
  | none, b => b
  | a, none => a
  | some x, some y => if x.2.fixedBits < y.2.fixedBits then some y else some x

/-- The stream and instruction chosen for a table word. -/
def tableChoice (nbits w : Nat) : Option (Strm × Instr) :=
  [Strm.c, .m, .v, .y].foldl (fun acc st => better acc ((tableRead nbits w st).map fun i => (st, i))) none

/-- The instruction the decoder reads from a word of the opcode table. -/
def decodeTableWord (nbits w : Nat) : Option Instr := (tableChoice nbits w).map Prod.snd

end Sys2Proof
end

