-- ==== Sys2Proof/Config.lean ====
section
/-!
DEFINITION. Sys2Proof/Config.lean: what one module fixes (die counts, limits, time-outs) and the values that no rule gives.
-/

namespace Sys2Proof.Config

/-- Compute dies C00 to C15 (R11). -/
def computeDies : Nat := 16
/-- All dies: C00-C15, W00-W15, M0-M3, L0 in the order of R23. -/
def dies : Nat := 37
/-- Die index of memory die m (R23). -/
def memDie (m : Nat) : Nat := 32 + m
/-- Die index of L0 (R23). -/
def linkDie : Nat := 36
/-- Cores of one compute die (R5). -/
def coresPerDie : Nat := 16
/-- Home-table slots (R33). -/
def slots : Nat := 262144
/-- Frames of one memory die's HBM (R35). -/
def frames : Nat := 65536
/-- Cycles after which a global store's acknowledgement is lost (R180). -/
def ackTimeout : Nat := 2 ^ 24
/-- The deadlock interval in cycles (R96). -/
def deadlockInterval : Nat := 2 ^ 24
/-- Entries of the early-decrement table (R79). -/
def earlyEntries : Nat := 1024
/-- Edges one task can be the source of (R78). -/
def maxEdges : Nat := 256
/-- Tasks of one partition, and of the module, in flight (R76). -/
def maxPartTasks : Nat := 4096
/-- See `maxPartTasks`. -/
def maxTasks : Nat := 16384
/-- Records of one epoch (R108). -/
def epochRecords : Nat := 2048
/-- Save share of one context in bytes: 1,424 KiB (R251). -/
def saveShare : Nat := 1424 * 1024
/-- Level-0 capacity of a core: 1.5 MiB (Table 6-2). -/
def level0Bytes : Nat := 1536 * 1024
/-- Tile banks of a die: 24 MiB (Table 6-2). -/
def level1Bytes : Nat := 24 * 1024 * 1024
/-- Level-2 tiles of a memory die: 446 MiB (R32). -/
def level2Bytes : Nat := 446 * 1024 * 1024
/-- Containment buffer of a memory die: 64 MiB (R32). -/
def containBytes : Nat := 64 * 1024 * 1024
/-- Entries of a result or operand queue (R156). -/
def queueDepth : Nat := 8
/-- Instructions of the matrix engine's queue (R146). -/
def matQueue : Nat := 16
/-- Instructions of the copy engine's queue (R146). -/
def cpyQueue : Nat := 32
/-- Entries of a die's translation cache, and of its miss queue (R38). -/
def tlbEntries : Nat := 8192
/-- See `tlbEntries`. -/
def missEntries : Nat := 1024
/-- What a byte of device memory that nothing has written reads as (DESIGN CHOICE, notes/assumptions/2.md). -/
def powerOnByte : Byte := 0
/-- What a byte of host memory that nothing has written reads as (DESIGN CHOICE, notes/assumptions/3.md). -/
def hostPowerOnByte : Byte := 0

/-- Whether the boot loader's signature check accepts an image: the fused key is no part of the spec (R132; notes/assumptions/14.md). -/
opaque firmwareVerifies : List Byte → Bool

/-- Whether an access to host memory of a length at a bus address fails in a step: the host's own answer (R127, R133;
notes/assumptions/24.md). -/
opaque hostFaults : Nat → Nat → Nat → Bool

/-- A byte that a remote module returns for an `rget`, by access and place: an input from outside (R409; notes/assumptions/24.md). -/
opaque remoteByte : Nat → Nat → Byte

/-- How a remote copy ends at its far end: 4 when the transport fails, 5 when the module refuses, else it succeeds (R409;
notes/assumptions/24.md). -/
opaque remoteCode : Nat → Nat

/-- Flits that the input buffer of a virtual channel of a link holds, less one: no rule gives it (R13; notes/assumptions/87.md). -/
opaque linkFlits : Nat

/-- Scale-out address of the module, a RoCE v2 GID: no rule gives its value (Table 5-7; notes/assumptions/8.md). -/
opaque gid : BitVec 128

/-- Static power limit of a die in watts (R25). -/
def staticLimit (die : Nat) : Nat := if die < 16 then 190 else if die < 32 then 40 else if die < 36 then 90 else 150

/-- Wetted boiling area of a die in tenths of cm² (R25). -/
def boilingArea (die : Nat) : Nat := if die < 16 then 120 else if die < 32 then 40 else if die < 36 then 50 else 60

end Sys2Proof.Config
end

