-- ==== Sys2Proof/Machine/State.lean ====
section
/-!
DEFINITION. Sys2Proof/Machine/State.lean: the state of one Brondorok B9 module as plain data, the reasons a step can stop,
and the state after module cold reset (R7). INVENTORY.md lists every piece with the rule that names it and its reset value.

Sparse state is held in `AMap`s whose readers name the reset value of a key with no entry. A register that has no
entry holds its reset value.
-/

namespace Sys2Proof.Machine

/-! ## Streams -/

/-- A guard slot (R144). -/
inductive Guard where
  | unresolved
  | isFalse
  | isTrue
deriving DecidableEq, Repr

/-- State of a stream (R137); `ended` is the control stream after its `end` (R303). -/
inductive SStat where
  | idle
  | run
  | arrived
  | ended
deriving DecidableEq, Repr

/-- An open block: header address, length in halfwords, repetitions that remain with the current one (R283, R250). -/
structure Block where
  hdr : Nat
  len : Nat
  rem : Nat
deriving DecidableEq, Repr

/-- The sync prefix of the instruction at a stream's boundary and how far it has passed the points of R143. -/
structure Pfx where
  push : Nat
  wset : Nat
  gen : Bool
  slot : Nat
  sense : Bool
  taken : Bool
  decided : Bool
deriving DecidableEq, Repr

/-- The repeat prefix in force: fields of Table 13-6, the iteration, and the order sampled at the first iteration (R287, R235). -/
structure Rpt where
  g : Bool
  step : Nat
  mask : Nat
  n : Nat
  iter : Nat
  k : Option Nat
deriving DecidableEq, Repr

/-- What an access does (R167 to R187, R313). -/
inductive AccKind where
  /-- a read; `cell` marks a wide-cell read of 32 bytes (R186) -/
  | read
  /-- an early store (S3) -/
  | early
  /-- a global store (S4, S5) -/
  | global
  /-- an atomic: operation 0-7 in the order of R327, operand, expected value of `cas` -/
  | amo (op : Nat) (arg : Word) (expect : Word)
  /-- a wide-cell add of an FP32 or FP64 value (R185) -/
  | wadd (f64 : Bool) (val : Word)
  /-- a fence of a mask and scope (R176) -/
  | fence (mask : Nat) (scope : Nat)
  /-- a prefetch (R334, R408) -/
  | prefetch
  /-- the HBM form of the diagnostic store, with its check bits (R314) -/
  | dstc (check : BitVec 8)
  /-- an `rput` payload held for L0 (R409) -/
  | remote
  /-- a read of the tile of handle `h` (R378): its bytes are named by their index in the tile -/
  | tile (h : Nat)
deriving DecidableEq, Repr

/-- Where the data of an access goes when it has performed. -/
inductive Sink where
  | none
  /-- general register, size in bytes, sign extension (R324) -/
  | gReg (d : Nat) (size : Nat) (sx : Bool)
  /-- a cell read into a general register (R331) -/
  | gCell (d : Nat) (f64 : Bool)
  /-- the old value of an atomic (R327) -/
  | gOld (d : Nat)
  /-- tensor-table entry `entry` into shape register `d`; `ext` marks the second read of a CB4 entry (R347) -/
  | shape (d : Nat) (entry : Nat) (ext : Bool)
  /-- jump-table entry of `jt` at `pc` (R339) -/
  | jump (pc : Nat)
  /-- the decrement that a `tsig` sends when its fence leaves (R342) -/
  | tsig (tag : Nat)
  /-- the pending vector result with this landing number (R376) -/
  | land (tag : Nat)
  /-- data of the queue entry with this number (matrix and copy engines) -/
  | entry (q : Nat)
deriving DecidableEq, Repr

/-- The bytes of one access that lie in one 64-byte line (R168): (location, value) pairs in ascending address. -/
structure Part where
  line : Nat
  bytes : List (Nat × Byte)
deriving DecidableEq, Repr

/-- An access or fence in a class queue (R167, R170). -/
structure Access where
  id : Nat
  /-- the unretired instruction it belongs to, and its unit in it (a register of a spill or fill, R333) -/
  rob : Nat
  unit : Nat
  cls : Nat
  kind : AccKind
  /-- an acquire: later accesses of the stream wait for it (R178) -/
  acq : Bool
  /-- a released held record: later ones wait for it (R113) -/
  held : Bool
  /-- the parts not yet performed -/
  parts : List Part
  /-- lines whose GA is awaited (R168) -/
  wait : List Nat
  /-- the die's counter at issue (R73) and at S4 (R180) -/
  at_ : Nat
  sent : Option Nat
  /-- bytes read so far, in the order of the parts -/
  got : List (Nat × Byte)
  sink : Sink
  /-- VA and PC of the access, for a fault record (R240) -/
  va : Nat
  pc : Nat
  /-- error code met before the access could reach a home, or of a part that failed, 0 for none (R33, R180) -/
  err : Nat
  /-- single-copy atomic: all its bytes move at once (R168) -/
  single : Bool := false
deriving DecidableEq, Repr

/-- An effect that an instruction has when it retires: a guard write (R350), a write of HVEC, HSTAT or FRSEL by number (R310), a write of a
shape register, with the codebook extension if there is one (R151, R348), or the streams made IDLE by `rdv` (R138). -/
inductive RetEff where
  | guard (slot : Nat) (v : Guard)
  | csr (n : Nat) (v : Word)
  | shape (d : Nat) (w : BitVec 512) (ext : Option (BitVec 256))
  | idle
deriving DecidableEq, Repr

/-- An issued instruction that has not retired: its number, whether it has completed, its pushes and PC (R143, R174), and the
error code of a read that completed with one and waits for earlier instructions to retire (R437). -/
structure Rob where
  id : Nat
  done : Bool
  push : Nat
  pc : Nat
  err : Nat
  eff : List RetEff
  /-- the iteration it is, of a repeated vector instruction (R163, R164) -/
  iter : Option Nat := none
deriving DecidableEq, Repr

/-- A write error or a lost acknowledgement that has not been raised (R50, R181). -/
structure WErr where
  cls : Nat
  code : Nat
  va : Nat
deriving DecidableEq, Repr

/-- An early store that has not propagated at its issuing die: its identifier, class, VA and that die (R176, R436). -/
structure OutE where
  id : Nat
  cls : Nat
  va : Nat
  die : Nat
deriving DecidableEq, Repr

/-- One stream of a context. -/
structure StreamSt where
  stat : SStat := .idle
  /-- PC of the next instruction: its first word, prefixes included (R278) -/
  pc : Nat := 0
  /-- address of the next word to fetch: past the prefixes already issued -/
  fp : Nat := 0
  blocks : List Block := []
  pfx : Option Pfx := none
  rpt : Option Rpt := none
  /-- the guard of the instruction has been decided against it (R143) -/
  discard : Bool := false
  /-- the die's counter at which a `wait` ends; cycles that remain while the context is saved; 0 for none (R300) -/
  waitN : Nat := 0
  rob : List Rob := []
  /-- CQ(s, c) for every class c, in program order (R167) -/
  cq : List Access := []
  /-- OBS(s): early stores observed, with the class of the read (R167, R176) -/
  obs : List (Nat × Nat) := []
  /-- own early stores not yet propagated, with their class (R176) -/
  outE : List OutE := []
  /-- copy writes accepted by L0 and not acknowledged by the far end (Table 7-6) -/
  outR : List OutE := []
  /-- LOST(s) (R167) -/
  lost : BitVec 16 := 0
  /-- the lost stores behind LOST(s), oldest first (R181) -/
  lostVa : List WErr := []
  /-- write errors not yet raised (R50, R183) -/
  werr : List WErr := []
  /-- the stream has a fault or trap that waits for the handler (R241) -/
  faulted : Bool := false
  /-- a stop has been requested, and the stream has been saved (R246) -/
  stopReq : Bool := false
  saved : Bool := false
  /-- reads that completed with an error code and wait for their report or for `eret`, with their pushes (R437) -/
  redo : List (Access × Nat) := []
  /-- open signature word: CRC-64 of m, y and c streams, 16 accumulators of the v stream (R106, R107) -/
  crc : BitVec 64 := 0
  vacc : AMap Nat := []
  /-- open epoch number and its records (R108) -/
  epoch : Nat := 0
  recs : Nat := 0
  /-- the commit point of the instruction at the boundary has been made (R108, R109) -/
  committed : Bool := false
  /-- progress of the instruction at the boundary: registers of a spill or fill or rows of a `vst` issued before a fault (R333, R126), a
  binding made (R157), the table entry of a `jt` that has been read, plus 1 (R339) -/
  mpos : Nat := 0
deriving DecidableEq, Repr

/-- A fault record (R241, Table 11-2). -/
structure FaultRec where
  valid : Bool := false
  cause : Nat := 0
  st : Strm := .c
  impr : Bool := false
  err : Nat := 0
  cls : Nat := 0
  level : Nat := 0
  tkind : Nat := 0
  sub : Nat := 0
  entry : Nat := 0
  fva : Nat := 0
  pc : Nat := 0
  cpos : Nat := 0
  spos : Nat := 0
  /-- the step in which it became VALID (R244) -/
  since : Nat := 0
deriving DecidableEq, Repr

/-! ## Engines -/

/-- One write of a pending vector result. -/
inductive VWrite where
  /-- the bits of `mask` of a vector register (active elements, R356) -/
  | v (r : Nat) (mask val : VReg)
  | k (r : Nat) (val : Half)
  | p (r : Nat) (count width : Nat)
  | g (slot : Nat) (val : Bool)
  /-- the scatter list of a `vdrain` (R385) -/
  | scatter (l : List (Nat × Nat × Nat))
deriving DecidableEq, Repr

/-- A pending vector result: landing slot in exposed mode, the access it waits for, its writes and flags (R160, R162, R237). -/
structure Landing where
  tag : Nat
  slot : Option Nat
  ready : Bool
  writes : List VWrite
  flags : Half
  /-- element layout of a `vld` that waits: destination, (location list of an element) in order, element bytes -/
  elems : List (Nat × List Nat)
  wb : Nat
  vd : Nat
  pc : Nat
  rob : Nat
  err : Nat
deriving DecidableEq, Repr

/-- An entry of the deferral queue (R383). -/
structure Defer where
  e : Nat
  b : Nat
  tag : Nat
  words : List Half
deriving DecidableEq, Repr

/-- An entry of the list of contributions to the vector word, in issue order (R106): those of a load whose data is awaited, contributions
that are there, as (element, bit pattern), or the commit point that ends epoch n. -/
inductive SignItem where
  | await (rob : Nat)
  | elems (es : List (Nat × Nat))
  | seal (epoch : Nat)
deriving DecidableEq, Repr

/-- The vector stream's registers (16_vector_isa.md). Reset values: Tables 16-1 to 16-3, 10-1, 10-5, R353, R380, R381. -/
structure VecSt where
  v : AMap VReg := []
  k : AMap Half := []
  /-- p0-p7: count and width code -/
  p : AMap (Nat × Nat) := []
  vshape : Half := 0x000017E7
  vctl : Half := 0
  jord : Half := 0
  jflag : Half := 0
  vview : Half := 0
  dphase : Nat := 0
  /-- issue slots passed in exposed mode (R4) -/
  slot : Nat := 0
  landing : List Landing := []
  defer : List Defer := []
  /-- scatter list: (register b, element e, words w) (R385) -/
  scatter : List (Nat × Nat × Nat) := []
  /-- class 2: contributions to the vector word that wait behind those of a load (R106) -/
  sign : List SignItem := []
  /-- class 2: words of epochs that have been sealed, on their way to the compare engine -/
  words : List (Nat × BitVec 64) := []
deriving DecidableEq, Repr

/-- An instruction of an engine queue, as its queue image entry holds it (R146, R250). -/
structure QEntry where
  id : Nat
  instr : Instr
  pc : Nat
  pfx : Option Pfx
  rpt : Option Rpt
  iter : Nat
  /-- sampled descriptors and codebook extensions (R151) -/
  d1 : BitVec 512
  d2 : BitVec 512
  d3 : BitVec 512
  x1 : BitVec 256
  x2 : BitVec 256
  /-- offset values sampled at range-checker entry (R146) -/
  offs : List Half
  entered : Bool
  begun : Bool
  discarded : Bool
  done : Bool
  faulted : Bool
  cpos : Nat
  spos : Nat
  /-- bytes performed and not yet committed one by one (R405) -/
  perf : Nat
  /-- row (copies, drains) or K-step (mma) whose access is in the class queue -/
  row : Nat
  /-- an access of this entry is outstanding -/
  busy : Bool
  /-- data the outstanding access has returned -/
  buf : List (Nat × Byte)
  bufOk : Bool
  /-- a `cpys` whose payload is performed and whose signal is not (R246) -/
  sigOut : Bool
  /-- of a repeated entry, the shape registers and extensions that its iterations name, as they were at queue entry (R151) -/
  snap : AMap (BitVec 512) := []
  snapX : AMap (BitVec 256) := []
deriving DecidableEq, Repr

/-- The matrix stream's registers (R388, R389, R401). -/
structure MatSt where
  acc : AMap (BitVec 262144) := []
  astat : Half := 0
  o : AMap Half := []
  queue : List QEntry := []
deriving DecidableEq, Repr

/-- The copy stream's registers (R401, R406). -/
structure CpySt where
  o : AMap Half := []
  bar : AMap Half := []
  queue : List QEntry := []
deriving DecidableEq, Repr

/-- An entry of a result or operand queue: its length and bytes (R156). -/
structure QItem where
  len : Nat
  data : VReg
deriving DecidableEq, Repr

/-! ## Contexts -/

/-- What placement gives a context: the team registers and the identity of its task (R90, R352). -/
structure Team where
  inst : Nat := 0
  x : Nat := 0
  y : Nat := 0
  z : Nat := 0
  stage : Nat := 0
  replica : Nat := 0
  tidx : Nat := 0
  tsize : Nat := 0
  copy : Nat := 0
  nrepl : Nat := 0
  nstage : Nat := 0
  gx : Nat := 0
  gy : Nat := 0
  gz : Nat := 0
  seq : Nat := 0
  /-- number of the team on this module, owner of its level-1 tiles -/
  team : Nat := 0
  pclass : Nat := 0
  asid : Nat := 0
  code : Nat := 0
  ttab : Nat := 0
  ttabn : Nat := 0
deriving DecidableEq, Repr

/-- Block and boundary state of the control stream that delivery saves and `eret` restores (R285, R305). -/
structure HSave where
  blocks : List Block
  pfx : Option Pfx
  rpt : Option Rpt
  discard : Bool
  waitN : Nat
  pc : Nat
  /-- committed registers of a spill or fill at the boundary (R243, R333) -/
  mpos : Nat
  /-- numbers of the streams whose records were delivered: those on which `eret` acts (R243; notes/assumptions/28.md) -/
  dlv : List Nat
deriving DecidableEq, Repr

/-- One sequencer context of a core (R134). -/
structure Ctx where
  /-- a RUNNING instance is on the context -/
  live : Bool := false
  vf : Nat := 0
  team : Team := {}
  g : AMap Word := []
  d : AMap (BitVec 512) := []
  dext : AMap (BitVec 256) := []
  /-- token FIFO a→b at key 4·a + b, streams numbered c 0, m 1, v 2, y 3 (R141) -/
  tok : AMap Nat := []
  guard : AMap Guard := []
  /-- DVBM0, DVBM1, DVBV0, DVBV1, DVBY0, DVBY1 at keys 0-5 (Table 6-3) -/
  dvb : AMap Word := []
  /-- binding writes that wait for their result queue to empty (R157) -/
  dvbWait : AMap Word := []
  /-- result queues at keys 0-5 (as dvb), operand queues at keys 0-5 (R156) -/
  rq : AMap (List QItem) := []
  oq : AMap (List QItem) := []
  /-- turns of the dovetails of R89: entries dealt by result queue (keys 0-5), taken by operand queue (keys 6-11) -/
  deal : AMap Nat := []
  shadow : List Word := []
  hvec : Word := 0
  /-- HSTAT.PC and HMODE (Table 14-4) -/
  hpc : BitVec 56 := 0
  hmode : Bool := false
  sel : Nat := 0
  /-- ACT of each stream (Table 14-5) -/
  act : AMap Nat := []
  frec : AMap FaultRec := []
  hsave : Option HSave := none
  tlbinv : Word := 0
  sc : StreamSt := {}
  sm : StreamSt := {}
  sv : StreamSt := {}
  sy : StreamSt := {}
  vec : VecSt := {}
  mat : MatSt := {}
  cpy : CpySt := {}
  /-- g registers that a read in flight will write: (register, access) (R315) -/
  gpend : List (Nat × Nat) := []
  /-- shape registers that a `dld` in flight will write: (register, access) -/
  dpend : List (Nat × Nat) := []
  /-- CYCLE when the context began to be blocked as R96 says -/
  idleFrom : Nat := 0
  /-- planted or damaged register-file words: stored check bits that differ from code(data) (R121) -/
  regCheck : AMap (BitVec 7) := []
  /-- a record that was saved VALID is to be delivered before any instruction issues (R254) -/
  mustDeliver : Bool := false
deriving DecidableEq, Repr

/-- A tile: rows of rb bytes, bytes not listed read 0 (R152, R155). -/
structure Tile where
  rows : Nat
  rb : Nat
  bytes : AMap Byte := []
  /-- stored check bits that differ from code(data), by 4-byte word (R121, R314) -/
  check : AMap (BitVec 7) := []
  /-- memory die of a level-2 tile: it never moves (R32, R153) -/
  mem : Nat := 0
deriving DecidableEq, Repr

/-- Name of a tile: level, owner (context, team, or task and copy) and handle (Table 6-2). -/
structure TileKey where
  level : Nat
  owner : Nat
  h : Nat
deriving DecidableEq, Repr

/-! ## The ordering machine -/

/-- A byte of a die view (R167). -/
structure DvByte where
  valid : Bool := false
  val : Byte := 0
  writer : Nat := 0
  pend : Option Nat := none
deriving DecidableEq, Repr

/-- Messages on an up channel (Tables 7-2, 7-4, R199). -/
inductive UpMsg where
  | e (id : Nat) (bytes : List (Nat × Byte))
  /-- `who` is 4 · context + stream of the issuer -/
  | g (id who : Nat) (kind : AccKind) (bytes : List (Nat × Byte))
  | f
  | ua (id : Nat)
  | ia (id : Nat)
  | k
deriving DecidableEq, Repr

/-- Messages on a down channel (Tables 7-3, 7-4, R199, R49). -/
inductive DnMsg where
  | u (id : Nat) (bytes : List (Nat × Byte))
  | c (id : Nat)
  | p (id : Nat)
  | i (id : Nat)
  | fr (bytes : List (Nat × Byte × Nat × Bool)) (bad : List Nat)
  | ga (id : Nat) (old : List Byte)
  | kr (inCo : List Nat) (sentP : List Nat)
  /-- error completion for a fill (id 0, `fill`), an early or a global store -/
  | err (id : Nat) (fill : Bool) (early : Bool) (code : Nat)
deriving DecidableEq, Repr

/-- A message in transit: its die and line, the virtual function it acts for, whether it is on the escape channel (R46), and when it was
sent. -/
structure Up where
  die : Nat
  line : Nat
  vf : Nat
  msg : UpMsg
  esc : Bool
  /-- the step in which it was sent -/
  at_ : Nat
deriving DecidableEq, Repr

/-- See `Up`. -/
structure Dn where
  die : Nat
  line : Nat
  msg : DnMsg
  esc : Bool
  /-- the step in which it was sent -/
  at_ : Nat
deriving DecidableEq, Repr

/-- An entry of the coherence order of one byte (R167). -/
structure CoWrite where
  loc : Nat
  val : Byte
  writer : Nat
deriving DecidableEq, Repr

/-- A line held by a global store or atomic, with the IAs still awaited (R167). -/
structure Hold where
  id : Nat
  /-- 4 · context + stream of the issuer -/
  who : Nat
  die : Nat
  vf : Nat
  kind : AccKind
  bytes : List (Nat × Byte)
  wait : List Nat
deriving DecidableEq, Repr

/-- One K of a die that awaits its KR, with the U and I recorded since it was sent (R199). -/
structure KHold where
  die : Nat
  line : Nat
  recd : List DnMsg
deriving DecidableEq, Repr

/-- The ordering machine (Table 7-1); class queues, OBS and LOST stand with the streams. -/
structure OrdSt where
  /-- per compute die: the die view by location -/
  dv : AMap (AMap DvByte) := []
  /-- per compute die: check bits planted in die-cache words (R314) -/
  dvCheck : AMap (AMap (BitVec 7)) := []
  /-- per compute die: the die-cache way of each line that has been allocated (R60) -/
  ways : AMap (AMap Nat) := []
  /-- appended writes, the latest first -/
  co : List CoWrite := []
  /-- stores whose P has been sent (H2) -/
  propd : List Nat := []
  /-- per compute die: stores propagated there (R438) -/
  propAt : AMap (List Nat) := []
  held : AMap Hold := []
  /-- early stores in CO whose UAs are awaited: line, id, issuing die, dies -/
  ua : List (Nat × Nat × Nat × List Nat) := []
  up : List Up := []
  dn : List Dn := []
  kHold : List KHold := []
  /-- fills outstanding: (die, line) (S2a) -/
  fills : List (Nat × Nat) := []
  nextId : Nat := 1
deriving DecidableEq, Repr

/-! ## Memory and translation -/

/-- Byte-addressed memory: strictly rising addresses, no entry equal to what an unlisted address reads as. -/
abbrev Memory := List Host.Cell

/-- An entry of a die's translation cache (R38). -/
structure TlbEntry where
  asid : Nat
  vf : Nat
  /-- log2 of the page size -/
  size : Nat
  vpage : Nat
  gpa : Nat
  rd : Bool
  w : Bool
  x : Bool
deriving DecidableEq, Repr

/-- A miss in a die's miss queue, for every requester of its page (R38). -/
structure Miss where
  vf : Nat
  asid : Nat
  va : Nat
deriving DecidableEq, Repr

/-- A walk that ended in a translation fault: identifier, partition, 64 KiB page, kind and level (R37); kinds from 8 on stand for an error
completion of a table read (notes/assumptions/30.md). -/
structure WalkBad where
  asid : Nat
  vf : Nat
  page : Nat
  tkind : Nat
  level : Nat
deriving DecidableEq, Repr

/-- A fill that failed for one that waited for it: context, 1,024 + die for the walkers of a die, or 2,048 for L0, which waits for granule
slots; its bytes and error code (R49). -/
structure FillBad where
  who : Nat
  locs : List Nat
  code : Nat
deriving DecidableEq, Repr

/-- The migration engine of a memory die (R41). -/
structure MigSt where
  /-- candidate slots in the order of R41, with the target quadrant -/
  cand : List (Nat × Nat) := []
  /-- phase 0 idle, 1 copying, 2 HOME written to every die and acknowledgements awaited -/
  phase : Nat := 0
  slot : Nat := 0
  dest : Nat := 0
  oldFrame : Nat := 0
deriving DecidableEq, Repr

/-- A stored word with check bits (R121): word `w` of a context's register file, an SRAM word, or 8-byte word `w` of memory die m. -/
inductive EccWord where
  | reg (ctx w : Nat)
  | sram (w : SramWord)
  | hbm (m w : Nat)
deriving DecidableEq, Repr

/-- Memory of the module (02_package_memory.md). -/
structure MemSt where
  hbm : Memory := []
  /-- stored check bits of HBM words that differ from code(data), by word address (R121) -/
  hbmCheck : AMap (BitVec 8) := []
  host : Memory := []
  weight : Memory := []
  home : AMap (BitVec 32) := []
  /-- per die: its copy of the home table -/
  homeCopy : AMap (AMap (BitVec 32)) := []
  /-- the home-table write in progress: slot and value (R34) -/
  homeWrite : Option (Nat × BitVec 32) := none
  /-- home-table writes of the physical function that wait, oldest first (R34) -/
  homeWait : List (Nat × BitVec 32) := []
  /-- stage-2 entries at key m·2^18 + slot (R35) -/
  stage2 : AMap (BitVec 64) := []
  /-- free-frame map words at key m·2^11 + word, 1 when free (R35) -/
  ffmap : AMap (BitVec 32) := []
  served : AMap Nat := []
  mig : AMap MigSt := []
  /-- granule slots whose pull is in progress (R44) -/
  pulling : List Nat := []
  tlb : AMap (List TlbEntry) := []
  missq : AMap (List Miss) := []
  /-- walks that ended in a translation fault which no access has taken yet, per die -/
  walkBad : AMap (List WalkBad) := []
  /-- who waits for the fill of a line: a fetch or a touch of a context, or a die's walkers (`FillBad.who`), and the line (R44, R279) -/
  waiters : List (Nat × Nat) := []
  fillBad : List FillBad := []
  /-- admission rate n and requests since the last signal, per memory die (R74) -/
  rate : AMap Nat := []
  since : AMap Nat := []
  /-- reads and slow reads of the open window at key 512·die + vf (R73) -/
  window : AMap (Nat × Nat) := []
  /-- missed-window signals on their way, per memory die (R73) -/
  missSig : AMap Nat := []
  /-- rows of the correction history table per memory die, oldest first (R123) -/
  history : AMap (List Nat) := []
  /-- corrected words waiting for write-back (R121) -/
  writeback : List EccWord := []
deriving DecidableEq, Repr

/-! ## Registers of the functions -/

/-- Power state of a die behind DCAP (R26, Table 1-8). -/
structure DiePower where
  fstep : Nat := 56
  pwrw : Nat := 0
  capw : Option Nat := none
  hot : Nat := 0
  cool : Nat := 0
  unavail : Bool := false
deriving DecidableEq, Repr

/-- A rail telemetry slot (Table 1-6). -/
structure RailSlot where
  vmv : BitVec 32 := 0
  ima : BitVec 32 := 0
  temp : BitVec 16 := 0
  seq : BitVec 32 := 0
deriving DecidableEq, Repr

/-- A CONN register and the run of measurements below its level (R28, R29). -/
structure Conn where
  stat : Nat := 0
  evt : Bool := false
  metric : Nat := 0
  below : Nat := 0
deriving DecidableEq, Repr

/-- Suspicion of a compute die (R118, Table 5-4). -/
structure Susp where
  ret : Bool := false
  clean : Nat := 0
  score : Nat := 0
deriving DecidableEq, Repr

/-- Error log of a die (Table 5-5). -/
structure EccLog where
  kind : Nat := 0
  addrh : BitVec 16 := 0
  addrl : BitVec 32 := 0
  uecnt : BitVec 32 := 0
  cecnt : BitVec 32 := 0
deriving DecidableEq, Repr

/-- PCTL of one VF (Table 3-5). -/
structure Pctl where
  w0 : BitVec 32 := 0
  w1 : BitVec 32 := 3
  w2 : BitVec 32 := 0x4E000800
  w3 : BitVec 32 := 0
deriving DecidableEq, Repr

/-- MCSTAT (Table 11-8). -/
structure McStat where
  valid : Bool := false
  kind : Nat := 0
  die : Nat := 0
  src : Nat := 0
deriving DecidableEq, Repr

/-- Two 32-bit words of a window register. -/
structure Two where
  w0 : BitVec 32 := 0
  w1 : BitVec 32 := 0
deriving DecidableEq, Repr

/-- The physical function's management window (Table 3-2). -/
structure PfSt where
  expert : Bool := false
  coolant : BitVec 32 := 0x00C000B4
  coolantEff : BitVec 32 := 0x00C000B4
  power : AMap DiePower := []
  rails : AMap RailSlot := []
  conn : AMap Conn := []
  migEn : Bool := true
  migThr : Nat := 0xC0
  /-- DRST.PHASE, TMO, DIE and the quiesces that wait (R47) -/
  phase : Nat := 0
  tmo : Bool := false
  drstDie : Nat := 0
  /-- the die that the quiesce in progress takes out -/
  leaving : Nat := 0
  /-- the leaving die's counter when its drain began -/
  drainFrom : Nat := 0
  quiesceQ : List Nat := []
  /-- dies that have left (DLIVE shows the others) -/
  left : List Nat := []
  susp : AMap Susp := []
  ecc : AMap EccLog := []
  fwAddr : Word := 0
  fwLen : BitVec 32 := 0
  fwStatus : Nat := 0
  /-- image in flash that takes effect at the next cold reset, if one was loaded (R133) -/
  flash : Option (List Byte) := none
  /-- image that runs, none for the one the module was shipped with; recovery, in which only FWCTL answers (R132, R133) -/
  fwRun : Option (List Byte) := none
  recovery : Bool := false
  savewin : AMap (BitVec 32) := []
  mcstat : McStat := {}
  /-- a module check is in force (R255) -/
  modCheck : Bool := false
  wwin : AMap Two := []
  htwin : AMap Two := []
  ase : AMap Two := []
  own : AMap (BitVec 32) := []
  pctl : AMap Pctl := []
  slice : AMap Nat := []
  /-- the member VF that each pool engine serves, by engine, none while no member has work there; and the VF from which it looks for the
  next one (R58) -/
  poolNow : AMap (Option Nat) := []
  poolTurn : AMap Nat := []
  /-- the die's counter when each pool engine's slice began, by engine (R58) -/
  poolFrom : AMap Nat := []
  /-- the partition that holds context c of core g, at key 4·g + c (R56, R134) -/
  coreCtx : AMap Nat := []
  /-- MSI-X: masked and pending entries at key 16·(function) + entry, PF is function 512; messages sent, latest first (R69) -/
  msixMask : AMap Bool := []
  /-- address and data words of the entries, at key 4·(16·(function) + entry) + word -/
  msixTab : AMap (BitVec 32) := []
  msixPend : AMap Bool := []
  msixOut : List (Fn × Nat) := []
deriving DecidableEq, Repr

/-- A completion record (Table 3-10). -/
structure Record where
  tag : Nat
  err : Nat
  status : Nat
  cyc : Nat
  seq : Nat
  fva : Nat
deriving DecidableEq, Repr

/-- A command queue (Table 3-7) and its held records (R68). -/
structure Queue where
  qbase : Word := 0
  en : Bool := false
  abort : Bool := false
  nopre : Bool := false
  vec : Nat := 0
  clog : Nat := 0
  qlog : Nat := 0
  pidx : BitVec 32 := 0
  cidx : BitVec 32 := 0
  cbase : Word := 0
  chead : BitVec 32 := 0
  ctail : BitVec 32 := 0
  infl : Nat := 0
  cause : Nat := 0
  stat : Nat := 0
  heldRecs : List Record := []
deriving DecidableEq, Repr

/-- A remote connection (Table 17-5). -/
structure Conn17 where
  w0 : BitVec 32 := 0
  gid : BitVec 128 := 0
  rkey : BitVec 32 := 0
deriving DecidableEq, Repr

/-- A VF's function window (R52). -/
structure VfSt where
  expert : Bool := false
  ckbase : Word := 0
  cklen : Word := 0
  rst : Bool := false
  pullok : Bool := false
  ckstatus : Nat := 0
  /-- scale-out address of the module whose checkpoint was restored (R44, R128) -/
  source : BitVec 128 := 0
  queues : AMap Queue := []
  conns : AMap Conn17 := []
deriving DecidableEq, Repr

/-! ## The scheduler -/

/-- A footprint region (R64): base, length, mode. -/
structure Region where
  base : Nat
  len : Nat
  mode : Nat
deriving DecidableEq, Repr

/-- A task card (Table 3-8); `mbz` says that every must-be-zero field was zero. -/
structure Card where
  tag : Nat
  mbz : Bool
  eng : Nat
  team : Nat
  nstage : Nat
  shrink : Bool
  pclass : Nat
  prio : Nat
  version : Nat
  asid : Nat
  gx : Nat
  gy : Nat
  gz : Nat
  wait : Nat
  budget : Nat
  code : Nat
  ttab : Nat
  ttabn : Nat
  ovf : Nat
  ovfn : Nat
  /-- REPL and ENTRY of each stage -/
  stages : List (Nat × Nat)
  succ : List Nat
  args : List Word
  regions : List Region
deriving DecidableEq, Repr

/-- State of a task (Table 4-3). -/
inductive TStat where
  | waiting
  | active
  | closing
  | ended
deriving DecidableEq, Repr

/-- A task in flight, or one that has ended and whose record waits for its stores (R66, R76 to R83). -/
structure Task where
  seq : Nat
  vf : Nat
  q : Nat
  nopre : Bool
  card : Card
  regions : List Region
  stat : TStat
  count : Nat
  /-- sequence numbers this task has an edge to (R77) -/
  edges : List Nat
  underflow : Bool
  /-- a fault, halt, abort or unresolved vote asks for this ending: status, ERR, FVA -/
  ending : Option (Nat × Nat × Nat)
  cyc : Nat
  /-- an ending that retries its early decrements: tags that remain (R79) -/
  retry : List Nat
  /-- quadrant of the die that held the task's first-placed team (R153) -/
  first : Option Nat := none
deriving DecidableEq, Repr

/-- State of a grid point's work (Table 4-4). -/
inductive IStat where
  | queued
  | preloaded
  | running
  | saved
  | done
deriving DecidableEq, Repr

/-- One placed team: stage, replica, die, its contexts in team core order (R86), usage (R93). -/
structure Placed where
  team : Nat
  copy : Nat
  stage : Nat
  replica : Nat
  die : Nat
  ctxs : List Nat
  /-- cycles of the contexts that have been saved or have ended in this placement, and the die's counter at its start -/
  usage : Nat
  start : Nat
deriving DecidableEq, Repr

/-- One grid point of a task (R83 to R85), its teams (those of every class 2 copy among them) and its save areas. -/
structure Inst where
  id : Nat
  seq : Nat
  vf : Nat
  x : Nat
  y : Nat
  z : Nat
  stat : IStat
  eprio : Nat
  age : Nat
  /-- REPL(s) in force, after any halving (R120) -/
  repls : List Nat
  teams : List Placed
  /-- a stop is in progress, or waits for save areas (R95, R249) -/
  stopping : Bool
  waitArea : Bool
  /-- the stop in progress is a priority pre-emption (R94) -/
  prioStop : Bool
  /-- saved contexts: (area, team, index) -/
  areas : List (Nat × Nat × Nat)
  /-- copy numbers in the primary and the secondary role (R115), and a tie-break or replacement that is due or placed -/
  primary : Nat
  secondary : Nat
  tieDue : Bool
  tie : Option Nat
  /-- a replacement for a lost copy holds, or will hold, the secondary role (R117) -/
  replaced : Bool
  /-- next copy number; the CSR COPY shows numbers above 2 as 2 -/
  copyNext : Nat
  /-- memory die of the containment buffer (R113) and of level-2 tiles (R153), 4 before the first placement -/
  buffer : Nat
  /-- a preload stands on the cores of this team (R91) -/
  onto : Option Nat
  /-- its first placement attempt has been made (R88) -/
  tried : Bool := false
  /-- the die of every team that has been placed, latest first: copy, stage, replica, die (R112, R116, R118) -/
  homes : List (Nat × Nat × Nat × Nat) := []
  /-- a pre-emption is due, for phase 5 of a scheduler step to start (R75, R94) -/
  due : Bool := false
deriving DecidableEq, Repr

/-- What stands behind a save area: the identity in its header (Table 11-6), the context, its level-0 tiles and its share of its team's
level-1 tiles (R251). The area's bytes are in HBM (R248; notes/assumptions/7.md). -/
structure SaveArea where
  seq : Nat
  vf : Nat
  stage : Nat
  repl : Nat
  tidx : Nat
  copy : Nat
  x : Nat
  y : Nat
  z : Nat
  ctx : Ctx
  tiles : List (TileKey × Tile)
deriving DecidableEq, Repr

/-- The task scheduler on L0 (04_scheduler.md). -/
structure SchedSt where
  seqNext : Nat := 1
  instNext : Nat := 1
  teamNext : Nat := 1
  /-- rotation of VFs and of each VF's queues (R63) -/
  vfTurn : Nat := 0
  qTurn : AMap Nat := []
  /-- the card whose fetch has begun: VF and queue -/
  fetching : Option (Nat × Nat) := none
  /-- cards fetched and not yet checked: VF, queue, card -/
  fetched : List (Nat × Nat × Card) := []
  tasks : List Task := []
  insts : List Inst := []
  /-- early decrements: VF, tag, count (R79) -/
  early : List (Nat × Nat × Nat) := []
  /-- accepted `tsig` decrements: issuing sequence number, VF, tag (R342) -/
  tsigs : List (Nat × Nat × Nat) := []
  areas : AMap SaveArea := []
  /-- ended contexts of tasks whose stores are not all performed at system scope: sequence number, context (Table 4-3) -/
  parked : List (Nat × Ctx) := []
  /-- lines that preloads have asked for: grid point, die, line (R91) -/
  entryLines : List (Nat × Nat × Nat) := []
  /-- declared tiles of code images: CODE, handle, rows, row bytes (R270, notes/assumptions/17.md) -/
  decl : List (Nat × Nat × Nat × Nat) := []
deriving DecidableEq, Repr

/-! ## Protection -/

/-- State of an epoch (Table 5-3); FREE epochs are removed. -/
inductive EStat where
  | open_
  | half
  | compare
  | vote
  | release
  | discard
deriving DecidableEq, Repr

/-- A held record (R103): the access it stands for, or a `tsig` decrement (R343). -/
inductive HeldRec where
  | store (a : Access) (va : Nat)
  | tsig (tag : Nat)
deriving DecidableEq, Repr

/-- What a copy brings to the compare of an epoch: its sealed word, or a fault that ends it, with cause, PC, ERR and FVA (R112, R245). -/
inductive SigVal where
  | word (w : BitVec 64)
  | fault (cause pc err fva : Nat)
deriving DecidableEq, Repr

/-- One epoch of one stream of one team core: words sealed and records held, per copy number (R108 to R112). -/
structure Epoch where
  key : Nat
  n : Nat
  stat : EStat
  words : AMap SigVal
  recs : AMap (List HeldRec)
  /-- accesses of released records that are not yet performed at module scope -/
  out : List Nat
  /-- in VOTE: the copies that disagree, and the tie-break copy whose word decides (R115) -/
  voters : List Nat := []
  tie : Nat := 0
deriving DecidableEq, Repr

/-- Signature log of one stream (R110), and the chains of later copies by copy number, each with its length (R115). -/
structure SigLog where
  count : Nat := 0
  chain : BitVec 64 := 0
  ties : AMap (Nat × BitVec 64) := []
deriving DecidableEq, Repr

/-- The stream an epoch belongs to: grid point, stage, replica, team core index, stream; its number is the epoch's key. -/
structure EKey where
  key : Nat
  inst : Nat
  stage : Nat
  replica : Nat
  tidx : Nat
  st : Strm
deriving DecidableEq, Repr

/-- Containment, compare engine and signature logs (05_protected_execution.md). -/
structure ProtSt where
  keys : List EKey := []
  epochs : List Epoch := []
  logs : AMap SigLog := []
deriving DecidableEq, Repr

/-! ## Links, rails and routers -/

/-- A beat waiting for or travelling on a rail (R16, R17). -/
structure Beat where
  die : Nat
  col : Nat
  south : Bool
  src : Nat
  dst : Nat
  /-- the partition it is sent for (R60) -/
  vf : Nat
  /-- 0 control core, 1 copy engine, 2 another engine or a slice cell -/
  eng : Nat
  /-- CYCLE at injection -/
  at_ : Nat
  /-- the packet it belongs to -/
  pkt : Nat
deriving DecidableEq, Repr

/-- A strip router (R19). -/
structure Router where
  gated : Bool := false
  /-- CYCLE since which it has carried nothing -/
  idleFrom : Nat := 0
  /-- CYCLE at which a wake in progress completes -/
  wakeAt : Option Nat := none
deriving DecidableEq, Repr

/-- Where a packet's header stands on its way (R13, R16 to R19). -/
inductive Leg where
  /-- handed to the fabric, nothing injected -/
  | start
  /-- its beats ride the rails of its own column to the strip of its chain -/
  | toChain
  /-- its header is in a strip router -/
  | chain
  /-- its flits wait for, or cross, the link to the next die -/
  | link
  /-- its beats ride the rails of its target's column -/
  | toStrip
  /-- it has arrived -/
  | there
deriving DecidableEq, Repr

/-- A packet between engines, slice cells and dies (R13, R16 to R19, R45, R46). -/
structure Packet where
  id : Nat
  vf : Nat
  /-- bytes it carries -/
  len : Nat
  /-- 0 control core, 1 copy engine, 2 another engine or a slice cell -/
  eng : Nat
  /-- the die, strip and column it stands in -/
  die : Nat
  strip : Nat
  col : Nat
  /-- column and strip of its target, and the dies it has still to enter -/
  toCol : Nat
  toStrip : Nat
  dies : List Nat
  leg : Leg
  /-- the die's counter when the header entered its router, or when the packet began to wait for a credit -/
  since : Nat
  /-- flits that have not entered the link, and those in the far end's input buffer -/
  flits : Nat
  buf : Nat
  /-- it is on the escape channel (R46) -/
  esc : Bool
deriving DecidableEq, Repr

/-- An entry on its way over a dovetail (R158). -/
structure Transit where
  fromCtx : Nat
  fromReg : Nat
  toCtx : Nat
  toReg : Nat
  item : QItem
  pkt : Packet
deriving DecidableEq, Repr

/-- Links, rails, routers, packets in transit (01_package.md, R45 to R48, R158). -/
structure FabSt where
  /-- failed links as (lower die, higher die) -/
  linksDown : List (Nat × Nat) := []
  /-- dies and links that the installed route table avoids (R45, R47) -/
  tabDies : List Nat := []
  tabLinks : List (Nat × Nat) := []
  railWait : List Beat := []
  beats : List Beat := []
  /-- the engine that goes first next, control core when false, at key of die, column, direction, strip (R17) -/
  railTurn : AMap Bool := []
  /-- routers at key (die·5 + strip)·16 + column -/
  routers : AMap Router := []
  transit : List Transit := []
  /-- transfers between slice cells and engines (R16, R153) -/
  slices : List Packet := []
  pktNext : Nat := 0
  /-- flits in the input buffers of the links, by link, direction and virtual channel: credits taken (R13) -/
  linkBuf : AMap Nat := []
  /-- the sealed slot each die is in (R60) -/
  slot : AMap Nat := []
deriving DecidableEq, Repr

/-! ## Checkpoints -/

/-- What stands behind the SCHED, SAVE and HELD shards of an image that this module has written to the host (R129;
notes/assumptions/8.md), by the number that its shards carry. -/
structure Ckpt where
  num : Nat
  vf : Nat
  tasks : List Task
  insts : List Inst
  early : List (Nat × Nat × Nat)
  areas : AMap SaveArea
  keys : List EKey
  epochs : List Epoch
  logs : AMap SigLog
deriving DecidableEq, Repr

/-! ## Errors from outside -/

/-- An error in the arithmetic of an engine: the next checked operation of a stream adds `first` to the result of one element, and `replay`
when it runs again (R99 to R101; notes/assumptions/98.md). -/
structure Hit where
  ctx : Nat
  st : Strm
  elem : Nat
  first : Int
  replay : Int
deriving DecidableEq, Repr

/-- What the world does to the module's circuits: an arithmetic error that is to come, or bits of a stored codeword that flip, its data bits
numbered first and its check bits after them (R121; notes/assumptions/98.md). -/
inductive Upset where
  | arith (h : Hit)
  | word (w : EccWord) (flip : Nat)
deriving DecidableEq, Repr

/-! ## The module -/

/-- Who acts next: a stream, an event of the module with what it leaves to be chosen (`State.pick`), the passing of cycles on a die, or an
error from outside (notes/assumptions/1.md). -/
inductive Act where
  | run (ctx : Nat) (st : Strm)
  | ev (i : Instr) (pick : List Nat := [])
  | cycles (die n : Nat)
  | upset (u : Upset)
deriving DecidableEq, Repr

/-- The instruction that is executed: its stream, its PC and the address behind its words. -/
structure Cur where
  ctx : Nat := 0
  st : Strm := .c
  pc : Nat := 0
  next : Nat := 0
deriving DecidableEq, Repr

/-- One Brondorok B9 module. -/
structure State where
  now : Nat := 0
  plan : List Act := []
  turn : Nat := 0
  /-- what the plan chose for the last event that leaves a choice: how many bytes of its next part a read or store moves (R168), or a slot and
  the dies whose touches reach L0 in one cycle (R43) -/
  pick : List Nat := []
  cur : Cur := {}
  /-- CYCLE of each die (R30) -/
  cyc : AMap (BitVec 64) := []
  ctxs : AMap Ctx := []
  tiles : List (TileKey × Tile) := []
  ord : OrdSt := {}
  mem : MemSt := {}
  pf : PfSt := {}
  vfs : AMap VfSt := []
  sched : SchedSt := {}
  prot : ProtSt := {}
  fab : FabSt := {}
  ckpts : List Ckpt := []
  /-- per core: the context whose control stream issued last; context 3 at reset, so that the rotation starts at 0 (R135) -/
  rot : AMap Nat := []
  /-- arithmetic errors to come (R101) -/
  hits : List Hit := []
deriving DecidableEq, Repr

/-- The module after cold reset (R7): every register at its Reset value, every die view, stream and scheduler table empty. -/
def State.reset : State := {}

/-- Why the machine stops with a fault. Traps and faults of the spec are no stop: they fill a fault record (R241). -/
inductive Fault where
  /-- raised by `step` when the plan names a stream of a context above 1,023, which no core has (R134); safe: the machine stops -/
  | noSuchContext
deriving DecidableEq, Repr

/-- Why an instruction is refused. -/
inductive Refusal where
  /-- raised by an arm of `exec` that has no meaning yet; safe: the machine stops -/
  | notModelled (mnemonic : String)
deriving DecidableEq, Repr

end Sys2Proof.Machine
end

