-- ==== Sys2Proof/Machine/Ops.lean ====
section
/-!
DEFINITION. Sys2Proof/Machine/Ops.lean: the named operations over contexts, streams, memory, storage codes, translation,
tokens, blocks and retirement, and taking, delivering and returning from an exception (R239 to R244).
-/

namespace Sys2Proof.Machine

/-! ### Lists by a key -/

/-- Inserts by key, behind equal keys. -/
def insertBy {α : Type} (key : α → Nat) (a : α) (l : List α) : List α :=
  match l with
  | [] => [a]
  | b :: rest => if key a < key b then a :: b :: rest else b :: insertBy key a rest

/-- Sorts by key, ascending; equal keys keep their order. -/
def sortBy {α : Type} (key : α → Nat) (l : List α) : List α := l.foldl (fun acc a => insertBy key a acc) []

/-- The first element of least key. -/
def leastBy {α : Type} (key : α → Nat) (l : List α) : Option α :=
  match l with
  | [] => none
  | a :: rest =>
    match leastBy key rest with
    | some b => if key b < key a then some b else some a
    | none => some a

/-! ### Streams and contexts -/

/-- Number of a stream in the order c, m, v, y (Table 11-2). -/
def strmIx (st : Strm) : Nat :=
  match st with
  | .c => 0
  | .m => 1
  | .v => 2
  | .y => 3

/-- The stream of a number. -/
def strmOf (n : Nat) : Strm :=
  match n with
  | 0 => .c
  | 1 => .m
  | 2 => .v
  | _ => .y

/-- All streams in the order c, m, v, y. -/
def allStrms : List Strm := [.c, .m, .v, .y]

/-- Die of a context: contexts are numbered 4 · global core + c (R5, R134). -/
def dieOf (k : Nat) : Nat := k / 64

/-- Quadrant of a compute die: rows and columns of the grid by pairs (R14). -/
def quadOf (die : Nat) : Nat := 2 * (die / 8) + die % 4 / 2

/-- One stream of a context. -/
def Ctx.strm (c : Ctx) (st : Strm) : StreamSt :=
  match st with
  | .c => c.sc
  | .m => c.sm
  | .v => c.sv
  | .y => c.sy

/-- Replaces one stream of a context. -/
def Ctx.setStrm (c : Ctx) (st : Strm) (x : StreamSt) : Ctx :=
  match st with
  | .c => { c with sc := x }
  | .m => { c with sm := x }
  | .v => { c with sv := x }
  | .y => { c with sy := x }

/-- Changes one stream of a context. -/
def Ctx.upStrm (c : Ctx) (st : Strm) (f : StreamSt → StreamSt) : Ctx := c.setStrm st (f (c.strm st))

/-- A context of the module. -/
def State.ctx (s : State) (k : Nat) : Ctx := s.ctxs.get k {}

/-- Replaces a context. -/
def State.setCtx (s : State) (k : Nat) (c : Ctx) : State := { s with ctxs := s.ctxs.set k c }

/-- Changes a context. -/
def State.upCtx (s : State) (k : Nat) (f : Ctx → Ctx) : State := s.setCtx k (f (s.ctx k))

/-- One stream of a context of the module. -/
def State.strm (s : State) (k : Nat) (st : Strm) : StreamSt := (s.ctx k).strm st

/-- Changes a stream. -/
def State.upStrm (s : State) (k : Nat) (st : Strm) (f : StreamSt → StreamSt) : State :=
  s.upCtx k fun c => c.upStrm st f

/-- The stream that executes. -/
def State.me (s : State) : StreamSt := s.strm s.cur.ctx s.cur.st

/-- The context that executes. -/
def State.here (s : State) : Ctx := s.ctx s.cur.ctx

/-- Changes the context that executes. -/
def State.upHere (s : State) (f : Ctx → Ctx) : State := s.upCtx s.cur.ctx f

/-- CYCLE of a die (R30): every step is one cycle of every die (notes/assumptions/4.md). -/
def State.cycle (s : State) (die : Nat) : BitVec 64 := s.cyc.get die 0 + BitVec.ofNat 64 s.now

/-- Whether a die is live (R47). -/
def State.isLive (s : State) (die : Nat) : Bool := !s.pf.left.contains die

/-- The live compute dies, ascending. -/
def State.liveCompute (s : State) : List Nat := (List.range 16).filter s.isLive

/-- A fresh identifier of a write, access or pending result. -/
def State.freshId (s : State) : State := { s with ord := { s.ord with nextId := s.ord.nextId + 1 } }

/-! ### Byte memory in its canonical form -/

/-- What memory `m` holds at `a`, `d` for an unlisted address. -/
def memGet (d : Byte) (m : Memory) (a : Nat) : Byte :=
  match m with
  | [] => d
  | (b, v) :: rest => if a = b then v else memGet d rest a

/-- Writes one byte and keeps the form: addresses strictly rising, no entry equal to `d`. -/
def memPut (d : Byte) (m : Memory) (a : Nat) (v : Byte) : Memory :=
  match m with
  | [] => if v = d then [] else [(a, v)]
  | (b, w) :: rest =>
    if a < b then (if v = d then (b, w) :: rest else (a, v) :: (b, w) :: rest)
    else if a = b then (if v = d then rest else (a, v) :: rest)
    else (b, w) :: memPut d rest a v

/-- Whether every address of the list is above `lo` and no entry equals `d`, addresses strictly rising. -/
def memWfFrom (d : Byte) (lo : Nat) (m : Memory) : Bool :=
  match m with
  | [] => true
  | (a, v) :: rest => decide (lo ≤ a) && decide (v ≠ d) && memWfFrom d (a + 1) rest

/-- The canonical form of memory: addresses strictly rising, no entry equal to what an unlisted address reads as. -/
def Memory.wf (d : Byte) (m : Memory) : Bool := memWfFrom d 0 m

/-- Writes bytes at successive addresses from `a` on. -/
def memPutList (d : Byte) (m : Memory) (a : Nat) (bs : List Byte) : Memory :=
  match bs with
  | [] => m
  | b :: rest => memPutList d (memPut d m a b) (a + 1) rest

/-- Reads `n` bytes from `a` on. -/
def memGetList (d : Byte) (m : Memory) (a n : Nat) : List Byte := (List.range n).map fun i => memGet d m (a + i)

/-- The number whose little-endian bytes are given (R2). -/
def leNat (bs : List Byte) : Nat :=
  match bs with
  | [] => 0
  | b :: rest => b.toNat + 256 * leNat rest

/-- Byte `a` of host memory. -/
def State.hostByte (s : State) (a : Nat) : Byte := memGet Config.hostPowerOnByte s.mem.host a

/-- n bytes of host memory as a little-endian number. -/
def State.hostNat (s : State) (a n : Nat) : Nat := leNat (memGetList Config.hostPowerOnByte s.mem.host a n)

/-- Writes n bytes of a number to host memory, little-endian. -/
def State.hostWrite (s : State) (a n w : Nat) : State :=
  { s with mem := { s.mem with host := memPutList Config.hostPowerOnByte s.mem.host a (bytesOf w n) } }

/-! ### Storage codes (R121, R433, R434) -/

/-- Whether a number is a power of two. -/
def isPow2 (n : Nat) : Bool := decide (0 < n) && (n &&& (n - 1)) == 0

/-- Positions of the data bits, D0 first: the positions that are no power of two (R433). -/
def dataPos : List Nat := (List.range 72).filter fun p => decide (3 ≤ p) && !isPow2 p

/-- Parity of the low n bits of a number. -/
def parityOf (n x : Nat) : Bool := (List.range n).foldl (fun acc i => acc != x.testBit i) false

/-- Positional check bits of an n-bit word with nk of them: their XOR of positions is this number (R433). -/
def posCheck (n d : Nat) : Nat :=
  ((List.range n).zip dataPos).foldl (fun acc ip => if d.testBit ip.1 then acc ^^^ ip.2 else acc) 0

/-- code(D) for n data bits and nk positional check bits: the overall parity is check bit nk (R433). -/
def eccCode (n nk d : Nat) : Nat :=
  let k := posCheck n d
  k + (if parityOf n d != parityOf nk k then 2 ^ nk else 0)

/-- What reading a stored codeword gives (R433). -/
inductive EccRead where
  | clean
  | fixed (d : Nat)
  | bad
deriving DecidableEq, Repr

/-- Reads the codeword (d, k) of n data bits and nk positional check bits (R433). -/
def eccRead (n nk d k : Nat) : EccRead :=
  let syn := posCheck n d ^^^ (k % 2 ^ nk)
  let p := parityOf n d != parityOf (nk + 1) k
  if syn = 0 then (if p then .fixed d else .clean)
  else if !p then .bad
  else if isPow2 syn && decide (syn < 2 ^ nk) then .fixed d
  else match ((List.range n).zip dataPos).find? (fun ip => ip.2 == syn) with
    | some (i, _) => .fixed (d ^^^ 2 ^ i)
    | none => .bad

/-- Saturating increment of a 32-bit counter. -/
def satInc (x : BitVec 32) : BitVec 32 := if x = 0xFFFFFFFF then x else x + 1

/-- Logs a corrected or an uncorrectable error of a die (Table 5-5): kind 1 register, 2 SRAM, 3 HBM, and its location. -/
def State.logEcc (s : State) (die kind loc : Nat) (bad : Bool) : State :=
  let e := s.pf.ecc.get die {}
  let e := { e with kind := kind, addrh := BitVec.ofNat 16 (loc / 2 ^ 32), addrl := BitVec.ofNat 32 loc }
  let e := if bad then { e with uecnt := satInc e.uecnt } else { e with cecnt := satInc e.cecnt }
  { s with pf := { s.pf with ecc := s.pf.ecc.set die e } }

/-- Enters or refreshes a row of a memory die's correction history; the oldest entry goes when 4,096 rows are held (R123). -/
def State.touchHistory (s : State) (m row : Nat) : State :=
  let h := ((s.mem.history.get m []).filter (· ≠ row)) ++ [row]
  let h := if 4096 < h.length then h.drop 1 else h
  { s with mem := { s.mem with history := s.mem.history.set m h } }

/-- Asks for the write-back of a corrected word at the bank's next idle cycle (R121). -/
def State.queueWriteback (s : State) (w : EccWord) : State :=
  { s with mem := { s.mem with writeback := if s.mem.writeback.contains w then s.mem.writeback else s.mem.writeback ++ [w] } }

/-- Bytes of one memory die's HBM in the address of HBM memory: 2^37 (R31). -/
def hbmSpan : Nat := 2 ^ 37

/-- Data of the 8-byte HBM word `w` (byte address divided by 8). -/
def State.hbmWord (s : State) (w : Nat) : Nat := leNat (memGetList Config.powerOnByte s.mem.hbm (8 * w) 8)

/-- Stores raw bytes in HBM without touching check bits. -/
def State.hbmRaw (s : State) (a : Nat) (bs : List Byte) : State :=
  { s with mem := { s.mem with hbm := memPutList Config.powerOnByte s.mem.hbm a bs } }

/-- Where the 256-byte unit of a die-local address stands: stack, channel of the stack and unit of the channel (R31). -/
def hbmPlace (m dla : Nat) : Nat × Nat × Nat :=
  let c := dla / 256 % 192
  (2 * m + c / 96, c % 96, dla / 256 / 192)

/-- Number of a row of a memory die's HBM, by its pseudo-channel and unit (R31, R123; notes/assumptions/16.md). -/
def hbmRow (m dla : Nat) : Nat :=
  let (stack, ch, u) := hbmPlace m dla
  (96 * (stack % 2) + ch) * 2 ^ 22 + u

/-- Unit of the die-local address space that a row is. -/
def rowUnit (row : Nat) : Nat := row % 2 ^ 22 * 192 + row / 2 ^ 22

/-- Reads the HBM word `w` through its code: corrections are logged, entered in the history and queued for write-back (R121, R123). -/
def State.hbmReadWord (s : State) (w : Nat) : State × Option Nat :=
  let d := s.hbmWord w
  if !s.mem.hbmCheck.has w then (s, some d)
  else
    let m := 8 * w / hbmSpan
    let dla := 8 * w % hbmSpan
    match eccRead 64 7 d (s.mem.hbmCheck.get w 0).toNat with
    | .clean => (s, some d)
    | .fixed d' => (((s.logEcc (Config.memDie m) 3 dla false).touchHistory m (hbmRow m dla)).queueWriteback (.hbm m w), some d')
    | .bad => (s.logEcc (Config.memDie m) 3 dla true, none)

/-- Reads `n` HBM words from word `w` on through the code; none when one is uncorrectable. -/
def State.hbmReadWords (s : State) (w n : Nat) : State × Option (List Byte) :=
  match n with
  | 0 => (s, some [])
  | n + 1 =>
    let (s, d) := s.hbmReadWord w
    match d with
    | none => (s, none)
    | some d =>
      let (s, rest) := s.hbmReadWords (w + 1) n
      (s, rest.map fun bs => bytesOf d 8 ++ bs)

/-- Reads `n` bytes of HBM from `a`, each word once through the code; none when a word is uncorrectable. -/
def State.hbmRead (s : State) (a n : Nat) : State × Option (List Byte) :=
  let (s, bs) := s.hbmReadWords (a / 8) ((a % 8 + n + 7) / 8)
  (s, bs.map fun bs => (bs.drop (a % 8)).take n)

/-- Writes bytes to one HBM word (their addresses lie in word `w`): a whole word replaces the codeword, a part of it is merged
through the code (R434). False when the stored word is uncorrectable. -/
def State.hbmWriteWord (s : State) (w : Nat) (bs : List (Nat × Byte)) : State × Bool :=
  let put := fun (s : State) => bs.foldl (fun s ab => s.hbmRaw ab.1 [ab.2]) s
  let clear := fun (s : State) => { s with mem := { s.mem with hbmCheck := s.mem.hbmCheck.del w } }
  if !s.mem.hbmCheck.has w then (put s, true)
  else if (List.range 8).all fun i => bs.any fun ab => ab.1 == 8 * w + i then (clear (put s), true)
  else
    let (s, d) := s.hbmReadWord w
    match d with
    | none => (s, false)
    | some d => (clear (put (s.hbmRaw (8 * w) (bytesOf d 8))), true)

/-- Writes (address, byte) pairs to HBM, word by word; false when a word was uncorrectable. -/
def State.hbmWrite (s : State) (bs : List (Nat × Byte)) : State × Bool :=
  ((bs.map fun ab => ab.1 / 8).eraseDups).foldl
    (fun r w =>
      let (s', ok) := r.1.hbmWriteWord w (bs.filter fun ab => ab.1 / 8 == w)
      (s', r.2 && ok)) (s, true)

/-! ### The home table, stage 2 and stage 1 -/

/-- A die's copy of a home-table entry (R33). -/
def State.homeEntry (s : State) (die slot : Nat) : Nat := ((s.mem.homeCopy.get die []).get slot 0).toNat

/-- Writes a home-table entry of the master copy and of every live die (R34). -/
def State.setHome (s : State) (slot : Nat) (v : BitVec 32) : State :=
  { s with mem := { s.mem with
      home := s.mem.home.set slot v
      homeCopy := ((List.range Config.dies).filter s.isLive).foldl
        (fun t d => t.set d ((t.get d []).set slot v)) s.mem.homeCopy } }

/-- The stage-2 entry of a slot at memory die m (R35). -/
def State.stage2 (s : State) (m slot : Nat) : Nat := (s.mem.stage2.get (m * Config.slots + slot) 0).toNat

/-- Writes a stage-2 entry. -/
def State.setStage2 (s : State) (m slot : Nat) (v : BitVec 64) : State :=
  { s with mem := { s.mem with stage2 := s.mem.stage2.set (m * Config.slots + slot) v } }

/-- PCTL of a partition (Table 3-5). -/
def State.pctl (s : State) (vf : Nat) : Pctl := s.pf.pctl.get vf {}

/-- PCTL.PRIV (R57). -/
def State.isPriv (s : State) (vf : Nat) : Bool := (s.pctl vf).w0.getLsbD 29

/-- PCTL.SEAL (R57). -/
def State.isSealed (s : State) (vf : Nat) : Bool := (s.pctl vf).w0.getLsbD 30

/-- Where a request for a granule slot goes (R33, R35, R43, R44): the memory die with the HBM address of the granule's first
byte, a first-touch binding, a pull, or an error completion. -/
inductive HomeRes where
  | at_ (m addr : Nat)
  | bind
  | pull
  | err (code : Nat)
deriving DecidableEq, Repr

/-- Looks a slot up in a die's copy of the home table and in the home's stage-2 table. -/
def State.homeOf (s : State) (die vf slot : Nat) : HomeRes :=
  let e := s.homeEntry die slot
  if fld e 0 9 ≠ vf then .err 5
  else if bit e 29 then .pull
  else if bit e 31 then
    let m := fld e 26 2
    let t := s.stage2 m slot
    if bit t 31 then .at_ m (m * hbmSpan + fld t 0 16 * 2 ^ 21) else .err 5
  else if bit e 28 && s.isPriv vf then .bind
  else .err 5

/-- The window of a partition in the home table: base and count (Table 2-2). -/
def State.htwin (s : State) (vf : Nat) : Nat × Nat :=
  let w := s.pf.htwin.get vf {}
  (fld w.w0.toNat 0 18, fld w.w1.toNat 0 18)

/-- The slot of a guest-physical address, none outside the partition's window (R33). -/
def State.slotOf (s : State) (vf gpa : Nat) : Option Nat :=
  let (base, count) := s.htwin vf
  let g := gpa / 2 ^ 21
  if g < count ∧ base + g < Config.slots then some (base + g) else none

/-- The location of a guest-physical address (notes/assumptions/12.md) and the error code that the compute die's home-table copy
already gives, 0 for none. -/
def State.locate (s : State) (die vf gpa : Nat) : Nat × Nat :=
  match s.slotOf vf gpa with
  | none => (Config.slots * 2 ^ 21 + gpa % 2 ^ 21, 5)
  | some slot =>
    let loc := slot * 2 ^ 21 + gpa % 2 ^ 21
    match s.homeOf die vf slot with
    | .err c => (loc, c)
    | _ => (loc, 0)

/-- Whether the contents of a location have first to be pulled, by the home-table copy of a die (R44). -/
def State.pulls (s : State) (die vf loc : Nat) : Bool := decide (s.homeOf die vf (loc / 2 ^ 21) = .pull)

/-- The error code with which the fill of a byte failed for one that waits for it (R44, R49). -/
def State.badFill (s : State) (who loc : Nat) : Option Nat :=
  (s.mem.fillBad.find? fun f => f.who == who && f.locs.contains loc).map FillBad.code

/-- Forgets the failed fills of one that waited: their error has been taken. -/
def State.dropBadFill (s : State) (who : Nat) : State :=
  if s.mem.fillBad.isEmpty then s else { s with mem := { s.mem with fillBad := s.mem.fillBad.filter fun f => f.who != who } }

/-- What stage 1 gives for an address (R37, R38). -/
inductive Xl where
  | hit (gpa : Nat)
  | miss
  | bad (tkind level : Nat)
deriving DecidableEq, Repr

/-- Whether a leaf permits an access: 0 read, 1 write, 2 read and write, 3 fetch (R37). -/
def permits (rd w x : Bool) (acc : Nat) : Bool :=
  match acc with
  | 0 => rd
  | 1 => w
  | 2 => rd && w
  | _ => x

/-- Stage-1 level of a page size given as a power of two (Table 2-4). -/
def levelOfSize (size : Nat) : Nat := if size = 30 then 1 else if size = 21 then 2 else 3

/-- Stage-1 translation from the die's translation cache: range, permission, a walk that has faulted, or a miss (R36 to R38, R323). -/
def State.xlate (s : State) (die vf asid acc va : Nat) : Xl :=
  if 2 ^ 56 ≤ va then .bad 0 0
  else match (s.mem.tlb.get die []).find? (fun e => e.asid == asid && e.vf == vf && va / 2 ^ e.size == e.vpage) with
    | some e => if permits e.rd e.w e.x acc then .hit (e.gpa + va % 2 ^ e.size) else .bad 2 (levelOfSize e.size)
    | none =>
      match (s.mem.walkBad.get die []).find? (fun w => w.asid == asid && w.vf == vf && w.page == va / 2 ^ 16) with
      | some w => .bad w.tkind w.level
      | none => .miss

/-- What the check of the bytes of an access gives: locations in order with the first error code met, a byte that cannot be had yet (its
translation misses, or its granule is to be pulled, R44), or a fault with its address (R323); fault kinds from 8 on stand for an error
completion (notes/assumptions/30.md). -/
inductive Chk where
  | ok (locs : List Nat) (err : Nat)
  | miss (va : Nat)
  | bad (tkind level va : Nat)
deriving DecidableEq, Repr

/-- Checks and locates the bytes of an access of context `k`, in order. -/
def State.chkBytes (s : State) (k acc : Nat) (vas : List Nat) : Chk :=
  match vas with
  | [] => .ok [] 0
  | va :: rest =>
    let c := s.ctx k
    match s.xlate (dieOf k) c.vf c.team.asid acc va with
    | .miss => .miss va
    | .bad t l => .bad t l va
    | .hit gpa =>
      let (loc, e) := s.locate (dieOf k) c.vf gpa
      match s.badFill k loc with
      | some code => .bad (8 + code) 0 va
      | none =>
        if e = 0 ∧ s.pulls (dieOf k) c.vf loc = true then .miss va
        else match s.chkBytes k acc rest with
          | .ok locs e' => .ok (loc :: locs) (if e = 0 then e' else e)
          | r => r


/-! ### Die views -/

/-- A byte of a die's view (R167). -/
def State.dvByte (s : State) (die loc : Nat) : DvByte := (s.ord.dv.get die []).get loc {}

/-- Replaces a byte of a die's view. -/
def State.setDv (s : State) (die loc : Nat) (b : DvByte) : State :=
  { s with ord := { s.ord with dv := s.ord.dv.set die ((s.ord.dv.get die []).set loc b) } }

/-- Whether a byte of a view can be read: VALID or pending (S2). -/
def DvByte.readable (b : DvByte) : Bool := b.valid || b.pend.isSome

/-- Data of the 4-byte die-cache word `w` as it is stored. -/
def State.dvWord (s : State) (die w : Nat) : Nat := leNat ((List.range 4).map fun i => (s.dvByte die (4 * w + i)).val)

/-- What reading the die-cache word `w` through its code gives (R121, R433). -/
def State.dvCode (s : State) (die w : Nat) : EccRead :=
  let chk := s.ord.dvCheck.get die []
  if !chk.has w then .clean else eccRead 32 6 (s.dvWord die w) (chk.get w 0).toNat

/-- The value of a byte of a view, read through the code of its word; none when that is uncorrectable (R121). -/
def State.dvVal (s : State) (die loc : Nat) : Option Byte :=
  match s.dvCode die (loc / 4) with
  | .clean => some (s.dvByte die loc).val
  | .fixed d => some (byteOf d (loc % 4))
  | .bad => none

/-- Logs what reading the die-cache word `w` finds, and asks for the write-back of a corrected word (R121, R124). -/
def State.dvNote (s : State) (die w : Nat) : State :=
  match s.dvCode die w with
  | .clean => s
  | .fixed _ => (s.logEcc die 2 w false).queueWriteback (.sram (.cache die w))
  | .bad => s.logEcc die 2 w true

/-- Reads bytes of a view, each word once through its code: their values; none when a word is uncorrectable (R121). -/
def State.dvRead (s : State) (die : Nat) (locs : List Nat) : State × Option (List Byte) :=
  if (s.ord.dvCheck.get die []).isEmpty then (s, some (locs.map fun l => (s.dvByte die l).val))
  else (((locs.map (· / 4)).eraseDups).foldl (fun s w => s.dvNote die w) s, locs.mapM (s.dvVal die))

/-- What reading some bytes outside a class queue (a fetch, a walk) finds is logged, once for each word that waits for its write-back. -/
def State.dvNoteOnce (s : State) (die : Nat) (locs : List Nat) : State :=
  if (s.ord.dvCheck.get die []).isEmpty then s
  else ((locs.map (· / 4)).eraseDups).foldl (fun s w =>
    if s.mem.writeback.contains (.sram (.cache die w)) then s else s.dvNote die w) s

/-- Forgets planted check bits of die-cache words. -/
def State.dvClean (s : State) (die : Nat) (words : List Nat) : State :=
  let chk := words.foldl (fun (t : AMap (BitVec 7)) w => t.del w) (s.ord.dvCheck.get die [])
  if (s.ord.dvCheck.get die []).isEmpty then s else { s with ord := { s.ord with dvCheck := s.ord.dvCheck.set die chk } }

/-- Prepares the die-cache words that a write covers in part: an erroneous one is corrected and logged, and its check bits are formed anew;
an uncorrectable one is logged and stays (R434). The words that stay. -/
def State.dvMerge (s : State) (die : Nat) (locs : List Nat) : State × List Nat :=
  if (s.ord.dvCheck.get die []).isEmpty then (s, [])
  else
    let part := ((locs.map (· / 4)).eraseDups).filter fun w => !((List.range 4).all fun i => locs.contains (4 * w + i))
    part.foldl (fun r w =>
      let s := r.1.dvNote die w
      match r.1.dvCode die w with
      | .clean => (s, r.2)
      | .fixed d => ((List.range 4).foldl (fun s i => s.setDv die (4 * w + i) { s.dvByte die (4 * w + i) with val := byteOf d i }) s, r.2)
      | .bad => (s, r.2 ++ [w])) (s, [])

/-- Whether store `id` is propagated at a die, or is no early store (R438). -/
def State.propagatedAt (s : State) (die id : Nat) : Bool := decide (id = 0) || (s.ord.propAt.get die []).contains id

/-- Marks a store as propagated at a die (R438). -/
def State.markProp (s : State) (die id : Nat) : State :=
  if s.propagatedAt die id then s
  else { s with ord := { s.ord with propAt := s.ord.propAt.set die (id :: s.ord.propAt.get die []) } }

/-! ### Messages (R167) -/

/-- Appends a message to UP(die, line). -/
def State.sendUp (s : State) (die line vf : Nat) (m : UpMsg) : State :=
  { s with ord := { s.ord with up := s.ord.up ++ [⟨die, line, vf, m, false, s.now⟩] } }

/-- Appends a message to DN(line, die). -/
def State.sendDn (s : State) (die line : Nat) (m : DnMsg) : State :=
  { s with ord := { s.ord with dn := s.ord.dn ++ [⟨die, line, m, false, s.now⟩] } }

/-- Whether a die is draining: it injects nothing of its own (R47). -/
def State.draining (s : State) (die : Nat) : Bool := decide (s.pf.phase = 2) && s.pf.leaving == die

/-- Asks for the fill of a line of the executing die, unless one is outstanding (S2a). -/
def State.askFill (s : State) (die line vf : Nat) : State :=
  if s.ord.fills.contains (die, line) || s.draining die then s
  else { s with ord := { s.ord with fills := (die, line) :: s.ord.fills } }.sendUp die line vf .f

/-- One that waits for a line (`FillBad.who`) asks for its fill, and is told when that fails. -/
def State.waitFill (s : State) (who die line vf : Nat) : State :=
  let s := if s.mem.waiters.contains (who, line) then s else { s with mem := { s.mem with waiters := s.mem.waiters ++ [(who, line)] } }
  s.askFill die line vf

/-- An access or a fetch of context `k` that cannot be checked at `va` yet: its page enters the die's miss queue, once, when the queue has
room (R38), or its granule is touched so that it is pulled (R44). -/
def State.queueMiss (s : State) (k acc va : Nat) : State :=
  let d := dieOf k
  let c := s.ctx k
  match s.xlate d c.vf c.team.asid acc va with
  | .hit gpa => s.waitFill k d ((s.locate d c.vf gpa).1 / 64) c.vf
  | _ =>
    let q := s.mem.missq.get d []
    if q.any (fun e => e.vf == c.vf && e.asid == c.team.asid && e.va / 2 ^ 16 == va / 2 ^ 16) || decide (Config.missEntries ≤ q.length) then s
    else { s with mem := { s.mem with missq := s.mem.missq.set d (q ++ [⟨c.vf, c.team.asid, va⟩]) } }

/-! ### Code bytes (R279; notes/assumptions/10.md) -/

/-- What fetching a code byte gives. -/
inductive Fetched where
  | byte (b : Byte)
  | miss
  | wait (line : Nat)
  | xbad (tkind level : Nat)
  | err (code : Nat)
deriving DecidableEq, Repr

/-- Fetches the code byte at `va` for context `k` from the die's view, which fills it first. -/
def State.fetchByte (s : State) (k va : Nat) : Fetched :=
  let c := s.ctx k
  let d := dieOf k
  match s.xlate d c.vf c.team.asid 3 va with
  | .miss => .miss
  | .bad t l => .xbad t l
  | .hit gpa =>
    match s.locate d c.vf gpa with
    | (loc, 0) =>
      if (s.dvByte d loc).readable then
        match s.dvVal d loc with
        | some b => .byte b
        | none => .err 1
      else match s.badFill k loc with
        | some e => .err e
        | none => .wait (loc / 64)
    | (_, e) => .err e

/-- The locations of code bytes of context `k` that translate. -/
def State.codeLocs (s : State) (k : Nat) (vas : List Nat) : List Nat :=
  let c := s.ctx k
  vas.filterMap fun va => match s.xlate (dieOf k) c.vf c.team.asid 3 va with
    | .hit gpa => some (s.locate (dieOf k) c.vf gpa).1
    | _ => none

/-- The halfword at `va`, or why it cannot be had. -/
def State.fetchHalf (s : State) (k va : Nat) : Except Fetched (Byte × Byte) :=
  match s.fetchByte k va with
  | .byte b0 =>
    match s.fetchByte k (va + 1) with
    | .byte b1 => .ok (b0, b1)
    | e => .error e
  | e => .error e

/-- What the target of a transfer is: a block header, something else, or not to be had yet (R139). -/
inductive Target where
  | header
  | other
  | miss (va : Nat)
  | wait (line : Nat)
  /-- its fetch faults: reported when the instruction there would issue (R279; notes/assumptions/18.md) -/
  | unfetchable
deriving DecidableEq, Repr

/-- Looks at the first halfword of a transfer's target: major 0 of a 32-bit word (Table 13-3). -/
def State.target (s : State) (k va : Nat) : Target :=
  if va % 2 = 1 then .other
  else match s.fetchHalf k va with
    | .ok (b0, _) => if fld b0.toNat 0 6 = 1 then .header else .other
    | .error .miss => .miss va
    | .error (.wait l) => .wait l
    | .error _ => .unfetchable

/-! ### Tokens (R141 to R143, Table 13-5) -/

/-- The streams that bits 0 to 2 of a wait or push set name in stream `st`. -/
def setOthers (st : Strm) : List Nat :=
  match st with
  | .c => [1, 2, 3]
  | .m => [0, 2, 3]
  | .v => [0, 1, 3]
  | .y => [0, 1, 2]

/-- Members of a 3-bit set in stream `st`, as stream numbers. -/
def setMembers (st : Strm) (mask : Nat) : List Nat :=
  (((List.range 3).zip (setOthers st)).filter fun p => mask.testBit p.1).map Prod.snd

/-- FIFOs x → self of a wait set. -/
def waitKeys (st : Strm) (mask : Nat) : List Nat := (setMembers st mask).map fun x => 4 * x + strmIx st

/-- FIFOs self → y of a push set. -/
def pushKeys (st : Strm) (mask : Nat) : List Nat := (setMembers st mask).map fun y => 4 * strmIx st + y

/-- Takes one token from each FIFO when every one has a token (R143, point 1). -/
def takeTokens (tok : AMap Nat) (keys : List Nat) : Option (AMap Nat) :=
  if keys.all fun q => decide (0 < tok.get q 0) then
    some (keys.foldl (fun t q => t.set q (t.get q 0 - 1)) tok)
  else none

/-- Adds one token to each FIFO when none of them holds 15 (R143, point 3). -/
def pushTokens (tok : AMap Nat) (keys : List Nat) : Option (AMap Nat) :=
  if keys.all fun q => decide (tok.get q 0 < 15) then
    some (keys.foldl (fun t q => t.set q (t.get q 0 + 1)) tok)
  else none

/-! ### Retirement (R143, R174) -/

/-- Writes HVEC, HSTAT or FRSEL (Tables 14-3 to 14-5): read-only and reserved fields keep their values; an ACT of 3 leaves ACT. -/
def Ctx.writeHandlerCsr (c : Ctx) (n : Nat) (v : Word) : Ctx :=
  match n with
  | 1 => { c with hvec := v &&& 0x80FFFFFFFFFFFFFF }
  | 2 => { c with hpc := BitVec.ofNat 56 (v.toNat / 256) }
  | _ =>
    let sel := fld v.toNat 0 2
    let act := fld v.toNat 8 2
    { c with sel := sel, act := if act = 3 then c.act else c.act.set sel act }

/-- `rdv` retires: every stream of the engines is IDLE (R138). -/
def Ctx.allIdle (c : Ctx) : Ctx :=
  { c with sm := { c.sm with stat := .idle }, sv := { c.sv with stat := .idle }, sy := { c.sy with stat := .idle } }

/-- An effect at retirement. -/
def Ctx.applyEff (c : Ctx) (e : RetEff) : Ctx :=
  match e with
  | .guard slot v => { c with guard := c.guard.set slot v }
  | .csr n v => c.writeHandlerCsr n v
  | .shape d w x =>
    { c with
      d := c.d.set d w, dext := match x with | some e => c.dext.set d e | none => c.dext
      regCheck := c.regCheck.filter fun e =>
        !((decide (64 + 16 * d ≤ e.1) && decide (e.1 < 80 + 16 * d)) ||
          (x.isSome && decide (320 + 8 * d ≤ e.1) && decide (e.1 < 328 + 8 * d))) }
  | .idle => c.allIdle

/-- Retires completed instructions from the front, in program order, while their pushes have room, with their effects, which only
instructions of the control stream have. An instruction whose access completed with an error code stays at the front. -/
def retireList (st : Strm) (c : Ctx) (rob : List Rob) : Ctx × List Rob :=
  match rob with
  | [] => (c, [])
  | r :: rest =>
    if r.done && decide (r.err = 0) then
      match pushTokens c.tok (pushKeys st r.push) with
      | some tok => retireList st ((if st = .c then r.eff else []).foldl Ctx.applyEff { c with tok := tok }) rest
      | none => (c, r :: rest)
    else (c, r :: rest)

/-- Retires what can retire in one stream of a context. -/
def Ctx.retire (c : Ctx) (st : Strm) : Ctx :=
  let (c, rob) := retireList st c (c.strm st).rob
  c.upStrm st fun x => { x with rob := rob }

/-- Marks the issued instruction `id` of a stream complete, with an error code (0 for none). -/
def Ctx.complete (c : Ctx) (st : Strm) (id err : Nat) : Ctx :=
  c.upStrm st fun x => { x with rob := x.rob.map fun r => if r.id = id then { r with done := true, err := err } else r }

/-- An issued instruction completes; what can retire does. -/
def State.complete (s : State) (k : Nat) (st : Strm) (id : Nat) : State :=
  s.upCtx k fun c => { (c.complete st id 0).retire st with idleFrom := (s.cycle (dieOf k)).toNat }

/-! ### Blocks (R282 to R285) -/

/-- First address behind a block. -/
def Block.stop (b : Block) : Nat := b.hdr + 2 * b.len

/-- Whether a block's halfwords contain an address. -/
def Block.holds (b : Block) (a : Nat) : Bool := decide (b.hdr ≤ a) && decide (a < b.stop)

/-- Goes on at `next`: at the end of the innermost block its body runs again while repetitions remain, else the block closes (R283). -/
def stepBlocks (bs : List Block) (next : Nat) : List Block × Nat :=
  match bs with
  | [] => ([], next)
  | b :: rest =>
    if b.stop ≤ next then
      (if 1 < b.rem ∧ 2 < b.len then ({ b with rem := b.rem - 1 } :: rest, b.hdr + 4) else stepBlocks rest next)
    else (b :: rest, next)

/-- The blocks that stay open when control goes to `a` (R285). -/
def keepBlocks (bs : List Block) (a : Nat) : List Block := bs.filter fun b => b.holds a

/-- The stream leaves an instruction: next PC, no prefix in force. -/
def StreamSt.leave (x : StreamSt) (bs : List Block) (a : Nat) : StreamSt :=
  { x with blocks := bs, pc := a, fp := a, pfx := none, rpt := none, discard := false, committed := false, mpos := 0 }

/-- Whether the instruction at the boundary is on its last iteration (R287). -/
def StreamSt.lastIter (x : StreamSt) : Bool :=
  match x.rpt with
  | some r => decide (r.n ≤ r.iter + 1)
  | none => true

/-- The pushes that the instruction at the boundary makes when it retires; only the last iteration makes them (R289). -/
def StreamSt.pushes (x : StreamSt) : Nat :=
  if x.lastIter then (match x.pfx with | some p => p.push | none => 0) else 0

/-- Past the instruction, or to its next iteration. -/
def StreamSt.advance (x : StreamSt) (next : Nat) : StreamSt :=
  if x.lastIter then
    let (bs, a) := stepBlocks x.blocks next
    x.leave bs a
  else { x with rpt := x.rpt.map fun r => { r with iter := r.iter + 1 }, committed := false, mpos := 0 }

/-- The executing instruction has issued: it enters the list of unretired instructions, complete or not, with the effects it has
at retirement, and the stream goes on. In exposed mode it counts as one issue slot (R4). -/
def State.issuedEff (s : State) (id : Nat) (done : Bool) (eff : List RetEff) : State :=
  s.upHere fun c =>
    let x := c.strm s.cur.st
    let r : Rob :=
      { id := id, done := done, push := x.pushes, pc := s.cur.pc, err := 0, eff := eff,
        iter := if s.cur.st = .v then x.rpt.map Rpt.iter else none }
    let x := { x with rob := x.rob ++ [r] }
    let c := c.setStrm s.cur.st (x.advance s.cur.next)
    let c := if s.cur.st = .v then { c with vec := { c.vec with slot := c.vec.slot + 1 } } else c
    { c.retire s.cur.st with idleFrom := (s.cycle (dieOf s.cur.ctx)).toNat }

/-- The executing instruction has issued, with no effect of its own at retirement. -/
def State.issued (s : State) (id : Nat) (done : Bool) : State := s.issuedEff id done []

/-- The executing instruction has issued and had its whole effect. -/
def State.finish (s : State) : State := s.freshId.issued s.ord.nextId true

/-- The executing instruction transfers control: the blocks that do not contain the target close, and the stream goes on there (R285). -/
def State.transfer (s : State) (a : Nat) : State :=
  s.freshId.upHere fun c =>
    let x := c.strm s.cur.st
    let r : Rob := { id := s.ord.nextId, done := true, push := x.pushes, pc := s.cur.pc, err := 0, eff := [] }
    let x := { x with rob := x.rob ++ [r] }
    let c := c.setStrm s.cur.st (x.leave (keepBlocks x.blocks a) a)
    let c := if s.cur.st = .v then { c with vec := { c.vec with slot := c.vec.slot + 1 } } else c
    { c.retire s.cur.st with idleFrom := (s.cycle (dieOf s.cur.ctx)).toNat }

/-! ### Ending a task's instance -/

/-- The grid point whose placement holds context `k`. -/
def State.instOf (s : State) (k : Nat) : Option Inst := s.sched.insts.find? fun i => i.id == (s.ctx k).team.inst

/-- Changes the grid point with number `id`. -/
def State.upInst (s : State) (id : Nat) (f : Inst → Inst) : State :=
  { s with sched := { s.sched with insts := s.sched.insts.map fun i => if i.id = id then f i else i } }

/-- Changes the task with sequence number `seq`. -/
def State.upTask (s : State) (seq : Nat) (f : Task → Task) : State :=
  { s with sched := { s.sched with tasks := s.sched.tasks.map fun t => if t.seq = seq then f t else t } }

/-- Contexts of a grid point. -/
def Inst.ctxs (i : Inst) : List Nat := i.teams.flatMap fun t => t.ctxs

/-- Asks every stream of a context to stop at its boundary (R246). -/
def Ctx.askStop (c : Ctx) : Ctx :=
  { c with sc := { c.sc with stopReq := true }, sm := { c.sm with stopReq := true },
           sv := { c.sv with stopReq := true }, sy := { c.sy with stopReq := true } }

/-- Asks every context of a task's grid points to stop (R70). -/
def State.stopTask (s : State) (seq : Nat) : State :=
  ((s.sched.insts.filter fun i => i.seq == seq && decide (i.stat = .running)).flatMap Inst.ctxs).foldl (fun s k => s.upCtx k Ctx.askStop) s

/-- Asks for a task's ending with a status, ERR and FVA; the first request stands. Its streams are stopped (R83, R244). -/
def State.endTask (s : State) (seq status err fva : Nat) : State :=
  (s.upTask seq fun t => if t.ending.isNone then { t with ending := some (status, err, fva) } else t).stopTask seq

/-! ### Taking an exception -/

/-- Cause codes (Table 11-1). -/
def cILLEGAL : Nat := 1
/-- See `cILLEGAL`. -/
def cCTLINT : Nat := 2
/-- See `cILLEGAL`. -/
def cSTREAM : Nat := 3
/-- See `cILLEGAL`. -/
def cDESC : Nat := 4
/-- See `cILLEGAL`. -/
def cTILE : Nat := 5
/-- See `cILLEGAL`. -/
def cXLATE : Nat := 6
/-- See `cILLEGAL`. -/
def cDATAERR : Nat := 7
/-- See `cILLEGAL`. -/
def cWRITEERR : Nat := 8
/-- See `cILLEGAL`. -/
def cACKLOST : Nat := 9
/-- See `cILLEGAL`. -/
def cCHECK : Nat := 10
/-- See `cILLEGAL`. -/
def cPROTECT : Nat := 11
/-- See `cILLEGAL`. -/
def cBOUND : Nat := 12
/-- See `cILLEGAL`. -/
def cALIGN : Nat := 13
/-- See `cILLEGAL`. -/
def cSHAPE : Nat := 14
/-- See `cILLEGAL`. -/
def cDEADLOCK : Nat := 15
/-- See `cILLEGAL`. -/
def cSVC : Nat := 16
/-- See `cILLEGAL`. -/
def cBREAK : Nat := 17
/-- See `cILLEGAL`. -/
def cPRIV : Nat := 18
/-- See `cILLEGAL`. -/
def cSAVEBAD : Nat := 19

/-- Replaces the failed walks of a die. -/
def State.setWalkBad (s : State) (die : Nat) (w : List WalkBad) : State := { s with mem := { s.mem with walkBad := s.mem.walkBad.set die w } }

/-- A translation fault is taken: the walk behind it is forgotten, so that a Retry walks again (R37, R38). An error completion of a table
read stands in the record as DATAERR. -/
def State.takeXlate (s : State) (k : Nat) (f : FaultRec) : State × FaultRec :=
  if f.cause ≠ cXLATE then (s, f)
  else
    let d := dieOf k
    let c := s.ctx k
    let w := (s.mem.walkBad.get d []).filter fun w => !(w.asid == c.team.asid && w.vf == c.vf && w.page == f.fva / 2 ^ 16)
    ((if 8 ≤ f.tkind then s.dropBadFill k else s).setWalkBad d w,
      if 8 ≤ f.tkind then { f with cause := cDATAERR, err := f.tkind - 8, tkind := 0, level := 0 } else f)

/-- ONE operation for every trap and fault (R241): the record of the stream is filled and VALID set, and the stream stops.
A second fault in a stream whose record is VALID is not recorded; it can arise in the handler only. -/
def State.takeFault (s : State) (k : Nat) (f : FaultRec) : State :=
  let (s, f) := s.takeXlate k f
  s.upCtx k fun c =>
    if (c.frec.get (strmIx f.st) {}).valid then c.upStrm f.st fun x => { x with faulted := true }
    else { c with frec := c.frec.set (strmIx f.st) { f with valid := true, since := s.now } }.upStrm f.st fun x => { x with faulted := true }

/-- Whether a fault of a stream can be taken now: its record is not VALID, or the handler itself faults (R241, R244). -/
def Ctx.mayRecord (c : Ctx) (st : Strm) : Bool := !(c.frec.get (strmIx st) {}).valid || (c.hmode && decide (st = .c))

/-- The executing instruction takes a precise fault: only when every earlier instruction of its stream has retired (R239); until
then it waits. A repeated vector instruction has the iterations retired as its position (R163, Table 6-4). -/
def State.fault (s : State) (f : FaultRec) : State :=
  let j := match s.me.rpt with | some r => if s.cur.st = .v && decide (f.cause ≠ cBOUND) then r.iter else f.cpos | none => f.cpos
  if s.me.rob.isEmpty then
    s.takeFault s.cur.ctx { f with st := s.cur.st, pc := s.cur.pc, cpos := j, spos := Nat.max j f.spos }
  else s

/-- A precise fault of a cause with no detail. -/
def State.faultC (s : State) (cause : Nat) : State := s.fault { cause := cause }

/-- A precise fault of a cause with a sub-code. -/
def State.faultSub (s : State) (cause sub fva : Nat) : State := s.fault { cause := cause, sub := sub, fva := fva }

/-- The executing instruction raises a trap: its record names it, and the stream goes on behind it after `eret` (R239, R304). -/
def State.trap (s : State) (cause sub : Nat) : State :=
  if s.me.rob.isEmpty then
    s.finish.takeFault s.cur.ctx { cause := cause, sub := sub, st := s.cur.st, pc := s.cur.pc }
  else s

/-- The executing instruction is an illegal instruction (R8, R296). -/
def State.illegal (s : State) : State := s.faultC cILLEGAL

/-- The write error or lost acknowledgement that a fence or acquire covering the classes of `mask` reports, and the stream without
it (R50, R181, R240). A write error goes first (notes/assumptions/19.md). -/
def StreamSt.syncFault (x : StreamSt) (mask : Nat) : Option (FaultRec × StreamSt) :=
  match x.werr.find? fun w => mask.testBit w.cls with
  | some w => some ({ cause := cWRITEERR, impr := true, err := w.code, cls := w.cls, fva := w.va }, { x with werr := x.werr.erase w })
  | none =>
    match (List.range 16).find? fun n => mask.testBit n && x.lost.getLsbD n with
    | some n =>
      let va := match x.lostVa.find? (fun w => w.cls == n) with | some w => w.va | none => 0
      some ({ cause := cACKLOST, impr := true, cls := n, fva := va },
        { x with lost := x.lost &&& ~~~(BitVec.ofNat 16 (2 ^ n)), lostVa := x.lostVa.filter fun w => w.cls != n })
    | none => none

/-- Whether a fence or acquire that covers the classes of `mask` faults. -/
def StreamSt.syncDue (x : StreamSt) (mask : Nat) : Bool := (x.syncFault mask).isSome

/-- Error code that marks a fence or acquire at which a write error or lost acknowledgement is to be reported. -/
def syncMark : Nat := 16

/-- Error code that marks a `dld` whose codebook entry lies beyond the tensor table (R347). -/
def descMark : Nat := 17

/-- Error codes from here on mark a translation fault that a read met after issue: this plus 4 · kind + level (R437). -/
def xlMark : Nat := 32

/-- Classes that the accesses of a set-aside instruction cover: the mask of a fence, every class for an acquire. -/
def Access.covers (a : Access) : Nat :=
  match a.kind with
  | .fence mask _ => mask
  | _ => if a.acq then 65535 else 0

/-- A read whose access completed with an error code, or a fence or acquire that reports an earlier one, reaches the front of its
stream: its record is written with the shadow in ENTRY, and it is set aside so that the shadow retires behind it (R437, R240). -/
def State.reportAside (s : State) (k : Nat) (st : Strm) : State :=
  let x := s.strm k st
  match x.rob with
  | r :: rest =>
    if r.done && decide (r.err ≠ 0) && (s.ctx k).mayRecord st then
      let mine := x.redo.filter fun (a : Access × Nat) => a.1.rob == r.id
      let x := { x with rob := rest, redo := x.redo.map fun (a : Access × Nat) => if a.1.rob = r.id then (a.1, r.push) else a }
      let (f, x) :=
        if r.err = syncMark then
          match x.syncFault (mine.foldl (fun m a => m ||| a.1.covers) 0) with
          | some fx => fx
          | none => ({ cause := cWRITEERR, impr := true }, x)
        else
          let (va, unit) := match mine, r.iter with
            | a :: _, some j => (a.1.va, j)
            | a :: _, none => (a.1.va, a.1.unit)
            | [], _ => (0, 0)
          let spec := unit + (if r.iter.isSome then 1 + (rest.takeWhile fun e => e.pc == r.pc && e.iter.isSome).length else 0)
          if r.err = descMark then ({ cause := cDESC, entry := Nat.min rest.length 65535 }, x)
          else if xlMark ≤ r.err then
            ({ cause := cXLATE, tkind := (r.err - xlMark) / 4, level := r.err % 4, fva := va, entry := Nat.min rest.length 65535,
               cpos := unit, spos := spec }, x)
          else ({ cause := cDATAERR, err := r.err, fva := va, entry := Nat.min rest.length 65535, cpos := unit, spos := spec }, x)
      ((s.upCtx k fun c => c.setStrm st x).takeFault k { f with st := st, pc := r.pc }).upCtx k fun c => c.retire st
    else s
  | [] => s

/-- The stream of the lowest number whose record is VALID. -/
def Ctx.firstFault (c : Ctx) : Option FaultRec :=
  ((List.range 4).map fun n => c.frec.get n {}).find? fun f => f.valid

/-- Whether two copies brought the same to a compare: equal words, or the same cause at the same PC (R112, R245). -/
def SigVal.same (a b : SigVal) : Bool :=
  match a, b with
  | .word x, .word y => x == y
  | .fault c p _ _, .fault c' p' _ _ => c == c' && p == p'
  | _, _ => false

/-- The key of a stream's epochs (R112). -/
def State.ekey (s : State) (k : Nat) (st : Strm) : Option EKey :=
  let t := (s.ctx k).team
  s.prot.keys.find? fun e => e.inst == t.inst && e.stage == t.stage && e.replica == t.replica && e.tidx == t.tidx && e.st == st

/-- Epoch n of a key; OPEN with nothing in it when none is held. -/
def State.epoch (s : State) (key n : Nat) : Epoch :=
  match s.prot.epochs.find? (fun e => e.key == key && e.n == n) with
  | some e => e
  | none => { key := key, n := n, stat := .open_, words := [], recs := [], out := [] }

/-- Stores an epoch. -/
def State.setEpoch (s : State) (e : Epoch) : State :=
  let es := s.prot.epochs
  let es := if es.any (fun p => p.key == e.key && p.n == e.n)
    then es.map fun p => if p.key = e.key ∧ p.n = e.n then e else p else es ++ [e]
  { s with prot := { s.prot with epochs := es } }

/-- Whether a copy holds a role or is the tie-break copy of a class 2 grid point (R115). -/
def Inst.hasRole (i : Inst) (copy : Nat) : Bool := copy == i.primary || copy == i.secondary || decide (i.tie = some copy)

/-- An epoch enters VOTE between the copies that hold the roles; a tie-break copy is due unless one stands already (R115). -/
def State.toVote (s : State) (i : Inst) (p : Epoch) : State :=
  (s.setEpoch { p with stat := .vote, voters := [i.primary, i.secondary], tie := i.tie.getD i.copyNext }).upInst i.id
    fun i => if i.tie.isSome then i else { i with tieDue := true }

/-- A class 2 copy whose instance would end by this fault stops, and brings the fault to its open epoch on the faulting stream in place of a
word; for a copy that holds a role the epoch enters VOTE, or in R117 is compared with the survivor's (R245). One that faults in an
epoch already released differs from the log's chain (R116). -/
def State.copyFaults (s : State) (k : Nat) (f : FaultRec) (i : Inst) (e : EKey) : State :=
  let c := s.ctx k
  let copy := c.team.copy
  let n := (c.strm f.st).epoch
  let p := s.epoch e.key n
  if n < (s.prot.logs.get e.key {}).count ∨ p.stat = .release then s.endTask i.seq 8 0 0
  else if p.words.has copy then s
  else
    let p := { p with words := p.words.set copy (.fault f.cause f.pc f.err f.fva) }
    let s := if i.replaced || p.stat == .vote || !(copy == i.primary || copy == i.secondary) then s.setEpoch p else s.toVote i p
    s.upCtx k Ctx.askStop

/-- The record of a grid point that became VALID first; of those of one cycle the one of the lowest core, then stream (R244). -/
def State.firstRecord (s : State) (k : Nat) : FaultRec :=
  let ks := match s.instOf k with | some i => i.ctxs | none => [k]
  let rs := ks.flatMap fun j => ((List.range 4).map fun n => (j, (s.ctx j).frec.get n {})).filter fun r => r.2.valid
  match rs.foldl (fun (b : Option (Nat × FaultRec)) r =>
      match b with
      | none => some r
      | some o => if r.2.since < o.2.since ∨ (r.2.since = o.2.since ∧ r.1 < o.1) then some r else b) none with
  | some r => r.2
  | none => {}

/-- A fault that no handler takes ends the task with status 6, with ERR and FVA of the record `r`; in a class 2 copy it counts as a
disagreement (R244, R245). -/
def State.voteOrEnd (s : State) (k : Nat) (f r : FaultRec) : State :=
  let seq := (s.ctx k).team.seq
  if (s.ctx k).team.pclass ≠ 2 then s.endTask seq 6 r.err r.fva
  else match s.instOf k, s.ekey k f.st with
    | some i, some e => s.copyFaults k f i e
    | _, _ => s.endTask seq 6 r.err r.fva

/-- Delivery (R242): the next PC goes to HSTAT, HMODE is set, and the control stream starts at the handler's entry block; the block
state is kept for `eret` (R285), and a binding write that waits is made again after it. -/
def Ctx.enterHandler (c : Ctx) : Ctx :=
  let x := c.sc
  { c with
    hpc := BitVec.ofNat 56 x.pc
    hmode := true
    mustDeliver := false
    dvbWait := []
    hsave := some ⟨x.blocks, x.pfx, x.rpt, x.discard, x.waitN, x.pc, x.mpos,
      (List.range 4).filter fun n => (c.frec.get n {}).valid⟩
    sc := { x with faulted := false, waitN := 0 }.leave (keepBlocks x.blocks (c.hvec.toNat % 2 ^ 56)) (c.hvec.toNat % 2 ^ 56) }

/-- Delivers the context's faults to its handler, or ends the instance (R242, R244): with HVEC.EN = 0, with a control-stream record
or a DEADLOCK while HMODE = 1. An entry that is no block header raises CTLINT in the handler, which ends the instance (Table 14-3). -/
def State.deliver (s : State) (k : Nat) : State :=
  let c := s.ctx k
  match c.firstFault with
  | none => s
  | some f =>
    if !c.hvec.getLsbD 63 then s.voteOrEnd k f (s.firstRecord k)
    else if c.hmode then
      (if c.sc.faulted then s.voteOrEnd k (c.frec.get 0 {}) (s.firstRecord k) else s)
    else match s.target k (c.hvec.toNat % 2 ^ 56) with
      | .header | .unfetchable => s.upCtx k Ctx.enterHandler
      | .other =>
        let s := s.upCtx k Ctx.enterHandler
        let s := s.takeFault k { cause := cCTLINT, st := .c, pc := c.hvec.toNat % 2 ^ 56 }
        s.voteOrEnd k { cause := cCTLINT, pc := c.hvec.toNat % 2 ^ 56 } (s.firstRecord k)
      | .miss va => s.queueMiss k 3 va
      | .wait l => s.waitFill k (dieOf k) l c.vf

/-- A record and its stream are cleared at `eret` (R243). -/
def Ctx.clearFault (c : Ctx) (st : Strm) : Ctx :=
  { c with frec := c.frec.set (strmIx st) { c.frec.get (strmIx st) {} with valid := false } }.upStrm st
    fun x => { x with faulted := false }

/-- Element `e` with bit pattern `w` enters the vector word (R106). -/
def vaccAdd (acc : AMap Nat) (e w : Nat) : AMap Nat := acc.set (e % 16) ((2 * acc.get (e % 16) 0 + w % 15) % 15)

/-- The vector word of 16 accumulators (R106). -/
def vecWord (acc : AMap Nat) : BitVec 64 := BitVec.ofNat 64 ((List.range 16).foldl (fun w p => w + acc.get p 0 * 16 ^ p) 0)

/-- Contributions whose turn has come enter the accumulators, in issue order; a commit point makes their word and clears them (R106, R108).
The accumulators, the words sealed, and what waits. -/
def drainSign (acc : AMap Nat) (ws : List (Nat × BitVec 64)) (q : List SignItem) : AMap Nat × List (Nat × BitVec 64) × List SignItem :=
  match q with
  | .elems es :: rest => drainSign (es.foldl (fun a e => vaccAdd a e.1 e.2) acc) ws rest
  | .seal n :: rest => drainSign [] (ws ++ [(n, vecWord acc)]) rest
  | q => (acc, ws, q)

/-- Changes the list of contributions of a context, of which those whose turn has come enter the word. -/
def Ctx.signs (c : Ctx) (f : List SignItem → List SignItem) : Ctx :=
  let (acc, ws, q) := drainSign c.sv.vacc c.vec.words (f c.vec.sign)
  { c with vec := { c.vec with sign := q, words := ws }, sv := { c.sv with vacc := acc } }

/-- The contributions of a load whose data has come, or that is skipped, take its place. -/
def putElems (rob : Nat) (es : List (Nat × Nat)) (q : List SignItem) : List SignItem :=
  q.map fun e => if e = .await rob then .elems es else e

/-- What the stream's record reports of those set aside: the one that is no longer among the unretired instructions (R437). -/
def StreamSt.reported (x : StreamSt) : Option (Access × Nat) := x.redo.find? fun e => !(x.rob.any fun r => r.id == e.1.rob)

/-- The register that an access will write is pending again. -/
def Ctx.pendAgain (c : Ctx) (a : Access) : Ctx :=
  match a.sink with
  | .shape d .. => { c with dpend := (d, a.id) :: c.dpend }
  | .gReg d .. | .gCell d _ | .gOld d =>
    { c with gpend := (if d = 0 then [] else [(d, a.id)]) ++ c.gpend.filter (fun p => p.1 ≠ d) }
  | _ => c

/-- Retry or Skip of the instruction that was set aside and reported (R437, R181): Retry issues its accesses again, alone, ahead of the
stream's other work; Skip forgets its pending result; both make its pushes when it retires. -/
def Ctx.redoAside (c : Ctx) (st : Strm) (pc : Nat) (skip : Bool) : Ctx :=
  match (c.strm st).reported with
  | some (a, push) =>
    let x := c.strm st
    let mine := x.redo.filter fun e => e.1.rob == a.rob
    let x := { x with redo := x.redo.filter fun e => e.1.rob != a.rob }
    if skip then
      ({ c with vec := { c.vec with landing := c.vec.landing.filter (fun l => l.rob != a.rob) } }.setStrm st
        { x with rob := ⟨a.rob, true, push, pc, 0, [], none⟩ :: x.rob }).signs (putElems a.rob [])
    else (mine.foldl (fun (c : Ctx) e => c.pendAgain e.1) c).setStrm st
      { x with cq := mine.map (fun e => { e.1 with err := 0 }) ++ x.cq, rob := ⟨a.rob, false, push, pc, 0, [], none⟩ :: x.rob }
  | none => c

end Sys2Proof.Machine
end

