-- ==== Sys2Proof/Machine/Operands.lean ====
section
/-!
DEFINITION. Sys2Proof/Machine/Operands.lean: reading and writing registers, the register operands of every instruction in the
order of its assembly form, how a repeat prefix steps them (R287), and the register sources that the interlocks watch.
-/

namespace Sys2Proof.Machine

/-! ### Register operands -/

/-- Applies `f` to every register or handle operand; the first argument of `f` is the operand's place in the assembly form, counting
from 0 (R287). A vector source keeps its direction. -/
def mapRegs (f : Nat → Nat → Nat) (i : Instr) : Instr :=
  match i with
  | .csrr reg csr => .csrr (f 0 reg) csr
  | .csrw csr reg => .csrw csr (f 0 reg)
  | .dstc ga gb gc => .dstc (f 0 ga) (f 1 gb) (f 2 gc)
  | .dstcSram ga gb gc => .dstcSram (f 0 ga) (f 1 gb) (f 2 gc)
  | .mov gd ga => .mov (f 0 gd) (f 1 ga)
  | .add gd ga gb => .add (f 0 gd) (f 1 ga) (f 2 gb)
  | .sub gd ga gb => .sub (f 0 gd) (f 1 ga) (f 2 gb)
  | .and gd ga gb => .and (f 0 gd) (f 1 ga) (f 2 gb)
  | .or gd ga gb => .or (f 0 gd) (f 1 ga) (f 2 gb)
  | .xor gd ga gb => .xor (f 0 gd) (f 1 ga) (f 2 gb)
  | .shl gd ga gb => .shl (f 0 gd) (f 1 ga) (f 2 gb)
  | .shr gd ga gb => .shr (f 0 gd) (f 1 ga) (f 2 gb)
  | .sar gd ga gb => .sar (f 0 gd) (f 1 ga) (f 2 gb)
  | .mul gd ga gb => .mul (f 0 gd) (f 1 ga) (f 2 gb)
  | .mulh gd ga gb => .mulh (f 0 gd) (f 1 ga) (f 2 gb)
  | .mulhu gd ga gb => .mulhu (f 0 gd) (f 1 ga) (f 2 gb)
  | .div gd ga gb => .div (f 0 gd) (f 1 ga) (f 2 gb)
  | .divu gd ga gb => .divu (f 0 gd) (f 1 ga) (f 2 gb)
  | .rem gd ga gb => .rem (f 0 gd) (f 1 ga) (f 2 gb)
  | .remu gd ga gb => .remu (f 0 gd) (f 1 ga) (f 2 gb)
  | .min gd ga gb => .min (f 0 gd) (f 1 ga) (f 2 gb)
  | .max gd ga gb => .max (f 0 gd) (f 1 ga) (f 2 gb)
  | .minu gd ga gb => .minu (f 0 gd) (f 1 ga) (f 2 gb)
  | .maxu gd ga gb => .maxu (f 0 gd) (f 1 ga) (f 2 gb)
  | .slt gd ga gb => .slt (f 0 gd) (f 1 ga) (f 2 gb)
  | .sltu gd ga gb => .sltu (f 0 gd) (f 1 ga) (f 2 gb)
  | .seq gd ga gb => .seq (f 0 gd) (f 1 ga) (f 2 gb)
  | .sne gd ga gb => .sne (f 0 gd) (f 1 ga) (f 2 gb)
  | .sel gd ga gb => .sel (f 0 gd) (f 1 ga) (f 2 gb)
  | .addi gd ga imm => .addi (f 0 gd) (f 1 ga) imm
  | .slti gd ga imm => .slti (f 0 gd) (f 1 ga) imm
  | .andi gd ga imm => .andi (f 0 gd) (f 1 ga) imm
  | .ori gd ga imm => .ori (f 0 gd) (f 1 ga) imm
  | .xori gd ga imm => .xori (f 0 gd) (f 1 ga) imm
  | .shli gd ga n => .shli (f 0 gd) (f 1 ga) n
  | .shri gd ga n => .shri (f 0 gd) (f 1 ga) n
  | .sari gd ga n => .sari (f 0 gd) (f 1 ga) n
  | .li gd imm hw => .li (f 0 gd) imm hw
  | .lik gd imm hw => .lik (f 0 gd) imm hw
  | .ld gd gb off sx lsz cls => .ld (f 0 gd) (f 1 gb) off sx lsz cls
  | .st gb gs off glob lsz cls => .st (f 0 gb) (f 1 gs) off glob lsz cls
  | .ldAcq gd gb scope sx lsz cls => .ldAcq (f 0 gd) (f 1 gb) scope sx lsz cls
  | .stRel gb gs scope glob lsz cls => .stRel (f 0 gb) (f 1 gs) scope glob lsz cls
  | .amoadd gd gb gs scope form cls => .amoadd (f 0 gd) (f 1 gb) (f 2 gs) scope form cls
  | .amoand gd gb gs scope form cls => .amoand (f 0 gd) (f 1 gb) (f 2 gs) scope form cls
  | .amoor gd gb gs scope form cls => .amoor (f 0 gd) (f 1 gb) (f 2 gs) scope form cls
  | .amoxor gd gb gs scope form cls => .amoxor (f 0 gd) (f 1 gb) (f 2 gs) scope form cls
  | .amomin gd gb gs scope form cls => .amomin (f 0 gd) (f 1 gb) (f 2 gs) scope form cls
  | .amomax gd gb gs scope form cls => .amomax (f 0 gd) (f 1 gb) (f 2 gs) scope form cls
  | .amoswp gd gb gs scope form cls => .amoswp (f 0 gd) (f 1 gb) (f 2 gs) scope form cls
  | .cas gd gb gs scope form cls => .cas (f 0 gd) (f 1 gb) (f 2 gs) scope form cls
  | .wadd gb gs f64 cls => .wadd (f 0 gb) (f 1 gs) f64 cls
  | .cread gd gb f64 cls => .cread (f 0 gd) (f 1 gb) f64 cls
  | .spill gf gb n glob cls => .spill (f 0 gf) (f 1 gb) n glob cls
  | .fill gf gb n cls => .fill (f 0 gf) (f 1 gb) n cls
  | .pf gb off cls => .pf (f 0 gb) off cls
  | .bz ga off => .bz (f 0 ga) off
  | .bnz ga off => .bnz (f 0 ga) off
  | .jt ga gb n => .jt (f 0 ga) (f 1 gb) n
  | .talloc h ga gb => .talloc (f 0 h) (f 1 ga) (f 2 gb)
  | .tfree h => .tfree (f 0 h)
  | .dld dn gr cls => .dld (f 0 dn) (f 1 gr) cls
  | .dset dn gr field => .dset (f 0 dn) (f 1 gr) field
  | .dget gr dn field => .dget (f 0 gr) (f 1 dn) field
  | .dst gr dn glob cls => .dst (f 0 gr) (f 1 dn) glob cls
  | .gsetReg ga slot => .gsetReg (f 0 ga) slot
  | .qdepth gd qn oper kind => .qdepth (f 0 gd) qn oper kind
  | .tsig ga => .tsig (f 0 ga)
  | .mzero acc pair => .mzero (f 0 acc) pair
  | .astc acc => .astc (f 0 acc)
  | .mma acc da db z cls => .mma (f 0 acc) (f 1 da) (f 2 db) z cls
  | .mmaRange acc da db os oc z cls => .mmaRange (f 0 acc) (f 1 da) (f 2 db) (f 3 os) (f 4 oc) z cls
  | .mdrain dn acc ro rnd glob cls => .mdrain (f 0 dn) (f 1 acc) (f 2 ro) rnd glob cls
  | .mdraint h acc ro rnd fmt cls => .mdraint (f 0 h) (f 1 acc) (f 2 ro) rnd fmt cls
  | .mld acc h ro cls => .mld (f 0 acc) (f 1 h) (f 2 ro) cls
  | .wq acc dq dw os cls => .wq (f 0 acc) (f 1 dq) (f 2 dw) (f 3 os) cls
  | .oadd od oa ob => .oadd (f 0 od) (f 1 oa) (f 2 ob)
  | .osub od oa ob => .osub (f 0 od) (f 1 oa) (f 2 ob)
  | .omul od oa ob => .omul (f 0 od) (f 1 oa) (f 2 ob)
  | .oand od oa ob => .oand (f 0 od) (f 1 oa) (f 2 ob)
  | .oshl od oa ob => .oshl (f 0 od) (f 1 oa) (f 2 ob)
  | .oshr od oa ob => .oshr (f 0 od) (f 1 oa) (f 2 ob)
  | .omin od oa ob => .omin (f 0 od) (f 1 oa) (f 2 ob)
  | .omax od oa ob => .omax (f 0 od) (f 1 oa) (f 2 ob)
  | .oaddi od oa imm => .oaddi (f 0 od) (f 1 oa) imm
  | .oli od imm => .oli (f 0 od) imm
  | .qpop h pr qn => .qpop (f 0 h) (f 1 pr) qn
  | .qpush h pr qn => .qpush (f 0 h) (f 1 pr) qn
  | .barm ro bar => .barm (f 0 ro) bar
  | .cpyTensorTile h dn pr cnt bar cls => .cpyTensorTile (f 0 h) (f 1 dn) (f 2 pr) cnt bar cls
  | .cpyTileTensor dn h pr glob cnt bar cls => .cpyTileTensor (f 0 dn) (f 1 h) (f 2 pr) glob cnt bar cls
  | .cpyTensorTensor dd ds pr glob cnt bar cls => .cpyTensorTensor (f 0 dd) (f 1 ds) (f 2 pr) glob cnt bar cls
  | .cpyTileTile hd hs pr cls => .cpyTileTile (f 0 hd) (f 1 hs) (f 2 pr) cls
  | .cpys dd ds pr dg cls => .cpys (f 0 dd) (f 1 ds) (f 2 pr) (f 3 dg) cls
  | .cpf dn pr cls => .cpf (f 0 dn) (f 1 pr) cls
  | .wld dw ds pr cls => .wld (f 0 dw) (f 1 ds) (f 2 pr) cls
  | .rput dd ds pr cnt bar cls => .rput (f 0 dd) (f 1 ds) (f 2 pr) cnt bar cls
  | .rget dd ds pr cnt bar cls => .rget (f 0 dd) (f 1 ds) (f 2 pr) cnt bar cls
  | .vadd vd va vb => .vadd (f 0 vd) { va with reg := f 1 va.reg } { vb with reg := f 2 vb.reg }
  | .vsub vd va vb => .vsub (f 0 vd) { va with reg := f 1 va.reg } { vb with reg := f 2 vb.reg }
  | .vmul vd va vb => .vmul (f 0 vd) { va with reg := f 1 va.reg } { vb with reg := f 2 vb.reg }
  | .vfma vd va vb => .vfma (f 0 vd) { va with reg := f 1 va.reg } { vb with reg := f 2 vb.reg }
  | .vdiv vd va vb => .vdiv (f 0 vd) { va with reg := f 1 va.reg } { vb with reg := f 2 vb.reg }
  | .vmin vd va vb => .vmin (f 0 vd) { va with reg := f 1 va.reg } { vb with reg := f 2 vb.reg }
  | .vmax vd va vb => .vmax (f 0 vd) { va with reg := f 1 va.reg } { vb with reg := f 2 vb.reg }
  | .vrcp vd va => .vrcp (f 0 vd) { va with reg := f 1 va.reg }
  | .vsqrt vd va => .vsqrt (f 0 vd) { va with reg := f 1 va.reg }
  | .vrsqrt vd va => .vrsqrt (f 0 vd) { va with reg := f 1 va.reg }
  | .vexp2 vd va => .vexp2 (f 0 vd) { va with reg := f 1 va.reg }
  | .vlog2 vd va => .vlog2 (f 0 vd) { va with reg := f 1 va.reg }
  | .vsin vd va => .vsin (f 0 vd) { va with reg := f 1 va.reg }
  | .vcos vd va => .vcos (f 0 vd) { va with reg := f 1 va.reg }
  | .vtanh vd va => .vtanh (f 0 vd) { va with reg := f 1 va.reg }
  | .vsigm vd va => .vsigm (f 0 vd) { va with reg := f 1 va.reg }
  | .vneg vd va => .vneg (f 0 vd) { va with reg := f 1 va.reg }
  | .vabs vd va => .vabs (f 0 vd) { va with reg := f 1 va.reg }
  | .vaddF16 vd va vb => .vaddF16 (f 0 vd) { va with reg := f 1 va.reg } { vb with reg := f 2 vb.reg }
  | .vsubF16 vd va vb => .vsubF16 (f 0 vd) { va with reg := f 1 va.reg } { vb with reg := f 2 vb.reg }
  | .vmulF16 vd va vb => .vmulF16 (f 0 vd) { va with reg := f 1 va.reg } { vb with reg := f 2 vb.reg }
  | .vfmaF16 vd va vb => .vfmaF16 (f 0 vd) { va with reg := f 1 va.reg } { vb with reg := f 2 vb.reg }
  | .vminF16 vd va vb => .vminF16 (f 0 vd) { va with reg := f 1 va.reg } { vb with reg := f 2 vb.reg }
  | .vmaxF16 vd va vb => .vmaxF16 (f 0 vd) { va with reg := f 1 va.reg } { vb with reg := f 2 vb.reg }
  | .vaddBf16 vd va vb => .vaddBf16 (f 0 vd) { va with reg := f 1 va.reg } { vb with reg := f 2 vb.reg }
  | .vsubBf16 vd va vb => .vsubBf16 (f 0 vd) { va with reg := f 1 va.reg } { vb with reg := f 2 vb.reg }
  | .vmulBf16 vd va vb => .vmulBf16 (f 0 vd) { va with reg := f 1 va.reg } { vb with reg := f 2 vb.reg }
  | .vfmaBf16 vd va vb => .vfmaBf16 (f 0 vd) { va with reg := f 1 va.reg } { vb with reg := f 2 vb.reg }
  | .vminBf16 vd va vb => .vminBf16 (f 0 vd) { va with reg := f 1 va.reg } { vb with reg := f 2 vb.reg }
  | .vmaxBf16 vd va vb => .vmaxBf16 (f 0 vd) { va with reg := f 1 va.reg } { vb with reg := f 2 vb.reg }
  | .viadd vd va vb => .viadd (f 0 vd) { va with reg := f 1 va.reg } { vb with reg := f 2 vb.reg }
  | .visub vd va vb => .visub (f 0 vd) { va with reg := f 1 va.reg } { vb with reg := f 2 vb.reg }
  | .vimul vd va vb => .vimul (f 0 vd) { va with reg := f 1 va.reg } { vb with reg := f 2 vb.reg }
  | .vimad vd va vb => .vimad (f 0 vd) { va with reg := f 1 va.reg } { vb with reg := f 2 vb.reg }
  | .vand vd va vb => .vand (f 0 vd) { va with reg := f 1 va.reg } { vb with reg := f 2 vb.reg }
  | .vor vd va vb => .vor (f 0 vd) { va with reg := f 1 va.reg } { vb with reg := f 2 vb.reg }
  | .vxor vd va vb => .vxor (f 0 vd) { va with reg := f 1 va.reg } { vb with reg := f 2 vb.reg }
  | .vshl vd va vb => .vshl (f 0 vd) { va with reg := f 1 va.reg } { vb with reg := f 2 vb.reg }
  | .vshr vd va vb => .vshr (f 0 vd) { va with reg := f 1 va.reg } { vb with reg := f 2 vb.reg }
  | .vsar vd va vb => .vsar (f 0 vd) { va with reg := f 1 va.reg } { vb with reg := f 2 vb.reg }
  | .vimin vd va vb => .vimin (f 0 vd) { va with reg := f 1 va.reg } { vb with reg := f 2 vb.reg }
  | .vimax vd va vb => .vimax (f 0 vd) { va with reg := f 1 va.reg } { vb with reg := f 2 vb.reg }
  | .viadds vd va vb => .viadds (f 0 vd) { va with reg := f 1 va.reg } { vb with reg := f 2 vb.reg }
  | .visubs vd va vb => .visubs (f 0 vd) { va with reg := f 1 va.reg } { vb with reg := f 2 vb.reg }
  | .vimulh vd va vb => .vimulh (f 0 vd) { va with reg := f 1 va.reg } { vb with reg := f 2 vb.reg }
  | .vineg vd va => .vineg (f 0 vd) { va with reg := f 1 va.reg }
  | .vnot vd va => .vnot (f 0 vd) { va with reg := f 1 va.reg }
  | .viabs vd va => .viabs (f 0 vd) { va with reg := f 1 va.reg }
  | .vfeq vd va vb => .vfeq (f 0 vd) { va with reg := f 1 va.reg } { vb with reg := f 2 vb.reg }
  | .vfne vd va vb => .vfne (f 0 vd) { va with reg := f 1 va.reg } { vb with reg := f 2 vb.reg }
  | .vflt vd va vb => .vflt (f 0 vd) { va with reg := f 1 va.reg } { vb with reg := f 2 vb.reg }
  | .vfle vd va vb => .vfle (f 0 vd) { va with reg := f 1 va.reg } { vb with reg := f 2 vb.reg }
  | .vfslt vd va vb => .vfslt (f 0 vd) { va with reg := f 1 va.reg } { vb with reg := f 2 vb.reg }
  | .vfsle vd va vb => .vfsle (f 0 vd) { va with reg := f 1 va.reg } { vb with reg := f 2 vb.reg }
  | .vfun vd va vb => .vfun (f 0 vd) { va with reg := f 1 va.reg } { vb with reg := f 2 vb.reg }
  | .vieq vd va vb => .vieq (f 0 vd) { va with reg := f 1 va.reg } { vb with reg := f 2 vb.reg }
  | .vilt vd va vb => .vilt (f 0 vd) { va with reg := f 1 va.reg } { vb with reg := f 2 vb.reg }
  | .vile vd va vb => .vile (f 0 vd) { va with reg := f 1 va.reg } { vb with reg := f 2 vb.reg }
  | .viltu vd va vb => .viltu (f 0 vd) { va with reg := f 1 va.reg } { vb with reg := f 2 vb.reg }
  | .vileu vd va vb => .vileu (f 0 vd) { va with reg := f 1 va.reg } { vb with reg := f 2 vb.reg }
  | .vsel vd va vb => .vsel (f 0 vd) { va with reg := f 1 va.reg } { vb with reg := f 2 vb.reg }
  | .vcvt vd va rv rnd conv => .vcvt (f 0 vd) { va with reg := f 1 va.reg } rv rnd conv
  | .vpack vd va rv rnd fmt => .vpack (f 0 vd) { va with reg := f 1 va.reg } rv rnd fmt
  | .vpackCb4 vd va dn rv rnd => .vpackCb4 (f 0 vd) { va with reg := f 1 va.reg } (f 2 dn) rv rnd
  | .vunpack vd va rv rnd fmt => .vunpack (f 0 vd) { va with reg := f 1 va.reg } rv rnd fmt
  | .vunpackCb4 vd va dn rv rnd => .vunpackCb4 (f 0 vd) { va with reg := f 1 va.reg } (f 2 dn) rv rnd
  | .vrsum vd va => .vrsum (f 0 vd) { va with reg := f 1 va.reg }
  | .vrmin vd va => .vrmin (f 0 vd) { va with reg := f 1 va.reg }
  | .vrmax vd va => .vrmax (f 0 vd) { va with reg := f 1 va.reg }
  | .virsum vd va => .virsum (f 0 vd) { va with reg := f 1 va.reg }
  | .virmin vd va => .virmin (f 0 vd) { va with reg := f 1 va.reg }
  | .virmax vd va => .virmax (f 0 vd) { va with reg := f 1 va.reg }
  | .vrany va slot => .vrany { va with reg := f 0 va.reg } slot
  | .vrall va slot => .vrall { va with reg := f 0 va.reg } slot
  | .vmov vd va => .vmov (f 0 vd) { va with reg := f 1 va.reg }
  | .vtrn vd va => .vtrn (f 0 vd) { va with reg := f 1 va.reg }
  | .vbce vd va km => .vbce (f 0 vd) { va with reg := f 1 va.reg } (f 2 km)
  | .vbck vd km => .vbck (f 0 vd) (f 1 km)
  | .vext km va => .vext (f 0 km) { va with reg := f 1 va.reg }
  | .jseed vd va => .jseed (f 0 vd) { va with reg := f 1 va.reg }
  | .jconst vd va => .jconst (f 0 vd) { va with reg := f 1 va.reg }
  | .jget vd va n => .jget (f 0 vd) { va with reg := f 1 va.reg } n
  | .jput vd va n => .jput (f 0 vd) { va with reg := f 1 va.reg } n
  | .jdiff vd va => .jdiff (f 0 vd) { va with reg := f 1 va.reg }
  | .vld vd dn km cls => .vld (f 0 vd) (f 1 dn) (f 2 km) cls
  | .vst dn km va glob cls => .vst (f 0 dn) (f 1 km) (f 2 va) glob cls
  | .vtld vd h km cls => .vtld (f 0 vd) (f 1 h) (f 2 km) cls
  | .vtst h km va cls => .vtst (f 0 h) (f 1 km) (f 2 va) cls
  | .vpop vd qn => .vpop (f 0 vd) qn
  | .vpush va qn => .vpush (f 0 va) qn
  | .psetImm pn count w => .psetImm (f 0 pn) count w
  | .psetK pn km w => .psetK (f 0 pn) (f 1 km) w
  | .kadd kd ka kb => .kadd (f 0 kd) (f 1 ka) (f 2 kb)
  | .ksub kd ka kb => .ksub (f 0 kd) (f 1 ka) (f 2 kb)
  | .kmul kd ka kb => .kmul (f 0 kd) (f 1 ka) (f 2 kb)
  | .kand kd ka kb => .kand (f 0 kd) (f 1 ka) (f 2 kb)
  | .kor kd ka kb => .kor (f 0 kd) (f 1 ka) (f 2 kb)
  | .kshl kd ka kb => .kshl (f 0 kd) (f 1 ka) (f 2 kb)
  | .kshr kd ka kb => .kshr (f 0 kd) (f 1 ka) (f 2 kb)
  | .kmin kd ka kb => .kmin (f 0 kd) (f 1 ka) (f 2 kb)
  | .kmax kd ka kb => .kmax (f 0 kd) (f 1 ka) (f 2 kb)
  | .kaddi kd ka imm => .kaddi (f 0 kd) (f 1 ka) imm
  | .vdefer va tag => .vdefer (f 0 va) tag
  | .vdrain vd pn => .vdrain (f 0 vd) (f 1 pn)
  | .vscatb va => .vscatb (f 0 va)
  | i => i

/-- The register and handle operands of an instruction with the size of each one's register file or handle range (Table 13-2). -/
def regFields (st : Strm) (i : Instr) : List (Nat × Nat) :=
  match i with
  | .csrr reg _ => [(reg, (if st = .c then 32 else 16))]
  | .csrw _ reg => [(reg, (if st = .c then 32 else 16))]
  | .dstc ga gb gc => [(ga, 32), (gb, 32), (gc, 32)]
  | .dstcSram ga gb gc => [(ga, 32), (gb, 32), (gc, 32)]
  | .mov gd ga => [(gd, 32), (ga, 32)]
  | .add gd ga gb => [(gd, 32), (ga, 32), (gb, 32)]
  | .sub gd ga gb => [(gd, 32), (ga, 32), (gb, 32)]
  | .and gd ga gb => [(gd, 32), (ga, 32), (gb, 32)]
  | .or gd ga gb => [(gd, 32), (ga, 32), (gb, 32)]
  | .xor gd ga gb => [(gd, 32), (ga, 32), (gb, 32)]
  | .shl gd ga gb => [(gd, 32), (ga, 32), (gb, 32)]
  | .shr gd ga gb => [(gd, 32), (ga, 32), (gb, 32)]
  | .sar gd ga gb => [(gd, 32), (ga, 32), (gb, 32)]
  | .mul gd ga gb => [(gd, 32), (ga, 32), (gb, 32)]
  | .mulh gd ga gb => [(gd, 32), (ga, 32), (gb, 32)]
  | .mulhu gd ga gb => [(gd, 32), (ga, 32), (gb, 32)]
  | .div gd ga gb => [(gd, 32), (ga, 32), (gb, 32)]
  | .divu gd ga gb => [(gd, 32), (ga, 32), (gb, 32)]
  | .rem gd ga gb => [(gd, 32), (ga, 32), (gb, 32)]
  | .remu gd ga gb => [(gd, 32), (ga, 32), (gb, 32)]
  | .min gd ga gb => [(gd, 32), (ga, 32), (gb, 32)]
  | .max gd ga gb => [(gd, 32), (ga, 32), (gb, 32)]
  | .minu gd ga gb => [(gd, 32), (ga, 32), (gb, 32)]
  | .maxu gd ga gb => [(gd, 32), (ga, 32), (gb, 32)]
  | .slt gd ga gb => [(gd, 32), (ga, 32), (gb, 32)]
  | .sltu gd ga gb => [(gd, 32), (ga, 32), (gb, 32)]
  | .seq gd ga gb => [(gd, 32), (ga, 32), (gb, 32)]
  | .sne gd ga gb => [(gd, 32), (ga, 32), (gb, 32)]
  | .sel gd ga gb => [(gd, 32), (ga, 32), (gb, 32)]
  | .addi gd ga _ => [(gd, 32), (ga, 32)]
  | .slti gd ga _ => [(gd, 32), (ga, 32)]
  | .andi gd ga _ => [(gd, 32), (ga, 32)]
  | .ori gd ga _ => [(gd, 32), (ga, 32)]
  | .xori gd ga _ => [(gd, 32), (ga, 32)]
  | .shli gd ga _ => [(gd, 32), (ga, 32)]
  | .shri gd ga _ => [(gd, 32), (ga, 32)]
  | .sari gd ga _ => [(gd, 32), (ga, 32)]
  | .li gd _ _ => [(gd, 32)]
  | .lik gd _ _ => [(gd, 32)]
  | .ld gd gb _ _ _ _ => [(gd, 32), (gb, 32)]
  | .st gb gs _ _ _ _ => [(gb, 32), (gs, 32)]
  | .ldAcq gd gb _ _ _ _ => [(gd, 32), (gb, 32)]
  | .stRel gb gs _ _ _ _ => [(gb, 32), (gs, 32)]
  | .amoadd gd gb gs _ _ _ => [(gd, 32), (gb, 32), (gs, 32)]
  | .amoand gd gb gs _ _ _ => [(gd, 32), (gb, 32), (gs, 32)]
  | .amoor gd gb gs _ _ _ => [(gd, 32), (gb, 32), (gs, 32)]
  | .amoxor gd gb gs _ _ _ => [(gd, 32), (gb, 32), (gs, 32)]
  | .amomin gd gb gs _ _ _ => [(gd, 32), (gb, 32), (gs, 32)]
  | .amomax gd gb gs _ _ _ => [(gd, 32), (gb, 32), (gs, 32)]
  | .amoswp gd gb gs _ _ _ => [(gd, 32), (gb, 32), (gs, 32)]
  | .cas gd gb gs _ _ _ => [(gd, 32), (gb, 32), (gs, 32)]
  | .wadd gb gs _ _ => [(gb, 32), (gs, 32)]
  | .cread gd gb _ _ => [(gd, 32), (gb, 32)]
  | .spill gf gb _ _ _ => [(gf, 32), (gb, 32)]
  | .fill gf gb _ _ => [(gf, 32), (gb, 32)]
  | .pf gb _ _ => [(gb, 32)]
  | .bz ga _ => [(ga, 32)]
  | .bnz ga _ => [(ga, 32)]
  | .jt ga gb _ => [(ga, 32), (gb, 32)]
  | .talloc h ga gb => [(h, 256), (ga, 32), (gb, 32)]
  | .tfree h => [(h, 256)]
  | .dld dn gr _ => [(dn, 16), (gr, 32)]
  | .dset dn gr _ => [(dn, 16), (gr, 32)]
  | .dget gr dn _ => [(gr, 32), (dn, 16)]
  | .dst gr dn _ _ => [(gr, 32), (dn, 16)]
  | .gsetReg ga _ => [(ga, 32)]
  | .qdepth gd _ _ _ => [(gd, 32)]
  | .tsig ga => [(ga, 32)]
  | .mzero acc _ => [(acc, 4)]
  | .astc acc => [(acc, 4)]
  | .mma acc da db _ _ => [(acc, 4), (da, 16), (db, 16)]
  | .mmaRange acc da db os oc _ _ => [(acc, 4), (da, 16), (db, 16), (os, 16), (oc, 16)]
  | .mdrain dn acc ro _ _ _ => [(dn, 16), (acc, 4), (ro, 16)]
  | .mdraint h acc ro _ _ _ => [(h, 256), (acc, 4), (ro, 16)]
  | .mld acc h ro _ => [(acc, 4), (h, 256), (ro, 16)]
  | .wq acc dq dw os _ => [(acc, 4), (dq, 16), (dw, 16), (os, 16)]
  | .oadd od oa ob => [(od, 16), (oa, 16), (ob, 16)]
  | .osub od oa ob => [(od, 16), (oa, 16), (ob, 16)]
  | .omul od oa ob => [(od, 16), (oa, 16), (ob, 16)]
  | .oand od oa ob => [(od, 16), (oa, 16), (ob, 16)]
  | .oshl od oa ob => [(od, 16), (oa, 16), (ob, 16)]
  | .oshr od oa ob => [(od, 16), (oa, 16), (ob, 16)]
  | .omin od oa ob => [(od, 16), (oa, 16), (ob, 16)]
  | .omax od oa ob => [(od, 16), (oa, 16), (ob, 16)]
  | .oaddi od oa _ => [(od, 16), (oa, 16)]
  | .oli od _ => [(od, 16)]
  | .qpop h pr _ => [(h, 256), (pr, 8)]
  | .qpush h pr _ => [(h, 256), (pr, 8)]
  | .barm ro _ => [(ro, 16)]
  | .cpyTensorTile h dn pr _ _ _ => [(h, 256), (dn, 16), (pr, 8)]
  | .cpyTileTensor dn h pr _ _ _ _ => [(dn, 16), (h, 256), (pr, 8)]
  | .cpyTensorTensor dd ds pr _ _ _ _ => [(dd, 16), (ds, 16), (pr, 8)]
  | .cpyTileTile hd hs pr _ => [(hd, 256), (hs, 256), (pr, 8)]
  | .cpys dd ds pr dg _ => [(dd, 16), (ds, 16), (pr, 8), (dg, 16)]
  | .cpf dn pr _ => [(dn, 16), (pr, 8)]
  | .wld dw ds pr _ => [(dw, 16), (ds, 16), (pr, 8)]
  | .rput dd ds pr _ _ _ => [(dd, 16), (ds, 16), (pr, 8)]
  | .rget dd ds pr _ _ _ => [(dd, 16), (ds, 16), (pr, 8)]
  | .vadd vd va vb => [(vd, 64), (va.reg, 64), (vb.reg, 64)]
  | .vsub vd va vb => [(vd, 64), (va.reg, 64), (vb.reg, 64)]
  | .vmul vd va vb => [(vd, 64), (va.reg, 64), (vb.reg, 64)]
  | .vfma vd va vb => [(vd, 64), (va.reg, 64), (vb.reg, 64)]
  | .vdiv vd va vb => [(vd, 64), (va.reg, 64), (vb.reg, 64)]
  | .vmin vd va vb => [(vd, 64), (va.reg, 64), (vb.reg, 64)]
  | .vmax vd va vb => [(vd, 64), (va.reg, 64), (vb.reg, 64)]
  | .vrcp vd va => [(vd, 64), (va.reg, 64)]
  | .vsqrt vd va => [(vd, 64), (va.reg, 64)]
  | .vrsqrt vd va => [(vd, 64), (va.reg, 64)]
  | .vexp2 vd va => [(vd, 64), (va.reg, 64)]
  | .vlog2 vd va => [(vd, 64), (va.reg, 64)]
  | .vsin vd va => [(vd, 64), (va.reg, 64)]
  | .vcos vd va => [(vd, 64), (va.reg, 64)]
  | .vtanh vd va => [(vd, 64), (va.reg, 64)]
  | .vsigm vd va => [(vd, 64), (va.reg, 64)]
  | .vneg vd va => [(vd, 64), (va.reg, 64)]
  | .vabs vd va => [(vd, 64), (va.reg, 64)]
  | .vaddF16 vd va vb => [(vd, 64), (va.reg, 64), (vb.reg, 64)]
  | .vsubF16 vd va vb => [(vd, 64), (va.reg, 64), (vb.reg, 64)]
  | .vmulF16 vd va vb => [(vd, 64), (va.reg, 64), (vb.reg, 64)]
  | .vfmaF16 vd va vb => [(vd, 64), (va.reg, 64), (vb.reg, 64)]
  | .vminF16 vd va vb => [(vd, 64), (va.reg, 64), (vb.reg, 64)]
  | .vmaxF16 vd va vb => [(vd, 64), (va.reg, 64), (vb.reg, 64)]
  | .vaddBf16 vd va vb => [(vd, 64), (va.reg, 64), (vb.reg, 64)]
  | .vsubBf16 vd va vb => [(vd, 64), (va.reg, 64), (vb.reg, 64)]
  | .vmulBf16 vd va vb => [(vd, 64), (va.reg, 64), (vb.reg, 64)]
  | .vfmaBf16 vd va vb => [(vd, 64), (va.reg, 64), (vb.reg, 64)]
  | .vminBf16 vd va vb => [(vd, 64), (va.reg, 64), (vb.reg, 64)]
  | .vmaxBf16 vd va vb => [(vd, 64), (va.reg, 64), (vb.reg, 64)]
  | .viadd vd va vb => [(vd, 64), (va.reg, 64), (vb.reg, 64)]
  | .visub vd va vb => [(vd, 64), (va.reg, 64), (vb.reg, 64)]
  | .vimul vd va vb => [(vd, 64), (va.reg, 64), (vb.reg, 64)]
  | .vimad vd va vb => [(vd, 64), (va.reg, 64), (vb.reg, 64)]
  | .vand vd va vb => [(vd, 64), (va.reg, 64), (vb.reg, 64)]
  | .vor vd va vb => [(vd, 64), (va.reg, 64), (vb.reg, 64)]
  | .vxor vd va vb => [(vd, 64), (va.reg, 64), (vb.reg, 64)]
  | .vshl vd va vb => [(vd, 64), (va.reg, 64), (vb.reg, 64)]
  | .vshr vd va vb => [(vd, 64), (va.reg, 64), (vb.reg, 64)]
  | .vsar vd va vb => [(vd, 64), (va.reg, 64), (vb.reg, 64)]
  | .vimin vd va vb => [(vd, 64), (va.reg, 64), (vb.reg, 64)]
  | .vimax vd va vb => [(vd, 64), (va.reg, 64), (vb.reg, 64)]
  | .viadds vd va vb => [(vd, 64), (va.reg, 64), (vb.reg, 64)]
  | .visubs vd va vb => [(vd, 64), (va.reg, 64), (vb.reg, 64)]
  | .vimulh vd va vb => [(vd, 64), (va.reg, 64), (vb.reg, 64)]
  | .vineg vd va => [(vd, 64), (va.reg, 64)]
  | .vnot vd va => [(vd, 64), (va.reg, 64)]
  | .viabs vd va => [(vd, 64), (va.reg, 64)]
  | .vfeq vd va vb => [(vd, 64), (va.reg, 64), (vb.reg, 64)]
  | .vfne vd va vb => [(vd, 64), (va.reg, 64), (vb.reg, 64)]
  | .vflt vd va vb => [(vd, 64), (va.reg, 64), (vb.reg, 64)]
  | .vfle vd va vb => [(vd, 64), (va.reg, 64), (vb.reg, 64)]
  | .vfslt vd va vb => [(vd, 64), (va.reg, 64), (vb.reg, 64)]
  | .vfsle vd va vb => [(vd, 64), (va.reg, 64), (vb.reg, 64)]
  | .vfun vd va vb => [(vd, 64), (va.reg, 64), (vb.reg, 64)]
  | .vieq vd va vb => [(vd, 64), (va.reg, 64), (vb.reg, 64)]
  | .vilt vd va vb => [(vd, 64), (va.reg, 64), (vb.reg, 64)]
  | .vile vd va vb => [(vd, 64), (va.reg, 64), (vb.reg, 64)]
  | .viltu vd va vb => [(vd, 64), (va.reg, 64), (vb.reg, 64)]
  | .vileu vd va vb => [(vd, 64), (va.reg, 64), (vb.reg, 64)]
  | .vsel vd va vb => [(vd, 64), (va.reg, 64), (vb.reg, 64)]
  | .vcvt vd va _ _ _ => [(vd, 64), (va.reg, 64)]
  | .vpack vd va _ _ _ => [(vd, 64), (va.reg, 64)]
  | .vpackCb4 vd va dn _ _ => [(vd, 64), (va.reg, 64), (dn, 16)]
  | .vunpack vd va _ _ _ => [(vd, 64), (va.reg, 64)]
  | .vunpackCb4 vd va dn _ _ => [(vd, 64), (va.reg, 64), (dn, 16)]
  | .vrsum vd va => [(vd, 64), (va.reg, 64)]
  | .vrmin vd va => [(vd, 64), (va.reg, 64)]
  | .vrmax vd va => [(vd, 64), (va.reg, 64)]
  | .virsum vd va => [(vd, 64), (va.reg, 64)]
  | .virmin vd va => [(vd, 64), (va.reg, 64)]
  | .virmax vd va => [(vd, 64), (va.reg, 64)]
  | .vrany va _ => [(va.reg, 64)]
  | .vrall va _ => [(va.reg, 64)]
  | .vmov vd va => [(vd, 64), (va.reg, 64)]
  | .vtrn vd va => [(vd, 64), (va.reg, 64)]
  | .vbce vd va km => [(vd, 64), (va.reg, 64), (km, 16)]
  | .vbck vd km => [(vd, 64), (km, 16)]
  | .vext km va => [(km, 16), (va.reg, 64)]
  | .jseed vd va => [(vd, 64), (va.reg, 64)]
  | .jconst vd va => [(vd, 64), (va.reg, 64)]
  | .jget vd va _ => [(vd, 64), (va.reg, 64)]
  | .jput vd va _ => [(vd, 64), (va.reg, 64)]
  | .jdiff vd va => [(vd, 64), (va.reg, 64)]
  | .vld vd dn km _ => [(vd, 64), (dn, 16), (km, 16)]
  | .vst dn km va _ _ => [(dn, 16), (km, 16), (va, 64)]
  | .vtld vd h km _ => [(vd, 64), (h, 256), (km, 16)]
  | .vtst h km va _ => [(h, 256), (km, 16), (va, 64)]
  | .vpop vd _ => [(vd, 64)]
  | .vpush va _ => [(va, 64)]
  | .psetImm pn _ _ => [(pn, 8)]
  | .psetK pn km _ => [(pn, 8), (km, 16)]
  | .kadd kd ka kb => [(kd, 16), (ka, 16), (kb, 16)]
  | .ksub kd ka kb => [(kd, 16), (ka, 16), (kb, 16)]
  | .kmul kd ka kb => [(kd, 16), (ka, 16), (kb, 16)]
  | .kand kd ka kb => [(kd, 16), (ka, 16), (kb, 16)]
  | .kor kd ka kb => [(kd, 16), (ka, 16), (kb, 16)]
  | .kshl kd ka kb => [(kd, 16), (ka, 16), (kb, 16)]
  | .kshr kd ka kb => [(kd, 16), (ka, 16), (kb, 16)]
  | .kmin kd ka kb => [(kd, 16), (ka, 16), (kb, 16)]
  | .kmax kd ka kb => [(kd, 16), (ka, 16), (kb, 16)]
  | .kaddi kd ka _ => [(kd, 16), (ka, 16)]
  | .vdefer va _ => [(va, 64)]
  | .vdrain vd pn => [(vd, 64), (pn, 8)]
  | .vscatb va => [(va, 64)]
  | _ => []

/-- The g registers that a control-stream instruction reads (R315). -/
def gSources (i : Instr) : List Nat :=
  match i with
  | .ret => [31]
  | .csrw _ reg => [reg]
  | .dstc ga gb gc => [ga, gb, gc]
  | .dstcSram ga gb gc => [ga, gb, gc]
  | .mov _ ga => [ga]
  | .add _ ga gb => [ga, gb]
  | .sub _ ga gb => [ga, gb]
  | .and _ ga gb => [ga, gb]
  | .or _ ga gb => [ga, gb]
  | .xor _ ga gb => [ga, gb]
  | .shl _ ga gb => [ga, gb]
  | .shr _ ga gb => [ga, gb]
  | .sar _ ga gb => [ga, gb]
  | .mul _ ga gb => [ga, gb]
  | .mulh _ ga gb => [ga, gb]
  | .mulhu _ ga gb => [ga, gb]
  | .div _ ga gb => [ga, gb]
  | .divu _ ga gb => [ga, gb]
  | .rem _ ga gb => [ga, gb]
  | .remu _ ga gb => [ga, gb]
  | .min _ ga gb => [ga, gb]
  | .max _ ga gb => [ga, gb]
  | .minu _ ga gb => [ga, gb]
  | .maxu _ ga gb => [ga, gb]
  | .slt _ ga gb => [ga, gb]
  | .sltu _ ga gb => [ga, gb]
  | .seq _ ga gb => [ga, gb]
  | .sne _ ga gb => [ga, gb]
  | .sel gd ga gb => [gd, ga, gb]
  | .addi _ ga _ => [ga]
  | .slti _ ga _ => [ga]
  | .andi _ ga _ => [ga]
  | .ori _ ga _ => [ga]
  | .xori _ ga _ => [ga]
  | .shli _ ga _ => [ga]
  | .shri _ ga _ => [ga]
  | .sari _ ga _ => [ga]
  | .lik gd _ _ => [gd]
  | .ld _ gb _ _ _ _ => [gb]
  | .st gb gs _ _ _ _ => [gb, gs]
  | .ldAcq _ gb _ _ _ _ => [gb]
  | .stRel gb gs _ _ _ _ => [gb, gs]
  | .amoadd _ gb gs _ _ _ => [gb, gs]
  | .amoand _ gb gs _ _ _ => [gb, gs]
  | .amoor _ gb gs _ _ _ => [gb, gs]
  | .amoxor _ gb gs _ _ _ => [gb, gs]
  | .amomin _ gb gs _ _ _ => [gb, gs]
  | .amomax _ gb gs _ _ _ => [gb, gs]
  | .amoswp _ gb gs _ _ _ => [gb, gs]
  | .cas gd gb gs _ _ _ => [gd, gb, gs]
  | .wadd gb gs _ _ => [gb, gs]
  | .cread _ gb _ _ => [gb]
  | .spill gf gb n _ _ => gb :: (List.range (n + 1)).map (gf + ·)
  | .fill _ gb _ _ => [gb]
  | .pf gb _ _ => [gb]
  | .bz ga _ => [ga]
  | .bnz ga _ => [ga]
  | .jt ga gb _ => [ga, gb]
  | .talloc _ ga gb => [ga, gb]
  | .dld _ gr _ => [gr]
  | .dset _ gr _ => [gr]
  | .dst gr _ _ _ => [gr]
  | .gsetReg ga _ => [ga]
  | .tsig ga => [ga]
  | _ => []

/-- Iteration `j` of an instruction under a repeat prefix: every stepped field has j × step (× (k + 1) with G) added; none when a
stepped value passes the top of its range or the stepped fields make no instruction (R287, R292, R293). -/
def iteration (st : Strm) (r : Rpt) (i : Instr) : Option Instr :=
  let step := (r.step + 1) * (if r.g then r.k.getD 0 + 1 else 1) * r.iter
  let f := fun n x => if r.mask.testBit n then x + step else x
  let i' := mapRegs f i
  if ((regFields st i').all fun p => decide (p.1 < p.2)) && i'.wf st then some i' else none

/-- Whether a repeat mask names only fields that the instruction has (R287). -/
def maskFits (st : Strm) (mask : Nat) (i : Instr) : Bool := decide (mask < 2 ^ (regFields st i).length)

/-- `rpt` must not stand before a branch, call, `ret`, `jt`, `fork`, `rdv`, `end` or `eret` (R288). -/
def noRepeat (i : Instr) : Bool :=
  match i with
  | .br .. | .bg .. | .bz .. | .bnz .. | .call .. | .ret | .jt .. | .fork .. | .rdv | .endS | .eret => true
  | _ => false

/-! ### g registers (R315) -/

/-- Reads a g register; g0 reads 0. -/
def Ctx.readG (c : Ctx) (r : Nat) : Word := if r = 0 then 0 else c.g.get r 0

/-- Writes a g register; a write to g0 is discarded. An earlier load that has not returned no longer writes the register (R315).
Its words get fresh check bits, as those of every register written whole (R434). -/
def Ctx.writeG (c : Ctx) (r : Nat) (v : Word) : Ctx :=
  { c with
    gpend := c.gpend.filter (fun p => p.1 ≠ r), g := if r = 0 then c.g else c.g.set r v
    regCheck := c.regCheck.filter fun e => decide (r = 0) || e.1 / 2 != r }

/-- A load that has issued will write a g register: it displaces an earlier load's pending write. -/
def Ctx.pendG (c : Ctx) (r id : Nat) : Ctx :=
  { c with gpend := (if r = 0 then [] else [(r, id)]) ++ c.gpend.filter (fun p => p.1 ≠ r) }

/-- The value of access `id` reaches its g register, unless a later instruction wrote it (R315). -/
def Ctx.landG (c : Ctx) (r id : Nat) (v : Word) : Ctx := if c.gpend.contains (r, id) then c.writeG r v else c

/-- Whether no load in flight will write one of the registers (R315). -/
def Ctx.gReady (c : Ctx) (rs : List Nat) : Bool := rs.all fun r => decide (r = 0) || !c.gpend.any fun p => p.1 == r

/-- g register of the executing context. -/
def State.readG (s : State) (r : Nat) : Word := s.here.readG r

/-- Writes a g register of the executing context. -/
def State.writeG (s : State) (r : Nat) (v : Word) : State := s.upHere fun c => c.writeG r v

/-! ### Shape, index, offset and predicate registers -/

/-- Reads a shape register (R149). -/
def Ctx.readD (c : Ctx) (r : Nat) : BitVec 512 := c.d.get r 0

/-- Reads an index register k (R381). -/
def Ctx.readK (c : Ctx) (r : Nat) : Half := c.vec.k.get r 0

/-- Writes an index register. -/
def Ctx.writeK (c : Ctx) (r : Nat) (v : Half) : Ctx :=
  { c with vec := { c.vec with k := c.vec.k.set r v }, regCheck := c.regCheck.filter fun e => e.1 != 448 + r }

/-- Reads an offset register of the matrix or the copy stream (R401). -/
def Ctx.readO (c : Ctx) (st : Strm) (r : Nat) : Half := if st = .m then c.mat.o.get r 0 else c.cpy.o.get r 0

/-- Writes an offset register of the matrix or the copy stream. -/
def Ctx.writeO (c : Ctx) (st : Strm) (r : Nat) (v : Half) : Ctx :=
  let w := (if st = .m then 464 else 480) + r
  let c := { c with regCheck := c.regCheck.filter fun e => e.1 != w }
  if st = .m then { c with mat := { c.mat with o := c.mat.o.set r v } } else { c with cpy := { c.cpy with o := c.cpy.o.set r v } }

/-- Reads a vector register. -/
def Ctx.readV (c : Ctx) (r : Nat) : VReg := c.vec.v.get r 0

/-- Writes a vector register. -/
def Ctx.writeV (c : Ctx) (r : Nat) (v : VReg) : Ctx := { c with vec := { c.vec with v := c.vec.v.set r v } }

/-- Reads a compact predicate: count and width code; 32-bit elements at placement (R380). -/
def Ctx.readP (c : Ctx) (r : Nat) : Nat × Nat := c.vec.p.get r (0, 2)

/-- Guard slot of a context (R144). -/
def Ctx.readGuard (c : Ctx) (n : Nat) : Guard := c.guard.get n .unresolved

/-- Writes a guard slot. -/
def Ctx.writeGuard (c : Ctx) (n : Nat) (v : Guard) : Ctx := { c with guard := c.guard.set n v }

/-! ### Two's complement -/

/-- Sign-extends an integer to 64 bits (R281). -/
def sext64 (x : Int) : Word := BitVec.ofInt 64 x

end Sys2Proof.Machine
end

