-- ==== Sys2Proof/Machine/Access.lean ====
section
/-!
DEFINITION. Sys2Proof/Machine/Access.lean: how accesses are issued (S1, R170; the checks of R323), stops for pre-emption
(R95, R249), the slots of sealed mode (R60), and what class 2 does with stores, signatures and commit points (R103 to R118).
-/

namespace Sys2Proof.Machine

/-! ### Parts of an access (R168) -/

/-- Groups (location, byte) pairs in ascending order into one part per 64-byte line. -/
def groupParts (bs : List (Nat × Byte)) : List Part :=
  match bs with
  | [] => []
  | (l, b) :: rest =>
    match groupParts rest with
    | p :: ps => if p.line = l / 64 then { p with bytes := (l, b) :: p.bytes } :: ps else ⟨l / 64, [(l, b)]⟩ :: p :: ps
    | [] => [⟨l / 64, [(l, b)]⟩]

/-- Whether the bytes of an access are single-copy atomic: 1, 2, 4 or 8 bytes aligned to their number, or a wide cell (R168, R186). -/
def singleCopy (kind : AccKind) (sink : Sink) (parts : List Part) : Bool :=
  match parts with
  | [p] =>
    let n := p.bytes.length
    let a := (p.bytes.map Prod.fst).headD 0
    match kind, sink with
    | .wadd .., _ | _, .gCell .. => true
    | _, _ => [1, 2, 4, 8].contains n && a % n == 0 && p.bytes.map Prod.fst == (List.range n).map (a + ·)
  | _ => false

/-- An access that has not yet been issued. -/
def newAccess (id cls : Nat) (kind : AccKind) (parts : List Part) (sink : Sink) (va pc err at_ : Nat) : Access :=
  { id := id, rob := id, unit := 0, cls := cls, kind := kind, acq := false, held := false, parts := parts, wait := [], at_ := at_, sent := none,
    got := [], sink := sink, va := va, pc := pc, err := err, single := singleCopy kind sink parts }

/-- Appends accesses to the class queues of a stream (S1). -/
def State.pushAccs (s : State) (k : Nat) (st : Strm) (as_ : List Access) : State :=
  s.upStrm k st fun x => { x with cq := x.cq ++ as_ }

/-- CYCLE of the executing die as a number. -/
def State.clock (s : State) : Nat := (s.cycle (dieOf s.cur.ctx)).toNat

/-- Checks an access of the executing instruction in the order of R323 (alignment, range, translation) and goes on with its
locations and error code; a miss in the translation cache leaves the instruction unissued. -/
def State.withAddr (s : State) (va n align acc : Nat) (go : List Nat → Nat → State) : State :=
  if va % align ≠ 0 then s.fault { cause := cALIGN, fva := va }
  else match s.chkBytes s.cur.ctx acc ((List.range n).map (va + ·)) with
    | .miss v => s.queueMiss s.cur.ctx acc v
    | .bad t l v => s.fault { cause := cXLATE, tkind := t, level := l, fva := v }
    | .ok locs e => go locs e

/-- Retires nothing, issues accesses of the executing instruction under its identifier. -/
def State.issueAccs (s : State) (as_ : List Access) : State :=
  (s.pushAccs s.cur.ctx s.cur.st as_).freshId.issued s.ord.nextId false

/-! ### Stops (R95, R246, R249) -/

/-- Whether a context has a stream that is not saved (R93). -/
def Ctx.unsaved (c : Ctx) : Bool := allStrms.any fun st => !(c.strm st).saved

/-- Usage of a placed team: in each cycle of its die's counter the number of its contexts that are not saved (R93). -/
def State.teamUsage (s : State) (t : Placed) : Nat :=
  t.usage + (t.ctxs.filter fun k => (s.ctx k).live && (s.ctx k).unsaved).length * ((s.cycle t.die).toNat - t.start)

/-- Whether a save area is free and its window holds it (R248, R249). -/
def State.areaFree (s : State) (n : Nat) : Bool :=
  (s.pf.savewin.get (n / 256) 0).getLsbD 31 && !s.sched.areas.has n &&
    s.sched.insts.all fun i => i.areas.all fun a => a.1 != n

/-- The area a context saved on its core would take, of those not in `taken` (R249). -/
def State.findArea (s : State) (taken : List Nat) (k : Nat) : Option Nat :=
  let free := fun n => s.areaFree n && !taken.contains n
  if free k then some k
  else
    let q := quadOf (dieOf k)
    (((List.range 4).map fun j => (q + j) % 4).flatMap fun m => (List.range 256).map (256 * m + ·)).find? free

/-- Areas for all contexts of a list, found together; none when one cannot be found. -/
def State.findAreas (s : State) (taken : List Nat) (ks : List Nat) : Option (List Nat) :=
  match ks with
  | [] => some []
  | k :: rest =>
    match s.findArea taken k with
    | none => none
    | some n => (s.findAreas (n :: taken) rest).map (n :: ·)

/-- Asks every context of a grid point to stop, with save areas found for all of them first; else the stop waits (R95, R249). -/
def State.preempt (s : State) (id : Nat) : State :=
  match s.sched.insts.find? (fun i => i.id == id) with
  | none => s
  | some i =>
    if i.stopping || decide (i.stat ≠ .running) then s
    else match s.findAreas [] i.ctxs with
      | none => s.upInst id fun i => { i with waitArea := true, due := false }
      | some areas =>
        let tags := i.teams.flatMap fun t => (List.range t.ctxs.length).map fun j => (t.team, j)
        i.ctxs.foldl (fun s k => s.upCtx k Ctx.askStop)
          (s.upInst id fun i => { i with waitArea := false, due := false, stopping := true, areas := areas.zip tags })

/-- A running grid point is to be pre-empted: phase 5 of a scheduler step starts that (R75, R94). -/
def State.preemptDue (s : State) (id : Nat) : State :=
  s.upInst id fun i => if i.stat = .running ∧ !i.stopping then { i with due := true } else i

/-- Withdraws the preloads that stand on a die (Table 4-6): QUEUED while the task is ACTIVE, else discarded. -/
def State.withdrawOn (s : State) (p : Inst → Bool) : State :=
  let active := fun seq => s.sched.tasks.any fun t => t.seq == seq && decide (t.stat = .active)
  let insts := s.sched.insts.filterMap fun i =>
    if decide (i.stat = .preloaded) && p i then
      (if active i.seq then some { i with stat := .queued, onto := none, teams := [] } else none)
    else some i
  { s with sched := { s.sched with insts := insts } }

/-- Retires a compute die: no placement, preloads withdrawn, running instances pre-empted (R119). -/
def State.retireDie (s : State) (die : Nat) : State :=
  if (s.pf.susp.get die {}).ret then s
  else
    let s := { s with pf := { s.pf with susp := s.pf.susp.set die { s.pf.susp.get die {} with ret := true } } }
    let s := s.withdrawOn fun i => i.teams.any fun t => t.die == die
    (s.sched.insts.filter fun i => i.teams.any fun t => t.die == die).foldl (fun s i => s.preemptDue i.id) s

/-- Adds to a die's suspicion score, saturating at 255; at 16 the die retires (R118, R119). -/
def State.charge (s : State) (die n : Nat) : State :=
  let u := s.pf.susp.get die {}
  let score := Nat.min 255 (u.score + n)
  let s := { s with pf := { s.pf with susp := s.pf.susp.set die { u with score := score } } }
  if 16 ≤ score then s.retireDie die else s

/-- Counts a clean epoch for a die: at 1,024 the count returns to 0 and the score falls by 1 (R118). -/
def State.clean (s : State) (die : Nat) : State :=
  let u := s.pf.susp.get die {}
  let u := if u.clean = 1023 then { u with clean := 0, score := u.score - 1 } else { u with clean := u.clean + 1 }
  { s with pf := { s.pf with susp := s.pf.susp.set die u } }

/-- The in-flight task of a partition with a tag whose sequence number is lowest (R79). -/
def State.tagged (s : State) (vf tag : Nat) : Option Task :=
  s.sched.tasks.foldl (fun (b : Option Task) t =>
    if t.vf = vf ∧ t.card.tag = tag ∧ t.stat ≠ .ended then (match b with
      | some o => if t.seq < o.seq then some t else b
      | none => some t) else b) none

/-- Whether a decrement for a tag finds its task, its early-decrement entry, or room for one (R79, R342). -/
def State.tagRoom (s : State) (vf tag : Nat) : Bool :=
  (s.tagged vf tag).isSome || (s.sched.early.any fun e => e.1 == vf && e.2.1 == tag) || decide (s.sched.early.length < Config.earlyEntries)

/-! ### Slots of sealed mode (R60) -/

/-- The partitions in sealed mode. -/
def State.sealedVfs (s : State) : List Nat := (s.pf.pctl.map Prod.fst).eraseDups.filter s.isSealed

/-- SLOTS of a partition. -/
def State.slotsOf (s : State) (vf : Nat) : Nat := fld (s.pctl vf).w0.toNat 0 16

/-- WAYS of a partition. -/
def State.waysOf (s : State) (vf : Nat) : Nat := fld (s.pctl vf).w3.toNat 0 16

/-- The slot a die is in: bits [9:6] of its cycle counter. -/
def State.slotNow (s : State) (die : Nat) : Nat := fld (s.cycle die).toNat 6 4

/-- Whether a die's resources accept new work of a partition in the present slot. -/
def State.slotOpen (s : State) (die vf : Nat) : Bool :=
  let n := s.slotNow die
  match s.sealedVfs.find? (fun v => (s.slotsOf v).testBit n) with
  | some v => v == vf
  | none => !s.isSealed vf

/-! ### Signatures (R106, R107) -/

/-- One byte into the CRC-64 of polynomial 0x42F0_E1EB_A9EA_3693, most significant bit first. -/
def crcByte (c : BitVec 64) (b : Byte) : BitVec 64 :=
  (List.range 8).foldl (fun (c : BitVec 64) _ => if c.getLsbD 63 then (c <<< 1) ^^^ 0x42F0E1EBA9EA3693 else c <<< 1)
    (c ^^^ (BitVec.ofNat 64 b.toNat <<< 56))

/-- Bytes into a CRC, in order. -/
def crcBytes (c : BitVec 64) (bs : List Byte) : BitVec 64 := bs.foldl crcByte c

/-- Bytes of a class 2 copy enter the executing stream's word (R107). -/
def State.signBytes (s : State) (k : Nat) (st : Strm) (bs : List Byte) : State :=
  if (s.ctx k).team.pclass = 2 then s.upStrm k st fun x => { x with crc := crcBytes x.crc bs } else s

/-- The signature word of a stream (R106, R107). -/
def StreamSt.word (x : StreamSt) (st : Strm) : BitVec 64 :=
  match st with
  | .v => vecWord x.vacc
  | _ => x.crc

/-! ### Epochs (R108 to R117) -/

/-- Forgets an epoch: it is FREE or discarded. -/
def State.dropEpoch (s : State) (key n : Nat) : State :=
  { s with prot := { s.prot with epochs := s.prot.epochs.filter fun e => !(e.key == key && e.n == n) } }

/-- The signature log of a key (R110). -/
def State.sigLog (s : State) (key : Nat) : SigLog := s.prot.logs.get key {}

/-- Replaces a signature log. -/
def State.setLog (s : State) (key : Nat) (l : SigLog) : State := { s with prot := { s.prot with logs := s.prot.logs.set key l } }

/-- The context that runs a stream of copy `copy` of a grid point, if that copy is placed. -/
def Inst.ctxFor (i : Inst) (copy : Nat) (e : EKey) : Option Nat :=
  match i.teams.find? (fun t => t.copy == copy && t.stage == e.stage && t.replica == e.replica) with
  | some t => t.ctxs[e.tidx]?
  | none => none

/-- The grid point of an epoch key. -/
def State.instOfKey (s : State) (e : EKey) : Option Inst := s.sched.insts.find? fun i => i.id == e.inst

/-- The die that holds, or last held, a copy's stream (R118). -/
def Inst.dieOfCopy (i : Inst) (copy : Nat) (e : EKey) : Option Nat :=
  (i.homes.find? fun h => h.1 == copy && h.2.1 == e.stage && h.2.2.1 == e.replica).map fun h => h.2.2.2

/-- Charges the die that holds a copy's compared stream with 4. -/
def State.chargeCopy (s : State) (i : Inst) (copy : Nat) (e : EKey) : State :=
  match i.dieOfCopy copy e with
  | some d => s.charge d 4
  | none => s

/-- Counts a clean epoch for the die that holds a copy's compared stream. -/
def State.cleanCopy (s : State) (i : Inst) (copy : Nat) (e : EKey) : State :=
  match i.dieOfCopy copy e with
  | some d => s.clean d
  | none => s

/-- The task ends with status 8 and every unreleased record of the grid point is discarded (R116). -/
def State.unresolved (s : State) (i : Inst) : State :=
  let mine := fun key => s.prot.keys.any fun e => e.key == key && e.inst == i.id
  let s := { s with prot := { s.prot with epochs := s.prot.epochs.filter fun p => !mine p.key || decide (p.stat = EStat.release) } }
  s.endTask i.seq 8 0 0

/-- Folds a word into a chain (R110). -/
def foldChain (chain w : BitVec 64) : BitVec 64 := crcBytes 0 (bytesOf chain.toNat 8 ++ bytesOf w.toNat 8)

/-- Compares a later copy's chain with the signature log once it has sealed the stream's last released epoch (R115, R117): a difference ends
the task with status 8, and charges the copy unless it is a replacement. -/
def State.checkChain (s : State) (i : Inst) (e : EKey) (copy : Nat) : State :=
  let l := s.sigLog e.key
  let (n, c) := l.ties.get copy (0, 0)
  if i.hasRole copy && decide (n = l.count ∧ n ≠ 0 ∧ c ≠ l.chain) && s.prot.epochs.all fun p => p.key != e.key || decide (p.stat ≠ EStat.release) then
    (if i.replaced && copy == i.secondary then s else s.chargeCopy i copy e).unresolved i
  else s

/-- Stops a copy; its contexts are freed once they are quiet (R115). -/
def State.stopCopy (s : State) (i : Inst) (copy : Nat) : State :=
  ((i.teams.filter fun t => t.copy == copy).flatMap fun t => t.ctxs).foldl (fun s k => s.upCtx k Ctx.askStop) s

/-- After a vote lost by `loser`, the tie-break copy takes a role (R115). -/
def Inst.afterVote (i : Inst) (loser tie : Nat) : Inst :=
  if i.tie = some tie then
    (if loser = i.primary then { i with primary := i.secondary, secondary := tie, tie := none }
     else if loser = i.secondary then { i with secondary := tie, tie := none } else i)
  else i

/-- The epoch is released: the records of the primary role are kept (R112). -/
def State.release (s : State) (i : Inst) (p : Epoch) : State :=
  s.setEpoch { p with stat := .release, recs := p.recs.filter fun r => r.1 == i.primary }

/-- What a copy stopped by a vote sealed is forgotten, but for epochs that wait for a vote of their own, and released ones (R115). -/
def State.forgetLoser (s : State) (i : Inst) (copy : Nat) : State :=
  let mine := fun (key : Nat) => s.prot.keys.any fun e => e.key == key && e.inst == i.id
  let eps := s.prot.epochs.map fun (p : Epoch) =>
    if mine p.key && decide (p.stat ≠ EStat.release) && decide (p.stat ≠ EStat.vote) then
      { p with words := p.words.del copy, recs := p.recs.del copy } else p
  { s with prot := { s.prot with epochs := eps } }

/-- A vote is won: the loser's die is charged, a loser that holds a role is stopped and the tie-break copy takes a role, and the epoch is
released; a winner that an earlier vote has stopped leaves the task unresolved (Table 5-3, R115, R116). -/
def State.voteWon (s : State) (i : Inst) (e : EKey) (p : Epoch) (winner loser tie : Nat) (w : SigVal) : State :=
  let s := s.chargeCopy i loser e
  if !i.hasRole winner then s.unresolved i
  else
    let s := if i.hasRole loser then (s.stopCopy i loser).forgetLoser i loser else s
    (s.upInst i.id fun i => i.afterVote loser tie).release (i.afterVote loser tie) { p with words := [(winner, w)] }

/-- The vote on an epoch with what the disagreeing copies and the tie-break copy `t` brought (Table 5-3, R115, R116, R245). -/
def State.vote (s : State) (i : Inst) (e : EKey) (p : Epoch) (t : Nat) : State :=
  let word := fun (c : Nat) => p.words.find? fun w => w.1 == c
  match word t, p.voters.filterMap word with
  | some (_, .fault c pc err fva), ws =>
    if ws.any fun w => w.2.same (.fault c pc err fva) then s.endTask i.seq 6 err fva
    else if ws.length < 2 then s
    else
      let lone := ws.filter fun w => !(ws.any fun v => v.1 != w.1 && v.2.same w.2)
      ((lone.foldl (fun s w => s.chargeCopy i w.1 e) s).chargeCopy i t e).unresolved i
  | some (_, wt), [(a, wa), (b, wb)] =>
    if wt.same wa then s.voteWon i e p a b t wt
    else if wt.same wb then s.voteWon i e p b a t wt
    else (((s.chargeCopy i a e).chargeCopy i b e).chargeCopy i t e).unresolved i
  | _, _ => s

/-- The copy whose word decides a vote: the tie-break copy it waits for, or, where that one has been stopped or lost without sealing the
epoch, another standing copy that is no voter; none when none stands (R115). -/
def Inst.tieFor (i : Inst) (p : Epoch) : Option Nat :=
  if p.words.has p.tie || i.hasRole p.tie || decide (i.copyNext ≤ p.tie) then some p.tie
  else ((i.tie.toList ++ [i.secondary, i.primary]).find? fun c => !p.voters.contains c)

/-- The compare engine takes up epoch n of a stream, once every earlier one has been released: the transitions of Table 5-3. -/
def State.judge (s : State) (e : EKey) (n : Nat) : State :=
  match s.instOfKey e, s.prot.epochs.find? (fun p => p.key == e.key && p.n == n) with
  | some i, some p =>
    if decide (p.stat = EStat.release) || s.prot.epochs.any (fun q => q.key == e.key && decide (q.n < n) && decide (q.stat ≠ EStat.release)) then s
    else if p.stat = .vote then
      (match i.tieFor p with
        | some t => s.vote i e p t
        | none => (s.setEpoch { p with tie := i.copyNext }).upInst i.id fun i => { i with tieDue := true })
    else match p.words.find? (fun w => w.1 == i.primary), p.words.find? (fun w => w.1 == i.secondary) with
      | some (_, a), some (_, b) =>
        if a.same b then
          (match a with
            | .fault _ _ err fva => s.endTask i.seq 6 err fva
            | .word _ => ((s.cleanCopy i i.primary e).cleanCopy i i.secondary e).release i { p with words := [(i.primary, a)] })
        else if i.replaced then s.unresolved i
        else
          let s := s.toVote i { p with stat := .compare }
          (match i.tie with
            | some t => s.vote i e { p with stat := .vote, voters := [i.primary, i.secondary], tie := t } t
            | none => s)
      | none, none => s.setEpoch { p with stat := .open_ }
      | _, _ => s.setEpoch { p with stat := .half }
  | _, _ => s

/-- The compare engine takes up the epochs of one stream in ascending number (R112). -/
def State.judgeKey (s : State) (e : EKey) : State :=
  (sortBy id ((s.prot.epochs.filter fun p => p.key == e.key).map Epoch.n)).foldl (fun s n => s.judge e n) s

/-- A copy's sealed word reaches the compare engine (Table 5-3). The word of an epoch already released goes into the copy's own chain (R115). -/
def State.sealed (s : State) (e : EKey) (n copy : Nat) (w : BitVec 64) : State :=
  let l := s.sigLog e.key
  let p := s.epoch e.key n
  if decide (n < l.count) || decide (p.stat = .release) then
    let (m, c) := l.ties.get copy (0, 0)
    let s := s.setLog e.key { l with ties := l.ties.set copy (m + 1, foldChain c w) }
    match s.instOfKey e with
    | some i => s.checkChain i e copy
    | none => s
  else (s.setEpoch { p with words := p.words.set copy (.word w) }).judgeKey e

/-- Words that a context's vector stream has sealed reach the compare engine. -/
def State.sendWords (s : State) (k : Nat) : State :=
  match (s.ctx k).vec.words, s.ekey k .v with
  | [], _ => s
  | ws, some e =>
    let copy := (s.ctx k).team.copy
    ws.foldl (fun s w => s.sealed e w.1 copy w.2) (s.upCtx k fun c => { c with vec := { c.vec with words := [] } })
  | _, none => s.upCtx k fun c => { c with vec := { c.vec with words := [] } }

/-- A commit point of a class 2 stream: its open epoch is sealed with its word, and a new epoch opens (R108). In the vector stream the word
is made when every contribution issued before has come (R106). -/
def State.seal (s : State) (k : Nat) (st : Strm) : State :=
  match s.ekey k st with
  | none => s
  | some e =>
    let x := s.strm k st
    let s := s.upStrm k st fun x => { x with epoch := x.epoch + 1, recs := 0 }
    if st = .v then (s.upCtx k fun c => c.signs fun q => q ++ [.seal x.epoch]).sendWords k
    else (s.upStrm k st fun x => { x with crc := 0 }).sealed e x.epoch (s.ctx k).team.copy (x.word st)

/-- Whether every epoch of a stream below number n is FREE, with its word made (R109, R111). -/
def State.freeBelow (s : State) (k : Nat) (st : Strm) (n : Nat) : Bool :=
  (decide (st ≠ .v) || (s.ctx k).vec.sign.all fun i => match i with | .seal m => decide (n ≤ m) | _ => true) &&
  match s.ekey k st with
  | none => true
  | some e => s.prot.epochs.all fun p => !(p.key == e.key && decide (p.n < n))

/-- Whether every sealed epoch of a stream is FREE (R109, R111). -/
def State.epochsFree (s : State) (k : Nat) (st : Strm) : Bool := s.freeBelow k st (s.strm k st).epoch

/-- Records of a held store: the 32-byte blocks that its bytes touch (R103). -/
def Access.records (a : Access) : Nat := ((a.parts.flatMap fun p => p.bytes.map fun b => b.1 / 32).eraseDups).length

/-- Whether a held store must wait: a commit point was reached while an older epoch was not FREE, and that epoch still is not (R111). -/
def State.holdStalls (s : State) (k : Nat) (st : Strm) : Bool := !s.freeBelow k st ((s.strm k st).epoch - 1)

/-- Adds the records of a held store to the open epoch of a copy's stream; the 2,048th makes a commit point (R103, R108). The records of a store
that crosses the 2,048th all stand in the epoch that it ends (DESIGN CHOICE, notes/assumptions/96.md). What a later copy stores in an
epoch that is already released is dropped (R115). -/
def State.hold (s : State) (k : Nat) (st : Strm) (r : HeldRec) (nrec : Nat) : State :=
  match s.ekey k st with
  | none => s
  | some e =>
    let x := s.strm k st
    let p := s.epoch e.key x.epoch
    let copy := (s.ctx k).team.copy
    let old := decide (x.epoch < (s.sigLog e.key).count) || decide (p.stat = EStat.release)
    let s := if old then s else s.setEpoch { p with recs := p.recs.set copy (p.recs.get copy [] ++ [r]) }
    let s := s.upStrm k st fun x => { x with recs := x.recs + nrec }
    if Config.epochRecords ≤ x.recs + nrec then s.seal k st else s

/-- The bytes an access carries, in order. -/
def Access.data (a : Access) : List Byte := a.parts.flatMap fun p => p.bytes.map Prod.snd

/-- Holds stores of a class 2 stream one by one, each with the bytes that its word covers, until one must wait (R111); how many were held. -/
def State.holdEach (s : State) (k : Nat) (st : Strm) (as_ : List (Access × List Byte)) : State × Nat :=
  match as_ with
  | [] => (s, 0)
  | (a, sign) :: rest =>
    if s.holdStalls k st then (s, 0)
    else
      let (s, n) := ((s.signBytes k st sign).hold k st (.store a a.va) a.records).holdEach k st rest
      (s, n + 1)

/-- Issues a store of the executing control or vector instruction, with the bytes its signature word covers, behind the fence of a release
(R177): into the class queues, or in class 2 into the open epoch as a held store, which retires when buffered (R103, R174). -/
def State.issueStore (s : State) (rel : List Access) (a : Access) (sign : List Byte) : State :=
  if s.here.team.pclass = 2 then
    match s.holdEach s.cur.ctx s.cur.st [(a, sign)] with
    | (_, 0) => s
    | (s, _) => if rel.isEmpty then s.finish else s.issueAccs rel
  else s.issueAccs (rel ++ [a])

/-- A commit point of the executing instruction, made once; the rest goes on when every sealed epoch is FREE (R109, R111).
Nothing in classes 0 and 1. -/
def State.committing (s : State) (go : State → State) : State :=
  if s.here.team.pclass ≠ 2 then go s
  else if s.me.committed then (if s.epochsFree s.cur.ctx s.cur.st then go s else s)
  else if !s.epochsFree s.cur.ctx s.cur.st then s
  else
    let s := (s.upStrm s.cur.ctx s.cur.st fun x => { x with committed := true }).seal s.cur.ctx s.cur.st
    if s.epochsFree s.cur.ctx s.cur.st then go s else s

/-- A fence or acquire of the executing instruction that covers `mask` first reports a write error or a lost acknowledgement (R50,
R181); the fault is imprecise (R240). -/
def State.synced (s : State) (mask : Nat) (go : State) : State :=
  match s.me.syncFault mask with
  | none => go
  | some (f, x) =>
    if s.me.rob.isEmpty && s.here.mayRecord s.cur.st then
      (s.upHere fun c => c.setStrm s.cur.st x).fault f
    else s

end Sys2Proof.Machine
end

