-- ==== Sys2Proof/Machine/Fp.lean ====
section
/-!
DEFINITION. Sys2Proof/Machine/Fp.lean: the scalar element formats (R202, R203), exact values, correct rounding with its flags
(R204 to R209, R217), and the correctly rounded special functions of the vector engine (R359).
-/

namespace Sys2Proof.Machine

/-! ### Flags and rounding control (R205, R206, Table 10-5) -/

/-- Invalid: bit 4 of a JFLAG slot (R234). -/
def fInvalid : Nat := 16
/-- Divide-by-zero: bit 3. -/
def fDivZero : Nat := 8
/-- Overflow: bit 2. -/
def fOverflow : Nat := 4
/-- Underflow: bit 1. -/
def fUnderflow : Nat := 2
/-- Inexact: bit 0. -/
def fInexact : Nat := 1

/-- A rounding in force: the code of Table 9-2, for SD the value 29 · j mod 48 of R217, and whether subnormals are flushed (R209). -/
structure Rnd where
  code : Nat
  dith : Nat := 0
  flush : Bool := false
deriving DecidableEq, Repr

/-! ### Formats and values -/

/-- A floating-point format (Table 9-1): exponent and fraction widths, bias, whether the all-ones exponent holds infinity and NaN,
the code of the largest finite magnitude, and the default NaN (R203). -/
structure FFmt where
  ex : Nat
  m : Nat
  bias : Nat
  ieee : Bool
  maxMag : Nat
  nan : Nat
deriving DecidableEq, Repr

/-- FP64. -/
def fmtF64 : FFmt := ⟨11, 52, 1023, true, 0x7FEFFFFFFFFFFFFF, 0x7FF8000000000000⟩
/-- FP32. -/
def fmtF32 : FFmt := ⟨8, 23, 127, true, 0x7F7FFFFF, 0x7FC00000⟩
/-- BF16. -/
def fmtBf16 : FFmt := ⟨8, 7, 127, true, 0x7F7F, 0x7FC0⟩
/-- FP16. -/
def fmtF16 : FFmt := ⟨5, 10, 15, true, 0x7BFF, 0x7E00⟩
/-- E4M3. -/
def fmtE4m3 : FFmt := ⟨4, 3, 7, false, 0x7E, 0x7F⟩
/-- E5M2. -/
def fmtE5m2 : FFmt := ⟨5, 2, 15, true, 0x7B, 0x7E⟩
/-- E2M1; it has no NaN. -/
def fmtE2m1 : FFmt := ⟨2, 1, 1, false, 7, 0⟩

/-- Sign bit of a format as a number. -/
def FFmt.signBit (f : FFmt) : Nat := 2 ^ (f.ex + f.m)

/-- Bits of an element. -/
def FFmt.bits (f : FFmt) : Nat := f.ex + f.m + 1

/-- Exponent of the smallest normal. -/
def FFmt.emin (f : FFmt) : Int := 1 - f.bias

/-- A floating-point datum: NaN, an infinity, or (-1)^neg · m · 2^e. -/
inductive Fv where
  | nan
  | inf (neg : Bool)
  | num (neg : Bool) (m : Nat) (e : Int)
deriving DecidableEq, Repr

/-- The datum of a bit pattern (R202); with `flush` a subnormal is zero of its sign (R209). -/
def FFmt.read (f : FFmt) (flush : Bool) (w : Nat) : Fv :=
  let neg := w.testBit (f.ex + f.m)
  let x := w / 2 ^ f.m % 2 ^ f.ex
  let fr := w % 2 ^ f.m
  if f.ieee && x == 2 ^ f.ex - 1 then (if fr = 0 then .inf neg else .nan)
  else if !f.ieee && f.nan != 0 && w % f.signBit == f.nan then .nan
  else if x = 0 then .num neg (if flush then 0 else fr) (f.emin - f.m)
  else .num neg (2 ^ f.m + fr) (f.emin - f.m + x - 1)

/-- Whether a datum is zero. -/
def Fv.isZero (x : Fv) : Bool :=
  match x with
  | .num _ 0 _ => true
  | _ => false

/-- Sign of a datum; a NaN has none. -/
def Fv.neg? (x : Fv) : Bool :=
  match x with
  | .nan => false
  | .inf n => n
  | .num n _ _ => n

/-- A positive exact magnitude n/d · 2^e. -/
structure Mag where
  n : Nat
  d : Nat
  e : Int
deriving DecidableEq, Repr

/-- An exact real, signed: n/d · 2^e. -/
structure Ex where
  n : Int
  d : Nat := 1
  e : Int := 0
deriving DecidableEq, Repr

/-- An operation's exact result. -/
inductive Rv where
  | nan
  | inf (neg : Bool)
  | zero (neg : Bool)
  | mag (neg : Bool) (x : Mag)
deriving DecidableEq, Repr

/-! ### Rounding (R205 to R207, R209, R217) -/

/-- Exponent of the leading bit: ⌊log2⌋. -/
def Mag.log2 (x : Mag) : Int :=
  let k : Int := (Nat.log2 x.n : Int) - Nat.log2 x.d
  let ge := if 0 ≤ k then decide (x.d * 2 ^ k.toNat ≤ x.n) else decide (x.d ≤ x.n * 2 ^ (-k).toNat)
  x.e + if ge then k else k - 1

/-- x / 2^q as quotient, remainder and divisor. -/
def Mag.quo (x : Mag) (q : Int) : Nat × Nat × Nat :=
  let s := x.e - q
  let n := if 0 ≤ s then x.n * 2 ^ s.toNat else x.n
  let d := if 0 ≤ s then x.d else x.d * 2 ^ (-s).toNat
  (n / d, n % d, d)

/-- Whether a magnitude between k and k + 1 quanta, `rem`/`d` above k, goes to k + 1 (Table 9-2, R217). -/
def Rnd.away (r : Rnd) (neg : Bool) (k rem d : Nat) : Bool :=
  if rem = 0 then false
  else match r.code with
    | 0 => decide (d < 2 * rem) || (decide (2 * rem = d) && k % 2 == 1)
    | 1 => false
    | 2 => neg
    | 3 => !neg
    | _ => if neg then decide ((d - rem) * 96 < (2 * r.dith + 1) * d) else decide ((2 * r.dith + 1) * d ≤ rem * 96)

/-- Multiple of the quantum 2^q that a magnitude rounds to, and whether it differs. -/
def Rnd.toQuantum (r : Rnd) (neg : Bool) (x : Mag) (q : Int) : Nat × Bool :=
  let (k, rem, d) := x.quo q
  (if r.away neg k rem d then k + 1 else k, decide (rem ≠ 0))

/-- Magnitude code written when a finite result overflows (R207). -/
def FFmt.overflowMag (f : FFmt) (r : Rnd) (neg : Bool) : Nat :=
  if !f.ieee then f.maxMag
  else match r.code with
    | 1 => f.maxMag
    | 2 => if neg then f.maxMag + 1 else f.maxMag
    | 3 => if neg then f.maxMag else f.maxMag + 1
    | _ => f.maxMag + 1

/-- Rounds a magnitude into a format: bit pattern and flags (R206, R207, R209). -/
def FFmt.roundMag (f : FFmt) (r : Rnd) (neg : Bool) (x : Mag) : Nat × Nat :=
  let sg := if neg then f.signBit else 0
  let lg := x.log2
  let qmin := f.emin - f.m
  let q := if lg - f.m < qmin then qmin else lg - f.m
  let (u, _) := r.toQuantum neg x (lg - f.m)
  let tiny := decide (lg < f.emin) && !(decide (lg = f.emin - 1) && u == 2 ^ (f.m + 1))
  let (k, inexact) := r.toQuantum neg x q
  let mag := (q - qmin).toNat * 2 ^ f.m + k
  if r.flush && tiny then (sg, fUnderflow + fInexact)
  else if f.maxMag < mag then (sg + f.overflowMag r neg, fOverflow + fInexact)
  else (sg + mag, if inexact then fInexact + (if tiny then fUnderflow else 0) else 0)

/-- Writes an exact result into a format: bit pattern and flags. An infinity in E4M3 is the default NaN with invalid (R207). -/
def FFmt.write (f : FFmt) (r : Rnd) (v : Rv) : Nat × Nat :=
  match v with
  | .nan => (f.nan, 0)
  | .inf neg => if f.ieee then ((if neg then f.signBit else 0) + f.maxMag + 1, 0) else (f.nan, fInvalid)
  | .zero neg => (if neg then f.signBit else 0, 0)
  | .mag neg x => f.roundMag r neg x

/-- A datum as an exact result. -/
def Fv.toRv (x : Fv) : Rv :=
  match x with
  | .nan => .nan
  | .inf n => .inf n
  | .num n m e => if m = 0 then .zero n else .mag n ⟨m, 1, e⟩

/-- The sign of an exact result of zero that is no product or quotient: - under RD, else the sign the zero has (R204;
notes/assumptions/21.md). -/
def Rnd.zeroSign (r : Rnd) (neg : Bool) : Bool := decide (r.code = 2) || neg

/-- A datum as the exact result of a conversion. -/
def Fv.asResult (r : Rnd) (x : Fv) : Rv :=
  match x.toRv with
  | .zero n => .zero (r.zeroSign n)
  | v => v

/-- Converts a datum to another format. -/
def FFmt.convert (f : FFmt) (r : Rnd) (x : Fv) : Nat × Nat := f.write r (x.asResult r)

/-! ### Exact arithmetic -/

/-- Aligns two exponents. -/
def alignE (e0 e : Int) : Int := (2 : Int) ^ (e - e0).toNat

/-- Sum of exact reals. -/
def Ex.add (a b : Ex) : Ex :=
  if a.n = 0 then b
  else if b.n = 0 then a
  else
    let e := if a.e ≤ b.e then a.e else b.e
    if a.d = b.d then ⟨a.n * alignE e a.e + b.n * alignE e b.e, a.d, e⟩
    else ⟨a.n * alignE e a.e * b.d + b.n * alignE e b.e * a.d, a.d * b.d, e⟩

/-- Negative of an exact real. -/
def Ex.neg (a : Ex) : Ex := { a with n := -a.n }

/-- Product of exact reals. -/
def Ex.mul (a b : Ex) : Ex := ⟨a.n * b.n, a.d * b.d, a.e + b.e⟩

/-- Quotient of exact reals; the divisor is not zero. -/
def Ex.div (a b : Ex) : Ex :=
  ⟨(if b.n < 0 then -1 else 1) * a.n * b.d, a.d * b.n.natAbs, a.e - b.e⟩

/-- An integer as an exact real. -/
def Ex.int (n : Int) : Ex := ⟨n, 1, 0⟩

/-- An exact real with no sign for zero, as a result: zero is +0, or -0 under RD (R204, R229). -/
def Ex.toRv (r : Rnd) (a : Ex) : Rv :=
  if a.n = 0 then .zero (decide (r.code = 2)) else .mag (decide (a.n < 0)) ⟨a.n.natAbs, a.d, a.e⟩

/-- Exact value of a finite datum; 0 for the others. -/
def Fv.ex (x : Fv) : Ex :=
  match x with
  | .num n m e => ⟨if n then -(m : Int) else m, 1, e⟩
  | _ => ⟨0, 1, 0⟩

/-- Whether a datum is finite. -/
def Fv.finite (x : Fv) : Bool :=
  match x with
  | .num .. => true
  | _ => false

/-- Exclusive-or of two signs. -/
def xorB (a b : Bool) : Bool := a != b

/-- Product of two data, exact; true for 0 · ∞. A NaN operand gives NaN and no flag. -/
def Fv.mul (a b : Fv) : Fv × Bool :=
  match a, b with
  | .nan, _ => (.nan, false)
  | _, .nan => (.nan, false)
  | .inf n, y => if y.isZero then (.nan, true) else (.inf (xorB n y.neg?), false)
  | x, .inf n => if x.isZero then (.nan, true) else (.inf (xorB x.neg? n), false)
  | .num n m e, .num n' m' e' => (.num (xorB n n') (m * m') (e + e'), false)

/-- Exact sum of data: NaN and infinities as R221 and R371 give them, with true when +∞ and -∞ both occur; the sign of an exact zero as
R204 gives it. -/
def sumFv (r : Rnd) (xs : List Fv) : Rv × Bool :=
  let clash := xs.any (fun x => decide (x = .inf true)) && xs.any (fun x => decide (x = .inf false))
  if clash || xs.any (fun x => decide (x = .nan)) then (.nan, clash)
  else if xs.any (fun x => decide (x = .inf true)) then (.inf true, false)
  else if xs.any (fun x => decide (x = .inf false)) then (.inf false, false)
  else
    let t := xs.foldl (fun acc x => acc.add x.ex) (Ex.int 0)
    if t.n = 0 then (.zero (decide (r.code = 2) || (!xs.isEmpty && xs.all Fv.neg?)), false)
    else (t.toRv r, false)

/-- Quotient of two data with its flags (Table 16-5, Table 16-6). -/
def divFv (a b : Fv) : Rv × Nat :=
  match a, b with
  | .nan, _ => (.nan, 0)
  | _, .nan => (.nan, 0)
  | .inf _, .inf _ => (.nan, fInvalid)
  | .inf n, y => (.inf (xorB n y.neg?), 0)
  | x, .inf n => (.zero (xorB x.neg? n), 0)
  | .num n m e, .num n' m' e' =>
    if m' = 0 then (if m = 0 then (.nan, fInvalid) else (.inf (xorB n n'), fDivZero))
    else if m = 0 then (.zero (xorB n n'), 0)
    else (.mag (xorB n n') ⟨m, m', e - e'⟩, 0)

/-- Compares two finite or infinite data by exact value: -1, 0 or 1; ±0 are equal. -/
def cmpFv (a b : Fv) : Int :=
  match a, b with
  | .inf n, .inf n' => if n = n' then 0 else if n then -1 else 1
  | .inf n, _ => if n then -1 else 1
  | _, .inf n => if n then 1 else -1
  | x, y =>
    let d := (x.ex.add y.ex.neg).n
    if d = 0 then 0 else if d < 0 then -1 else 1

/-! ### Integers (R208) -/

/-- A datum to a signed integer of w bits: rounded, saturated, with flags; the result as an integer. A finite datum that saturates is
also inexact, as the value written differs from it (R206). -/
def fvToInt (r : Rnd) (w : Nat) (x : Fv) : Int × Nat :=
  let hi : Int := 2 ^ (w - 1) - 1
  let lo : Int := -(2 ^ (w - 1))
  match x with
  | .nan => (0, fInvalid)
  | .inf n => (if n then lo else hi, fInvalid)
  | .num n m e =>
    if m = 0 then (0, 0)
    else
      let big := decide (w + 1 ≤ (⟨m, 1, e⟩ : Mag).log2)
      let (k, ix) := if big then (2 ^ (w + 1), false) else r.toQuantum n ⟨m, 1, e⟩ 0
      let v : Int := if n then -(k : Int) else k
      if hi < v then (hi, fInvalid + fInexact) else if v < lo then (lo, fInvalid + fInexact) else (v, if ix then fInexact else 0)

/-- A signed integer as an exact result; zero is -0 under RD, else +0 (R204; notes/assumptions/21.md). -/
def intRv (r : Rnd) (n : Int) : Rv := if n = 0 then .zero (r.zeroSign false) else .mag (decide (n < 0)) ⟨n.natAbs, 1, 0⟩

/-- A w-bit pattern read as signed. -/
def toSigned (w x : Nat) : Int := if x % 2 ^ w < 2 ^ (w - 1) then (x % 2 ^ w : Nat) else (x % 2 ^ w : Nat) - (2 : Int) ^ w

/-- The w-bit pattern of an integer. -/
def toBits (w : Nat) (x : Int) : Nat := (x % (2 : Int) ^ w).toNat

/-! ### Square roots -/

/-- ⌊√n⌋ from its highest bit down, for n < 2^(2 · bits). -/
def isqrt (bits n : Nat) : Nat :=
  match bits with
  | 0 => 0
  | b + 1 =>
    (List.range (b + 1)).foldl (fun cur i =>
      let t := cur + 2 ^ (b - i)
      if t * t ≤ n then t else cur) 0

/-- √(m · 2^e) for m > 0, or its reciprocal: exact, or with a last bit that stands for an irrational rest. -/
def sqrtMag (recip : Bool) (m : Nat) (e : Int) : Mag :=
  let odd := e % 2 ≠ 0
  let m := if odd then 2 * m else m
  let e := if odd then e - 1 else e
  if recip then
    let k := 64 + Nat.log2 m
    let n := 2 ^ (2 * k) / m
    let s := isqrt (k + 2) n
    let e' := -(e / 2) - k
    if s * s * m = 2 ^ (2 * k) then ⟨s, 1, e'⟩ else ⟨2 * s + 1, 1, e' - 1⟩
  else
    let n := m * 2 ^ 128
    let s := isqrt (Nat.log2 n / 2 + 2) n
    let e' := e / 2 - 64
    if s * s = n then ⟨s, 1, e'⟩ else ⟨2 * s + 1, 1, e' - 1⟩

/-! ### Transcendental functions by enclosure

Each function below gives its value in fixed point with p fraction bits, within 2^20 of the last place. The rounding of R359 is the
one on which both ends of the enclosure agree; else the precision rises. -/

/-- Σ z^(2i+1)/(2i+1) for i < n with alternating signs when `alt`: atanh or arctan of z in fixed point, z² given. -/
def atanSeries (alt : Bool) (p n : Nat) (z z2 : Nat) : Int :=
  ((List.range n).foldl (fun (a : Int × Nat) i =>
    let t : Int := (a.2 / (2 * i + 1) : Nat)
    (if alt && i % 2 == 1 then a.1 - t else a.1 + t, a.2 * z2 / 2 ^ p)) ((0 : Int), z)).1

/-- ln 2 = 2 · atanh(1/3). -/
def ln2Fix (p : Nat) : Nat := (2 * atanSeries false p (p / 3 + 8) (2 ^ p / 3) (2 ^ p / 9)).toNat

/-- π/2 = 8 · arctan(1/5) - 2 · arctan(1/239). -/
def halfPiFix (p : Nat) : Nat :=
  (8 * atanSeries true p (p / 4 + 8) (2 ^ p / 5) (2 ^ p / 25)
    - 2 * atanSeries true p (p / 15 + 8) (2 ^ p / 239) (2 ^ p / 57121)).toNat

/-- Σ s^i · y^i / i! for i < n, s = -1 when `alt`: exp(±y) in fixed point. -/
def expSeries (alt : Bool) (p n y : Nat) : Int :=
  ((List.range n).foldl (fun (a : Int × Nat) i =>
    let t : Int := a.2
    (if alt && i % 2 == 1 then a.1 - t else a.1 + t, a.2 * y / 2 ^ p / (i + 1))) ((0 : Int), 2 ^ p)).1

/-- sin (odd terms) and cos (even terms) of y in fixed point. -/
def sinCosSeries (p n y : Nat) : Int × Int :=
  let r := (List.range n).foldl (fun (a : Int × Int × Nat) i =>
    let t : Int := a.2.2
    let t := if i % 4 < 2 then t else -t
    let next := a.2.2 * y / 2 ^ p / (i + 1)
    if i % 2 = 0 then (a.1, a.2.1 + t, next) else (a.1 + t, a.2.1, next)) ((0 : Int), (0 : Int), 2 ^ p)
  (r.1, r.2.1)

/-- Terms enough for p bits of an exponential or circular series with |y| < 1.6. -/
def seriesTerms (p : Nat) : Nat := p / 4 + 24

/-- m · 2^e in fixed point with p fraction bits, rounded down. -/
def toFix (p m : Nat) (e : Int) : Nat :=
  let s := e + p
  if 0 ≤ s then m * 2 ^ s.toNat else m / 2 ^ (-s).toNat

/-- exp(-y), y = m · 2^e, as v · 2^(-p - k). -/
def expNeg (p m : Nat) (e : Int) : Nat × Nat :=
  let y := toFix p m e
  let l := ln2Fix p
  let k := y / l
  ((expSeries true p (seriesTerms p) (y - k * l)).toNat, k)

/-- A special function of Table 16-5. -/
inductive Fun where
  | exp2 | log2 | sin | cos | tanh | sigm
deriving DecidableEq, Repr

/-- An approximation: sign, v and e with the value within 2^20 · 2^e of v · 2^e. -/
structure Approx where
  neg : Bool
  v : Nat
  e : Int

/-- Approximation of a function at (-1)^neg · m · 2^e with p bits; the argument is none of the points with an exact value. -/
def Fun.approx (f : Fun) (neg : Bool) (m : Nat) (e : Int) (p : Nat) : Approx :=
  match f with
  | .exp2 =>
    -- 2^(i + fr) with 0 ≤ fr < 1; far arguments are all alike
    let lg := (⟨m, 1, e⟩ : Mag).log2
    if 12 ≤ lg then ⟨false, 2 ^ p + 2 ^ 40, (if neg then -4096 else 4096) - p⟩
    else
      let q := p + 160
      let y := toFix q m e
      let i : Int := if neg then -((y / 2 ^ q : Nat) : Int) - 1 else (y / 2 ^ q : Nat)
      let fr := if neg then 2 ^ q - y % 2 ^ q else y % 2 ^ q
      let l := ln2Fix p
      ⟨false, (expSeries false p (seriesTerms p) (fr / 2 ^ 160 * l / 2 ^ p)).toNat, i - p⟩
  | .log2 =>
    let k := Nat.log2 m
    let i : Int := e + k
    let fr := m * 2 ^ p / 2 ^ k
    let z := (fr - 2 ^ p) * 2 ^ p / (fr + 2 ^ p)
    let ln := 2 * atanSeries false p (p / 3 + 8) z (z * z / 2 ^ p)
    let v : Int := i * 2 ^ p + ln * 2 ^ p / (ln2Fix p : Nat)
    ⟨decide (v < 0), v.natAbs, -p⟩
  | .sin | .cos =>
    let q := p + 160
    let x := toFix q m e
    let h := halfPiFix q
    let k := x / h
    let (s, c) := sinCosSeries p (seriesTerms p) ((x - k * h) / 2 ^ 160)
    let v : Int := if f = .sin
      then (if k % 4 = 0 then s else if k % 4 = 1 then c else if k % 4 = 2 then -s else -c)
      else (if k % 4 = 0 then c else if k % 4 = 1 then -s else if k % 4 = 2 then -c else s)
    ⟨xorB (decide (v < 0)) (decide (f = .sin) && neg), v.natAbs, -p⟩
  | .tanh =>
    if 6 ≤ (⟨m, 1, e⟩ : Mag).log2 then ⟨neg, 2 ^ 120 - 2 ^ 30, -120⟩
    else
      let (v, k) := expNeg p m (e + 1)
      let u := v / 2 ^ k
      ⟨neg, (2 ^ p - u) * 2 ^ p / (2 ^ p + u), -p⟩
  | .sigm =>
    if 8 ≤ (⟨m, 1, e⟩ : Mag).log2 then (if neg then ⟨false, 2 ^ 30, -500⟩ else ⟨false, 2 ^ 120 - 2 ^ 30, -120⟩)
    else
      let (v, k) := expNeg p m e
      let u := v / 2 ^ k
      if neg then ⟨false, u * 2 ^ p / (2 ^ p + u), -p⟩ else ⟨false, 2 ^ (2 * p) / (2 ^ p + u), -p⟩

/-- Precisions tried in turn. -/
def zivBits : List Nat := [192, 384, 768, 1536, 3072, 6144]

/-- Rounds the value that `g` encloses ever more closely between lo · 2^e and hi · 2^e: the ends must round alike. -/
def FFmt.ziv (f : FFmt) (r : Rnd) (g : Nat → Bool × Nat × Nat × Int) (ps : List Nat) : Nat × Nat :=
  match ps with
  | [] => (f.nan, 0)
  | p :: rest =>
    let (neg, lo, hi, e) := g p
    if lo = 0 then f.ziv r g rest
    else
      let a := f.roundMag r neg ⟨lo, 1, e⟩
      let b := f.roundMag r neg ⟨hi, 1, e⟩
      if a = b ∧ a.2 % 2 = 1 then a else f.ziv r g rest

/-- A special function at a finite non-zero argument: the exact cases, else the rounded enclosure. -/
def Fun.at_ (f : Fun) (r : Rnd) (neg : Bool) (m : Nat) (e : Int) : Nat × Nat :=
  let general := fmtF32.ziv r (fun p => let a := f.approx neg m e p; (a.neg, a.v - 2 ^ 20, a.v + 2 ^ 20, a.e)) zivBits
  match f with
  | .exp2 =>
    let lg := (⟨m, 1, e⟩ : Mag).log2
    if 12 ≤ lg then general
    else if 0 ≤ e ∨ m % 2 ^ (-e).toNat = 0 then
      let i : Int := toFix 0 m e
      fmtF32.roundMag r false ⟨1, 1, if neg then -i else i⟩
    else general
  | .log2 =>
    let k := Nat.log2 m
    if m = 2 ^ k then (if e + k = 0 then (0, 0) else fmtF32.write r ((Ex.int (e + k)).toRv r)) else general
  | _ => general

/-- A special function of any datum with its flags (Tables 16-5, 16-6). -/
def Fun.eval (f : Fun) (r : Rnd) (a : Fv) : Nat × Nat :=
  let w := fun (v : Rv) => fmtF32.write r v
  match f, a with
  | _, .nan => w .nan
  | .exp2, .inf n => w (if n then .zero false else .inf false)
  | .log2, .inf n => if n then (fmtF32.nan, fInvalid) else w (.inf false)
  | .sin, .inf _ => (fmtF32.nan, fInvalid)
  | .cos, .inf _ => (fmtF32.nan, fInvalid)
  | .tanh, .inf n => w (.mag n ⟨1, 1, 0⟩)
  | .sigm, .inf n => if n then w (.zero false) else w (.mag false ⟨1, 1, 0⟩)
  | f, .num n m e =>
    if m = 0 then
      match f with
      | .exp2 | .cos => w (.mag false ⟨1, 1, 0⟩)
      | .log2 => (fmtF32.signBit + fmtF32.maxMag + 1, fDivZero)
      | .sin | .tanh => w (.zero n)
      | .sigm => w (.mag false ⟨1, 1, -1⟩)
    else if f = .log2 ∧ n then (fmtF32.nan, fInvalid)
    else f.at_ r n m e

end Sys2Proof.Machine
end

