-- ==== Sys2Proof/Machine/Check.lean ====
section
/-!
DEFINITION. Sys2Proof/Machine/Check.lean: the checks beside the arithmetic of class 1 (R98 to R102): checksums of K-steps and queries,
residues of vector integer operations, the replay, and errors that come from outside (notes/assumptions/98.md).
-/

namespace Sys2Proof.Machine

/-! ### Checksums (R99) -/

/-- Whether two exact reals are equal. -/
def Ex.same (a b : Ex) : Bool := (a.add b.neg).n == 0

/-- Exact sum of products of two vectors. -/
def exDot (a b : List Ex) : Ex := (a.zip b).foldl (fun acc p => acc.add (p.1.mul p.2)) (Ex.int 0)

/-- Exact sum of vectors of n elements. -/
def exSum (n : Nat) (vs : List (List Ex)) : List Ex :=
  vs.foldl (fun acc v => (acc.zip v).map fun p => p.1.add p.2) (List.replicate n (Ex.int 0))

/-- An error in the exact products of element 64 · m + n of a K-step or a query. -/
abbrev ElemErr := Option (Nat × Int)

/-- The error that element 64 · m + n has. -/
def errAt (err : ElemErr) (m n : Nat) : Int := match err with | some e => if e.1 = 64 * m + n then e.2 else 0 | none => 0

/-- The compares of R99 for A rows and B columns of K elements: of every row the exact sum of its products, with the error, against the
product with the checksum column, and of every column against the checksum row. Elements that `skip` names take no part. -/
def checksumsAgree (K : Nat) (as_ bs : List (List Ex)) (err : ElemErr) (skip : Nat → Nat → Bool) : Bool :=
  let ix := fun (xs : List (List Ex)) => (List.range xs.length).zip xs
  let prod := fun (m : Nat × List Ex) (n : Nat × List Ex) => (exDot m.2 n.2).add (Ex.int (errAt err m.1 n.1))
  let sum := fun (xs : List Ex) => xs.foldl Ex.add (Ex.int 0)
  ((ix as_).all fun m =>
    let ns := (ix bs).filter fun n => !skip m.1 n.1
    (sum (ns.map (prod m))).same (exDot m.2 (exSum K (ns.map Prod.snd)))) &&
  ((ix bs).all fun n =>
    let ms := (ix as_).filter fun m => !skip m.1 n.1
    (sum (ms.map fun m => prod m n)).same (exDot (exSum K (ms.map Prod.snd)) n.2))

/-- An error as one more pair of operands of an exact sum. -/
def errPair (err : ElemErr) (m n : Nat) : List (Fv × Fv) :=
  match errAt err m n with
  | 0 => []
  | e => [(.num (decide (e < 0)) e.natAbs 0, .num false 1 0)]

/-- The compares of R99 for floating-point operands. A row or column with a NaN or an infinity has no exact sum, and takes no part
(DESIGN CHOICE, notes/assumptions/98.md). -/
def checksumsFv (K : Nat) (as_ bs : List (List Fv)) (err : ElemErr) : Bool :=
  let fin := fun (xs : List (List Fv)) (i : Nat) => (xs.getD i []).all Fv.finite
  checksumsAgree K (as_.map fun r => r.map Fv.ex) (bs.map fun r => r.map Fv.ex) err fun m n => !fin as_ m || !fin bs n

/-! ### Residues (R100) -/

/-- The residue that the pipeline expects of a written element: that of the exact result, less what wrap or saturation took off. -/
def residueOf (exact : Int) (w : Nat) : Int := (exact % 15 - (exact - w) % 15) % 15

/-! ### Replay (R101) -/

/-- The next error of a stream's checked operations. -/
def State.hitOf (s : State) (k : Nat) (st : Strm) : Option Hit := s.hits.find? fun h => h.ctx == k && decide (h.st = st)

/-- An error has had its effect. -/
def State.dropHit (s : State) (k : Nat) (st : Strm) : State :=
  match s.hitOf k st with
  | some h => { s with hits := s.hits.erase h }
  | none => s

/-- Runs a checked operation of a stream, which gives a result and whether its check holds under an error: in class 1 a failed check runs it
again, once; if that holds its result stands and the die is charged 1; none when it fails again (R101). -/
def State.checked {α : Type} (s : State) (k : Nat) (st : Strm) (run : Bool → ElemErr → α × Bool) : State × Option α :=
  let class1 := decide ((s.ctx k).team.pclass = 1)
  let h := s.hitOf k st
  let first := run class1 (h.map fun h => (h.elem, h.first))
  if !class1 || first.2 then (s.dropHit k st, some first.1)
  else
    let again := run class1 (h.map fun h => (h.elem, h.replay))
    if again.2 then ((s.dropHit k st).charge (dieOf k) 1, some again.1) else (s, none)

/-- What a second failed check leaves, when its fault has been taken: the die is charged 4 (R101). -/
def State.checkFailed (t : State) (k : Nat) (st : Strm) : State :=
  if (t.strm k st).faulted then (t.dropHit k st).charge (dieOf k) 4 else t

end Sys2Proof.Machine
end

