-- ==== Sys2Proof/Machine/Tile.lean ====
section
/-!
DEFINITION. Sys2Proof/Machine/Tile.lean: tiles (R152 to R155, R251): their names, reading and writing their rows through the
storage code, storage units and the save share.
-/

namespace Sys2Proof.Machine

/-- Level of a handle (Table 6-2). -/
def tileLevel (h : Nat) : Nat := if h < 64 then 0 else if h < 192 then 1 else 2

/-- The tile that handle `h` names in a context (Table 6-2): owner is the context, the team, or the task and copy. -/
def Ctx.tileKey (c : Ctx) (k h : Nat) : TileKey :=
  match tileLevel h with
  | 0 => ⟨0, k, h⟩
  | 1 => ⟨1, c.team.team, h⟩
  | _ => ⟨2, 1024 * c.team.seq + (if c.team.pclass = 2 then c.team.copy else 0), h⟩

/-- An allocated tile. -/
def State.tile (s : State) (key : TileKey) : Option Tile :=
  match s.tiles.find? (fun t => decide (t.1 = key)) with
  | some t => some t.2
  | none => none

/-- Replaces or adds a tile. -/
def State.setTile (s : State) (key : TileKey) (t : Tile) : State :=
  { s with tiles := if s.tiles.any (fun x => decide (x.1 = key))
      then s.tiles.map fun x => if x.1 = key then (key, t) else x else s.tiles ++ [(key, t)] }

/-- Forgets a tile. -/
def State.dropTile (s : State) (key : TileKey) : State :=
  { s with tiles := s.tiles.filter fun x => decide (x.1 ≠ key) }

/-- The tile that a handle names for a context of the module. -/
def State.tileOf (s : State) (k h : Nat) : Option Tile := s.tile ((s.ctx k).tileKey k h)

/-- Whether rows `first` to `first + cnt - 1` lie in a tile with at least `n` bytes each (R154). -/
def Tile.covers (t : Tile) (first cnt n : Nat) : Bool := decide (first + cnt ≤ t.rows) && decide (n ≤ t.rb)

/-- The row that a TILE fault names when an access to n bytes of each row from `first` on is not covered: the first row that fails (R154). -/
def Tile.firstBad (t : Tile) (first n : Nat) : Nat := if t.rb < n then first else Nat.max first t.rows

/-- A byte of a tile; bytes never written read 0 (R155). -/
def Tile.byte (t : Tile) (row off : Nat) : Byte := t.bytes.get (row * t.rb + off) 0

/-- Data of the 4-byte tile word `w`. -/
def Tile.word (t : Tile) (w : Nat) : Nat := leNat ((List.range 4).map fun i => t.bytes.get (4 * w + i) 0)

/-- The die that logs errors of a tile: the context's die, or the memory die of a level-2 tile (R153). -/
def Tile.die (t : Tile) (k h : Nat) : Nat := if tileLevel h = 2 then Config.memDie t.mem else dieOf k

/-- The memory die on which a context allocates a level-2 tile: of the quadrant of the task's first-placed team, or of the class 2 copy's
own (R153). -/
def State.level2Home (s : State) (k : Nat) : Nat :=
  let own := quadOf (dieOf k)
  if (s.ctx k).team.pclass = 2 then own
  else match s.sched.tasks.find? (fun t => t.seq == (s.ctx k).team.seq) with
    | some t => t.first.getD own
    | none => own

/-! ### Slice transfers (R16, R153) -/

/-- Strip of a stream's engine (R15). -/
def engStrip (st : Strm) : Nat :=
  match st with
  | .m => 1
  | .v => 3
  | _ => 4

/-- Column of a context. -/
def colOf (k : Nat) : Nat := k / 4 % 16

/-- Column and strip of the cell that holds a row of a level-0 or level-1 tile (R153). -/
def cellOf (k level row : Nat) : Nat × Nat :=
  (if level = 0 then colOf k else row % 32 / 2, if row % 2 = 0 then 0 else 2)

/-- Hands packets between a column and strip of a die and another to the fabric. -/
def State.sendSlice (s : State) (k : Nat) (eng : Nat) (a b : Nat × Nat) (len : Nat) : State :=
  let p : Packet :=
    { id := s.fab.pktNext, vf := (s.ctx k).vf, len := len, eng := eng, die := dieOf k, strip := a.2, col := a.1, toCol := b.1,
      toStrip := b.2, dies := [], leg := .start, since := 0, flits := 0, buf := 0, esc := false }
  { s with fab := { s.fab with slices := s.fab.slices ++ [p], pktNext := s.fab.pktNext + 1 } }

/-- Bytes of a tile row go from its cell to an engine. -/
def State.rowOut (s : State) (k : Nat) (st : Strm) (h row len : Nat) : State :=
  if tileLevel h = 2 ∨ len = 0 then s else s.sendSlice k 2 (cellOf k (tileLevel h) row) (colOf k, engStrip st) len

/-- Bytes of a tile row go from an engine to its cell. -/
def State.rowIn (s : State) (k : Nat) (st : Strm) (h row len : Nat) : State :=
  if tileLevel h = 2 ∨ len = 0 then s
  else s.sendSlice k (match st with | .c => 0 | .y => 1 | _ => 2) (colOf k, engStrip st) (cellOf k (tileLevel h) row) len

/-! ### Reading and writing rows (R121, R434) -/

/-- What reading the 4-byte tile word `w` through its code gives (R121, R433). -/
def Tile.code (t : Tile) (w : Nat) : EccRead :=
  if !t.check.has w then .clean else eccRead 32 6 (t.word w) (t.check.get w 0).toNat

/-- The value of byte `a` of a tile, read through the code of its word; none when that is uncorrectable. -/
def Tile.val (t : Tile) (a : Nat) : Option Byte :=
  match t.code (a / 4) with
  | .clean => some (t.bytes.get a 0)
  | .fixed d => some (byteOf d (a % 4))
  | .bad => none

/-- Logs what accessing words of a tile through the code finds; a read asks for the write-back of a corrected word (R121, R124, R434). -/
def State.tileNote (s : State) (k h : Nat) (t : Tile) (words : List Nat) (read : Bool) : State :=
  if t.check.isEmpty then s
  else
    let key := (s.ctx k).tileKey k h
    words.eraseDups.foldl (fun s w => match t.code w with
      | .clean => s
      | .fixed _ =>
        let s := s.logEcc (t.die k h) 2 w false
        if read then s.queueWriteback (.sram (.tile key.level key.owner key.h w)) else s
      | .bad => s.logEcc (t.die k h) 2 w true) s

/-- Reads bytes of a tile by their indices, each word once through the code (R121): none when a word is uncorrectable. -/
def State.tileReadAt (s : State) (k : Nat) (st : Strm) (h : Nat) (t : Tile) (as_ : List Nat) : State × Option (List Byte) :=
  let rows := (as_.map (· / t.rb)).eraseDups
  let s := rows.foldl (fun s r => s.rowOut k st h r (as_.filter fun a => a / t.rb == r).length) s
  if t.check.isEmpty then (s, some (as_.map fun a => t.bytes.get a 0))
  else (s.tileNote k h t (as_.map (· / 4)) true, as_.mapM t.val)

/-- Reads n bytes of a row from byte `off` on. -/
def State.tileRead (s : State) (k : Nat) (st : Strm) (h : Nat) (t : Tile) (row off n : Nat) : State × Option (List Byte) :=
  s.tileReadAt k st h t ((List.range n).map fun i => row * t.rb + off + i)

/-- Writes (byte index, byte) pairs of one tile word: a whole word replaces the codeword, a part is merged through the code (R434);
none when the stored word is uncorrectable. -/
def Tile.putWord (t : Tile) (w : Nat) (bs : List (Nat × Byte)) : Option Tile :=
  let put := fun (t : Tile) => { t with bytes := bs.foldl (fun (m : AMap Byte) ab => m.set ab.1 ab.2) t.bytes }
  let clear := fun (t : Tile) => { t with check := t.check.del w }
  if !t.check.has w then some (put t)
  else if (List.range 4).all fun i => bs.any fun ab => ab.1 == 4 * w + i then some (clear (put t))
  else match t.code w with
    | .clean => some (clear (put t))
    | .fixed d => some (clear (put { t with bytes := (List.range 4).foldl (fun (m : AMap Byte) i => m.set (4 * w + i) (byteOf d i)) t.bytes }))
    | .bad => none

/-- Byte indices and values of bytes of a row from byte `off` on. -/
def Tile.places (t : Tile) (row off : Nat) (bs : List Byte) : List (Nat × Byte) :=
  (List.range bs.length).zip bs |>.map fun p => (row * t.rb + off + p.1, p.2)

/-- Writes bytes of a row from byte `off` on; false when a partly written word was uncorrectable (R434). -/
def Tile.write (t : Tile) (row off : Nat) (bs : List Byte) : Tile × Bool :=
  let ps := t.places row off bs
  if t.check.isEmpty then ({ t with bytes := ps.foldl (fun (m : AMap Byte) ab => m.set ab.1 ab.2) t.bytes }, true)
  else ((ps.map fun p => p.1 / 4).eraseDups).foldl (fun r w =>
    match r.1.putWord w (ps.filter fun p => p.1 / 4 == w) with
    | some t => (t, r.2)
    | none => (r.1, false)) (t, true)

/-- Words that writing bytes of a row covers in part. -/
def Tile.partWords (t : Tile) (row off : Nat) (bs : List Byte) : List Nat :=
  let as_ := (t.places row off bs).map Prod.fst
  ((as_.map (· / 4)).eraseDups).filter fun w => !((List.range 4).all fun i => as_.contains (4 * w + i))

/-- Writes bytes of a tile row for a stream; false as in `Tile.write`. What partly written words hold is logged (R434). -/
def State.tileWrite (s : State) (k : Nat) (st : Strm) (h row off : Nat) (bs : List Byte) : State × Bool :=
  match s.tileOf k h with
  | none => (s, true)
  | some t =>
    let s := (s.rowIn k st h row bs.length).tileNote k h t (if t.check.isEmpty then [] else t.partWords row off bs) false
    let (t, ok) := t.write row off bs
    (s.setTile ((s.ctx k).tileKey k h) t, ok)

/-- A TILE fault names handle and row in FVA (Table 11-2). -/
def tileFault (sub h row : Nat) : FaultRec := { cause := cTILE, sub := sub, fva := h + row % 2 ^ 24 * 256 }

/-! ### Storage units and shares (R152, R251) -/

/-- Bytes of one storage unit of a level. -/
def unitBytes (level : Nat) : Nat := if level = 2 then 65536 else 4096

/-- Storage units of a tile. -/
def tileUnits (level rows rb : Nat) : Nat := (rows * rb + unitBytes level - 1) / unitBytes level

/-- Contexts of the team of a context, in team core order. -/
def State.teamCtxs (s : State) (k : Nat) : List Nat :=
  match s.instOf k with
  | some i =>
    match i.teams.find? (fun t => t.ctxs.contains k) with
    | some t => t.ctxs
    | none => [k]
  | none => [k]

/-- The die that a tile's storage stands on: of its owner for level 0, of its team for level 1. -/
def State.tileOn (s : State) (key : TileKey) (die : Nat) : Bool :=
  match key.level with
  | 0 => key.owner / 64 == die
  | 1 => s.sched.insts.any fun i => i.teams.any fun t => t.team == key.owner && t.die == die
  | _ => false

/-- Bytes in units that the tiles satisfying `p` take. -/
def State.tileSum (s : State) (p : TileKey → Bool) : Nat :=
  (s.tiles.map fun t => if p t.1 then tileUnits t.1.level t.2.rows t.2.rb * unitBytes t.1.level else 0).foldl (· + ·) 0

/-- Bytes in units that the level-2 tiles of a memory die take. -/
def State.level2Sum (s : State) (m : Nat) : Nat :=
  (s.tiles.map fun t => if t.1.level = 2 ∧ t.2.mem = m then tileUnits 2 t.2.rows t.2.rb * unitBytes 2 else 0).foldl (· + ·) 0

/-- Bytes in units of the tiles of a level that a code image declares (R152, R270). -/
def State.declBytes (s : State) (code level : Nat) : Nat :=
  (s.sched.decl.map fun d =>
    if d.1 = code ∧ tileLevel d.2.1 = level then tileUnits level d.2.2.1 d.2.2.2 * unitBytes level else 0).foldl (· + ·) 0

/-- Bytes that preloads reserve: on a die when `core` is none, else on one core at level 0 (R91). -/
def State.reserved (s : State) (die : Nat) (core : Option Nat) : Nat :=
  ((s.sched.insts.filter fun i => decide (i.stat = .preloaded)).map fun i =>
    let code := match s.sched.tasks.find? (fun t => t.seq == i.seq) with | some t => t.card.code | none => 0
    ((i.teams.filter fun t => t.die == die).map fun t =>
      match core with
      | none => t.ctxs.length * s.declBytes code 0 + s.declBytes code 1
      | some c => if t.ctxs.any fun k => k / 4 == c then s.declBytes code 0 else 0).foldl (· + ·) 0).foldl (· + ·) 0

/-- Bytes taken or reserved on a die, and at level 0 of a core. -/
def State.dieBytes (s : State) (die : Nat) : Nat := s.tileSum (fun t => s.tileOn t die) + s.reserved die none

/-- See `State.dieBytes`. -/
def State.coreBytes (s : State) (core : Nat) : Nat :=
  s.tileSum (fun t => t.level == 0 && t.owner / 4 == core) + s.reserved (core / 16) (some core)

/-- Whether `bytes` more fit at a level for a context (Table 6-2). -/
def State.tileRoom (s : State) (k level bytes : Nat) : Bool :=
  let die := dieOf k
  let onDie := s.dieBytes die
  match level with
  | 0 => decide (s.coreBytes (k / 4) + bytes ≤ Config.level0Bytes) &&
      decide (onDie + bytes ≤ Config.level1Bytes)
  | 1 => decide (onDie + bytes ≤ Config.level1Bytes)
  | _ => decide (s.level2Sum (s.level2Home k) + bytes ≤ Config.level2Bytes)

/-- Units of a tile of U units that team core index j of n saves: unit u goes to u mod n (R251). -/
def shareUnits (units n j : Nat) : Nat := (units + n - 1 - j) / n

/-- Save share of context `j` of a team in bytes: its level-0 tiles and its part of the team's level-1 tiles (R251). -/
def State.saveShare (s : State) (k team n j : Nat) : Nat :=
  (s.tiles.map fun t =>
    if t.1.level = 0 ∧ t.1.owner = k then tileUnits 0 t.2.rows t.2.rb * 4096
    else if t.1.level = 1 ∧ t.1.owner = team then shareUnits (tileUnits 1 t.2.rows t.2.rb) n j * 4096 else 0).foldl (· + ·) 0

/-- Whether allocating `units` at a level keeps every context's share within 1,424 KiB (R251). -/
def State.shareFits (s : State) (k level units : Nat) : Bool :=
  let c := s.ctx k
  match level with
  | 0 => decide (s.saveShare k c.team.team c.team.tsize c.team.tidx + units * 4096 ≤ Config.saveShare)
  | 1 =>
    let ks := s.teamCtxs k
    ((List.range ks.length).zip ks).all fun jk =>
      decide (s.saveShare jk.2 c.team.team ks.length jk.1 + shareUnits units ks.length jk.1 * 4096 ≤ Config.saveShare)
  | _ => true

end Sys2Proof.Machine
end

