-- ==== Sys2Proof/Machine/Fetch.lean ====
section
/-!
DEFINITION. Sys2Proof/Machine/Fetch.lean: the instruction that stands at an address of a stream (R277 to R279, R340).
-/

namespace Sys2Proof.Machine

/-! ### Fetch (R277 to R279) -/

/-- What stands at an address of a stream: an instruction or a reserved word with the address behind it, a fetch that waits, or a
fetch fault. -/
inductive Stands where
  | instr (i : Instr) (next : Nat)
  | reserved (next : Nat)
  | miss (va : Nat)
  | wait (line : Nat)
  | bad (f : FaultRec)
deriving DecidableEq, Repr

/-- Fetches n halfwords from `va` on; where it fails, the address of the halfword and why. -/
def State.fetchHalves (s : State) (k va n : Nat) : Except (Nat × Fetched) (List Byte) :=
  match n with
  | 0 => .ok []
  | n + 1 =>
    match s.fetchHalf k va with
    | .error e => .error (va, e)
    | .ok (b0, b1) =>
      match s.fetchHalves k (va + 2) n with
      | .error e => .error e
      | .ok bs => .ok (b0 :: b1 :: bs)

/-- A fetch that failed at a halfword (R279). -/
def fetchFailed (va : Nat) (e : Fetched) : Stands :=
  match e with
  | .miss => .miss va
  | .wait l => .wait l
  | .xbad t l => .bad { cause := cXLATE, tkind := t, level := l, fva := va }
  | .err c => .bad { cause := cDATAERR, err := c, fva := va }
  | .byte _ => .miss va

/-- Number of ones in the set bits of a `fork` word: its extension words (R340). -/
def forkExts (w : Nat) : Nat := fld w 6 1 + fld w 7 1 + fld w 8 1

/-- Halfwords of the instruction whose first word begins with these bytes: 1, 2, or for `fork` 2 and two per extension word. -/
def State.wordLen (s : State) (k : Nat) (st : Strm) (va : Nat) : Except (Nat × Fetched) Nat :=
  match s.fetchHalves k va 1 with
  | .error e => .error e
  | .ok b =>
    let h := leNat b
    if h % 2 = 0 then .ok 1
    else if st = .c ∧ fld h 1 5 = 24 then .ok (2 + 2 * forkExts h)
    else .ok 2

/-- The instruction word at `va` in a stream's map; none stands at an odd address (R277, R305). -/
def State.standsAt (s : State) (k : Nat) (st : Strm) (va : Nat) : Stands :=
  if va % 2 = 1 then .reserved (va + 2)
  else match s.wordLen k st va with
  | .error (a, e) => fetchFailed a e
  | .ok n =>
    match s.fetchHalves k va n with
    | .error (a, e) => fetchFailed a e
    | .ok bs =>
      match decode st bs with
      | .ok (i, _) => .instr i (va + 2 * n)
      | .error _ => .reserved (va + 2 * n)

end Sys2Proof.Machine
end

