-- ==== Sys2Proof/Machine/Control.lean ====
section
/-!
DEFINITION. Sys2Proof/Machine/Control.lean: the control stream's arithmetic, branches, calls, fork and rendezvous, tiles, shape
registers, guards and queue depth (15_control_isa.md).
-/

namespace Sys2Proof.Machine

/-- What executing a row gives. -/
abbrev Out := Host.Outcome State Fault Refusal

/-! ### Integer arithmetic (R317 to R322) -/

/-- Writes `v` to `gd` when every source has been written, else waits (R315). -/
def State.alu (s : State) (gd : Nat) (srcs : List Nat) (v : Word) : State :=
  if s.here.gReady srcs then (s.writeG gd v).finish else s

/-- A comparison's result. -/
def ofBool64 (b : Bool) : Word := if b then 1 else 0

/-- Signed quotient rounded toward zero; all ones for a divisor of 0, and -2^63 / -1 = -2^63 (R318). -/
def divS (a b : Word) : Word := if b = 0 then BitVec.allOnes 64 else BitVec.ofInt 64 (a.toInt.tdiv b.toInt)

/-- Unsigned quotient (R318). -/
def divU (a b : Word) : Word := if b = 0 then BitVec.allOnes 64 else BitVec.ofNat 64 (a.toNat / b.toNat)

/-- Signed remainder, with the dividend's sign (R318). -/
def remS (a b : Word) : Word := if b = 0 then a else BitVec.ofInt 64 (a.toInt.tmod b.toInt)

/-- Unsigned remainder (R318). -/
def remU (a b : Word) : Word := if b = 0 then a else BitVec.ofNat 64 (a.toNat % b.toNat)

/-- Halfword `hw` of a register: a 16-bit immediate at its place (R321). -/
def atHalf (imm hw : Nat) : Word := BitVec.ofNat 64 (imm * 2 ^ (16 * hw))

/-- `mov gd, ga` copies ga (R322). -/
def execMov (gd ga : Nat) (s : State) : Out := .next (s.alu gd [ga] (s.readG ga))

/-- `add`: (ga + gb) mod 2^64 (R317). -/
def execAdd (gd ga gb : Nat) (s : State) : Out := .next (s.alu gd [ga, gb] (s.readG ga + s.readG gb))

/-- `sub`: (ga - gb) mod 2^64 (R317). -/
def execSub (gd ga gb : Nat) (s : State) : Out := .next (s.alu gd [ga, gb] (s.readG ga - s.readG gb))

/-- `and`: bitwise and (R317). -/
def execAnd (gd ga gb : Nat) (s : State) : Out := .next (s.alu gd [ga, gb] (s.readG ga &&& s.readG gb))

/-- `or`: bitwise or (R317). -/
def execOr (gd ga gb : Nat) (s : State) : Out := .next (s.alu gd [ga, gb] (s.readG ga ||| s.readG gb))

/-- `xor`: bitwise exclusive or (R317). -/
def execXor (gd ga gb : Nat) (s : State) : Out := .next (s.alu gd [ga, gb] (s.readG ga ^^^ s.readG gb))

/-- `shl`: ga shifted left by gb[5:0] (R317). -/
def execShl (gd ga gb : Nat) (s : State) : Out := .next (s.alu gd [ga, gb] ((s.readG ga) <<< ((s.readG gb).toNat % 64)))

/-- `shr`: ga shifted right with zeros by gb[5:0] (R317). -/
def execShr (gd ga gb : Nat) (s : State) : Out := .next (s.alu gd [ga, gb] ((s.readG ga) >>> ((s.readG gb).toNat % 64)))

/-- `sar`: ga shifted right with copies of bit 63 by gb[5:0] (R317). -/
def execSar (gd ga gb : Nat) (s : State) : Out := .next (s.alu gd [ga, gb] ((s.readG ga).sshiftRight ((s.readG gb).toNat % 64)))

/-- `mul`: low 64 bits of the product (R317). -/
def execMul (gd ga gb : Nat) (s : State) : Out := .next (s.alu gd [ga, gb] (s.readG ga * s.readG gb))

/-- `mulh`: bits [127:64] of the signed product (R317). -/
def execMulh (gd ga gb : Nat) (s : State) : Out :=
  .next (s.alu gd [ga, gb] (BitVec.ofInt 64 ((s.readG ga).toInt * (s.readG gb).toInt / 2 ^ 64)))

/-- `mulhu`: bits [127:64] of the unsigned product (R317). -/
def execMulhu (gd ga gb : Nat) (s : State) : Out :=
  .next (s.alu gd [ga, gb] (BitVec.ofNat 64 ((s.readG ga).toNat * (s.readG gb).toNat / 2 ^ 64)))

/-- `div`: signed quotient (R318). -/
def execDiv (gd ga gb : Nat) (s : State) : Out := .next (s.alu gd [ga, gb] (divS (s.readG ga) (s.readG gb)))

/-- `divu`: unsigned quotient (R318). -/
def execDivu (gd ga gb : Nat) (s : State) : Out := .next (s.alu gd [ga, gb] (divU (s.readG ga) (s.readG gb)))

/-- `rem`: signed remainder (R318). -/
def execRem (gd ga gb : Nat) (s : State) : Out := .next (s.alu gd [ga, gb] (remS (s.readG ga) (s.readG gb)))

/-- `remu`: unsigned remainder (R318). -/
def execRemu (gd ga gb : Nat) (s : State) : Out := .next (s.alu gd [ga, gb] (remU (s.readG ga) (s.readG gb)))

/-- `min`: signed minimum (R317). -/
def execMin (gd ga gb : Nat) (s : State) : Out :=
  .next (s.alu gd [ga, gb] (if (s.readG ga).toInt ≤ (s.readG gb).toInt then (s.readG ga) else (s.readG gb)))

/-- `max`: signed maximum (R317). -/
def execMax (gd ga gb : Nat) (s : State) : Out :=
  .next (s.alu gd [ga, gb] (if (s.readG ga).toInt ≤ (s.readG gb).toInt then (s.readG gb) else (s.readG ga)))

/-- `minu`: unsigned minimum (R317). -/
def execMinu (gd ga gb : Nat) (s : State) : Out :=
  .next (s.alu gd [ga, gb] (if (s.readG ga).toNat ≤ (s.readG gb).toNat then (s.readG ga) else (s.readG gb)))

/-- `maxu`: unsigned maximum (R317). -/
def execMaxu (gd ga gb : Nat) (s : State) : Out :=
  .next (s.alu gd [ga, gb] (if (s.readG ga).toNat ≤ (s.readG gb).toNat then (s.readG gb) else (s.readG ga)))

/-- `slt`: 1 if ga < gb, signed (R317). -/
def execSlt (gd ga gb : Nat) (s : State) : Out :=
  .next (s.alu gd [ga, gb] (ofBool64 (decide ((s.readG ga).toInt < (s.readG gb).toInt))))

/-- `sltu`: 1 if ga < gb, unsigned (R317). -/
def execSltu (gd ga gb : Nat) (s : State) : Out :=
  .next (s.alu gd [ga, gb] (ofBool64 (decide ((s.readG ga).toNat < (s.readG gb).toNat))))

/-- `seq`: 1 if ga = gb (R317). -/
def execSeq (gd ga gb : Nat) (s : State) : Out := .next (s.alu gd [ga, gb] (ofBool64 (decide ((s.readG ga) = (s.readG gb)))))

/-- `sne`: 1 if ga ≠ gb (R317). -/
def execSne (gd ga gb : Nat) (s : State) : Out := .next (s.alu gd [ga, gb] (ofBool64 (decide ((s.readG ga) ≠ (s.readG gb)))))

/-- `sel`: ga if the old gd is not 0, else gb (R317). -/
def execSel (gd ga gb : Nat) (s : State) : Out :=
  .next (s.alu gd [gd, ga, gb] (if s.readG gd ≠ 0 then s.readG ga else s.readG gb))

/-- `addi`: adds a sign-extended immediate (R319). -/
def execAddi (gd ga : Nat) (imm : Int) (s : State) : Out := .next (s.alu gd [ga] (s.readG ga + sext64 imm))

/-- `slti`: 1 if ga < the signed immediate (R319). -/
def execSlti (gd ga : Nat) (imm : Int) (s : State) : Out := .next (s.alu gd [ga] (ofBool64 (decide ((s.readG ga).toInt < imm))))

/-- `andi`: and with a zero-extended immediate (R319). -/
def execAndi (gd ga imm : Nat) (s : State) : Out := .next (s.alu gd [ga] (s.readG ga &&& BitVec.ofNat 64 imm))

/-- `ori`: or with a zero-extended immediate (R319). -/
def execOri (gd ga imm : Nat) (s : State) : Out := .next (s.alu gd [ga] (s.readG ga ||| BitVec.ofNat 64 imm))

/-- `xori`: exclusive or with a zero-extended immediate (R319). -/
def execXori (gd ga imm : Nat) (s : State) : Out := .next (s.alu gd [ga] (s.readG ga ^^^ BitVec.ofNat 64 imm))

/-- `shli`: shift left by n (R320). -/
def execShli (gd ga n : Nat) (s : State) : Out := .next (s.alu gd [ga] (s.readG ga <<< n))

/-- `shri`: shift right with zeros by n (R320). -/
def execShri (gd ga n : Nat) (s : State) : Out := .next (s.alu gd [ga] (s.readG ga >>> n))

/-- `sari`: shift right with copies of bit 63 by n (R320). -/
def execSari (gd ga n : Nat) (s : State) : Out := .next (s.alu gd [ga] ((s.readG ga).sshiftRight n))

/-- `li`: an immediate at halfword hw, the other bits cleared (R321). -/
def execLi (gd imm hw : Nat) (s : State) : Out := .next (s.alu gd [] (atHalf imm hw))

/-- `lik`: an immediate at halfword hw, the other bits kept (R321). -/
def execLik (gd imm hw : Nat) (s : State) : Out :=
  .next (s.alu gd [gd] ((s.readG gd &&& ~~~(atHalf 65535 hw)) ||| atHalf imm hw))

/-! ### Transfers (R139, R285, R335 to R340) -/

/-- The address `off` halfwords from the executing instruction's PC (R281). -/
def State.relTo (s : State) (off : Int) : Nat := (((s.cur.pc : Int) + 2 * off) % 2 ^ 64).toNat

/-- Control goes to `a` if a block header stands there, with `pre` done first; else CTLINT with SUB 0 (R139, R338). -/
def State.branch (s : State) (a : Nat) (pre : State → State) : State :=
  match s.target s.cur.ctx a with
  | .header | .unfetchable => (pre s).transfer a
  | .other => s.faultSub cCTLINT 0 0
  | .miss va => s.queueMiss s.cur.ctx 3 va
  | .wait l => s.waitFill s.cur.ctx (dieOf s.cur.ctx) l s.here.vf

/-- `bz`: branches when ga = 0 (R335). -/
def execBz (ga : Nat) (off : Int) (s : State) : Out :=
  .next (if !s.here.gReady [ga] then s else if s.readG ga = 0 then s.branch (s.relTo off) id else s.finish)

/-- `bnz`: branches when ga ≠ 0 (R335). -/
def execBnz (ga : Nat) (off : Int) (s : State) : Out :=
  .next (if !s.here.gReady [ga] then s else if s.readG ga ≠ 0 then s.branch (s.relTo off) id else s.finish)

/-- `call`: writes the return PC to g31 and pushes it on the shadow stack (R336); a full stack is CTLINT with SUB 2. -/
def execCall (off : Int) (s : State) : Out :=
  .next (if 512 ≤ s.here.shadow.length then s.faultSub cCTLINT 2 0
    else s.branch (s.relTo off) fun s =>
      (s.writeG 31 (BitVec.ofNat 64 s.cur.next)).upHere fun c => { c with shadow := BitVec.ofNat 64 s.cur.next :: c.shadow })

/-- `ret`: goes to g31 if it is the top of the shadow stack, else CTLINT with SUB 1, or 3 for an empty stack (R337, R338). -/
def execRet (s : State) : Out :=
  .next (if !s.here.gReady [31] then s
    else match s.here.shadow with
      | [] => s.faultSub cCTLINT 3 0
      | top :: rest =>
        if s.readG 31 ≠ top then s.faultSub cCTLINT 1 0
        else (s.upHere fun c => { c with shadow := rest }).transfer top.toNat)

/-- The entry that `jt` read: CTLINT with SUB 4 for bits [63:56], with SUB 0 for no header, else the transfer (R339). A fault forgets
the entry, so that a Retry reads it again. -/
def State.jumpTo (s : State) (e : Nat) : State :=
  let t := if 2 ^ 56 ≤ e then s.faultSub cCTLINT 4 0 else s.branch e id
  if t.me.faulted then t.upStrm t.cur.ctx t.cur.st fun x => { x with mpos := 0 } else t

/-- `jt`: falls through for u(ga) ≥ n, else reads entry ga of the table, and goes on when it has been read (R339). -/
def execJt (ga gb n : Nat) (s : State) : Out :=
  .next (if s.me.mpos ≠ 0 then s.jumpTo (s.me.mpos - 1)
    else if (s.me.cq ++ s.me.redo.map Prod.fst).any fun a => decide (a.sink = .jump s.cur.pc) then s
    else if !s.here.gReady [ga, gb] then s
    else if n ≤ (s.readG ga).toNat then s.finish
    else
      let va := (s.readG gb + 8 * s.readG ga).toNat
      s.withAddr va 8 8 0 fun locs e =>
        let r : Rob := { id := s.ord.nextId, done := false, push := 0, pc := s.cur.pc, err := 0, eff := [] }
        let a := newAccess s.ord.nextId 0 .read (groupParts (locs.map fun l => (l, 0))) (.jump s.cur.pc) va s.cur.pc e s.clock
        (s.pushAccs s.cur.ctx .c [a]).freshId.upStrm s.cur.ctx .c fun x => { x with rob := x.rob ++ [r] })

/-- Whether a partition owns an engine of a core, or shares it through a pool (R55 to R58): kinds 0 matrix, 1 vector, 2 copy. -/
def State.ownsEngine (s : State) (vf core kind : Nat) : Bool :=
  let e := (s.pf.own.get (3 * core + kind) 0).toNat
  match fld e 30 2 with
  | 1 => fld e 0 9 == vf
  | 2 => (s.pctl vf).w0.getLsbD 28 && fld (s.pctl vf).w0.toNat 24 4 == fld e 9 4
  | _ => false

/-- Engine kinds: matrix 0, vector 1, copy 2. -/
def kindOf (st : Strm) : Nat :=
  match st with
  | .m => 0
  | .v => 1
  | .y => 2
  | .c => 3

/-- A stream starts at its entry block at depth 1; its registers stay as they are (R340). -/
def StreamSt.start (x : StreamSt) (a : Nat) : StreamSt :=
  { (x.leave [] a) with stat := .run }

/-- `fork`: every target is a block header, every named stream IDLE on an engine the partition uses here, else CTLINT or STREAM and
nothing starts; then all start at once (R340, R137). -/
def execFork (set : Nat) (om ov oy : Int) (s : State) : Out :=
  let named := ([(0, Strm.m, om), (1, .v, ov), (2, .y, oy)].filter fun p => set.testBit p.1).map fun p => (p.2.1, s.relTo p.2.2)
  let look := named.map fun p => s.target s.cur.ctx p.2
  .next (match look.find? (fun t => decide (t = .other)) with
    | some _ => s.faultSub cCTLINT 0 0
    | none =>
      match look.find? (fun t => decide (t ≠ .header ∧ t ≠ .unfetchable)) with
      | some (.miss va) => s.queueMiss s.cur.ctx 3 va
      | some (.wait l) => s.waitFill s.cur.ctx (dieOf s.cur.ctx) l s.here.vf
      | _ =>
        if named.all fun p => decide ((s.here.strm p.1).stat = .idle) && s.ownsEngine s.here.vf (s.cur.ctx / 4) (kindOf p.1)
        then (named.foldl (fun s p => s.upStrm s.cur.ctx p.1 fun x => x.start p.2) s).finish
        else s.faultC cSTREAM)

/-- The engine streams. -/
def engineStrms : List Strm := [.m, .v, .y]

/-- Whether every engine stream in RUN or ARRIVED has ARRIVED (R138). -/
def Ctx.gathered (c : Ctx) : Bool := engineStrms.all fun st => decide ((c.strm st).stat ≠ .run)

/-- `rdv`: retires when every running stream has ARRIVED, and makes them IDLE as it does; tokens, guards and queues stay (R138, R341). -/
def execRdv (s : State) : Out :=
  .next (if s.here.gathered && s.me.rob.isEmpty then s.freshId.issuedEff s.ord.nextId true [.idle] else s)

/-! ### Tiles (R344 to R346) -/

/-- `talloc`: allocates a tile that reads zero, or takes TILE with the sub-code of the first condition that holds (R344). -/
def execTalloc (h ga gb : Nat) (s : State) : Out :=
  let rows := (s.readG ga).toNat
  let rb := (s.readG gb).toNat
  let level := tileLevel h
  let k := s.cur.ctx
  .next (if !s.here.gReady [ga, gb] || !s.me.rob.isEmpty then s
    else if rows < 1 ∨ 65536 < rows ∨ rb % 64 ≠ 0 ∨ rb < 64 ∨ 16384 < rb then s.fault (tileFault 1 h 0)
    else if (s.tileOf k h).isSome then s.fault (tileFault 2 h 0)
    else if !s.tileRoom k level (tileUnits level rows rb * unitBytes level) then s.fault (tileFault 3 h 0)
    else if !s.shareFits k level (tileUnits level rows rb) then s.fault (tileFault 4 h 0)
    else (s.setTile (s.here.tileKey k h) { rows := rows, rb := rb, mem := if level = 2 then s.level2Home k else 0 }).finish)

/-- Tile handles that an engine instruction names. -/
def handlesOf (i : Instr) : List Nat :=
  match i with
  | .mdraint h .. | .mld _ h .. | .qpop h .. | .qpush h .. | .cpyTensorTile h .. | .cpyTileTensor _ h .. => [h]
  | .cpyTileTile hd hs .. => [hd, hs]
  | .vtld _ h .. | .vtst h .. => [h]
  | _ => []

/-- Whether a queued instruction, in an iteration that has not completed, names a handle (R345). -/
def QEntry.names (q : QEntry) (st : Strm) (h : Nat) : Bool :=
  match q.rpt with
  | none => (handlesOf q.instr).contains h
  | some r => (List.range r.n).any fun j =>
      decide (q.iter ≤ j) && (match iteration st { r with iter := j } q.instr with | some i => (handlesOf i).contains h | none => false)

/-- Whether a repeated vector instruction of the executing context that has begun names a handle in an iteration still to come (R345). -/
def State.vNames (s : State) (h : Nat) : Bool :=
  match s.here.sv.rpt, s.standsAt s.cur.ctx .v s.here.sv.fp with
  | some r, .instr i _ => decide (0 < r.iter) && (List.range r.n).any fun j =>
      decide (r.iter ≤ j) && (match iteration .v { r with iter := j } i with | some i => (handlesOf i).contains h | none => false)
  | _, _ => false

/-- `tfree`: waits until no queued instruction of the context reaches the handle, then frees it; SUB 5 if it is not allocated (R345). -/
def execTfree (h : Nat) (s : State) : Out :=
  .next (if !s.me.rob.isEmpty then s
    else if (s.here.mat.queue.any fun q => !q.done && q.names .m h) || (s.here.cpy.queue.any fun q => !q.done && q.names .y h)
        || ((s.here.sv.cq ++ s.here.sv.redo.map Prod.fst).any fun a => decide (a.kind = .tile h)) || s.vNames h then s
    else if (s.tileOf s.cur.ctx h).isNone then s.fault (tileFault 5 h 0)
    else (s.dropTile (s.here.tileKey s.cur.ctx h)).finish)

/-! ### Shape registers (R347 to R349) -/

/-- Bit position and width of the descriptor field of each `dset` code (R348, Table 6-1). -/
def descField (f : Nat) : Nat × Nat :=
  match f with
  | 0 => (0, 56)
  | 1 => (56, 4)
  | 2 => (60, 2)
  | 3 => (62, 2)
  | 4 => (64, 16)
  | 5 => (80, 16)
  | 6 => (96, 16)
  | 7 => (112, 16)
  | 8 => (128, 40)
  | 9 => (168, 40)
  | 10 => (208, 40)
  | 11 => (256, 32)
  | 12 => (288, 32)
  | 13 => (320, 56)
  | _ => (376, 40)

/-- Replaces `w` bits from bit `lo` on of a descriptor. -/
def setField (d : BitVec 512) (lo w v : Nat) : BitVec 512 :=
  (d &&& ~~~(BitVec.ofNat 512 ((2 ^ w - 1) * 2 ^ lo))) ||| BitVec.ofNat 512 (v % 2 ^ w * 2 ^ lo)

/-- Whether no `dld` in flight will write a shape register (notes/assumptions/20.md). -/
def Ctx.dReady (c : Ctx) (d : Nat) : Bool :=
  (!c.dpend.any fun p => p.1 == d) && c.sc.rob.all fun r => r.eff.all fun e => match e with | .shape n .. => n != d | _ => true

/-- `dset`: writes one field of a shape register from the low bits of g, when it retires (R348, R151). -/
def execDset (dn gr field : Nat) (s : State) : Out :=
  .next (if !s.here.gReady [gr] || !s.here.dReady dn then s
    else
      let v := setField (s.here.readD dn) (descField field).1 (descField field).2 (s.readG gr).toNat
      s.freshId.issuedEff s.ord.nextId true [.shape dn v none])

/-- `dget`: reads one field of a shape register, zero-extended (R348). -/
def execDget (gr dn field : Nat) (s : State) : Out :=
  .next (if !s.here.dReady dn then s
    else s.alu gr [] (BitVec.ofNat 64 (fld (s.here.readD dn).toNat (descField field).1 (descField field).2)))

/-! ### Guards and queue depth (R350, R351) -/

/-- `gset slot, false` or `true`: written at retirement (R350). -/
def execGsetImm (slot : Nat) (val : Bool) (s : State) : Out :=
  .next (s.freshId.issuedEff s.ord.nextId true [.guard slot (if val then .isTrue else .isFalse)])

/-- `gclr slot`: UNRESOLVED at retirement (R350). -/
def execGclr (slot : Nat) (s : State) : Out := .next (s.freshId.issuedEff s.ord.nextId true [.guard slot .unresolved])

/-- `gset slot, ga`: TRUE if ga ≠ 0, else FALSE (R350). -/
def execGsetReg (ga slot : Nat) (s : State) : Out :=
  .next (if !s.here.gReady [ga] then s
    else s.freshId.issuedEff s.ord.nextId true [.guard slot (if s.readG ga ≠ 0 then .isTrue else .isFalse)])

/-- Depth of a queue of the context's engines (R159, R351): entries pushed and not delivered, or delivered and not popped. -/
def Ctx.qdepth (c : Ctx) (kind qn : Nat) (oper : Bool) : Nat :=
  if oper then (c.oq.get (2 * kind + qn) []).length else (c.rq.get (2 * kind + qn) []).length

/-- Entries of a result queue that are on their way to their operand queue (R158). -/
def State.inTransit (s : State) (k reg : Nat) : Nat :=
  (s.fab.transit.filter fun t => t.fromCtx == k && t.fromReg == reg).length

/-- `qdepth`: 0 for an engine the partition does not use here (R351). -/
def execQdepth (gd qn : Nat) (oper : Bool) (kind : Nat) (s : State) : Out :=
  let n := if s.ownsEngine s.here.vf (s.cur.ctx / 4) kind
    then s.here.qdepth kind qn oper + (if oper then 0 else s.inTransit s.cur.ctx (2 * kind + qn)) else 0
  .next (s.alu gd [] (BitVec.ofNat 64 n))

end Sys2Proof.Machine
end

