-- ==== Sys2Proof/Machine/ControlMem.lean ====
section
/-!
DEFINITION. Sys2Proof/Machine/ControlMem.lean: the control stream's memory instructions (R323 to R334, R339, R342, R347, R349) and
the diagnostic store (R313, R314).
-/

namespace Sys2Proof.Machine

/-- VA of a base register and an offset, modulo 2^64 (R323). -/
def State.vaOf (s : State) (gb : Nat) (off : Int) : Nat := (s.readG gb + sext64 off).toNat

/-- Locations paired with the bytes of a number, little-endian. -/
def withBytes (locs : List Nat) (w : Nat) : List (Nat × Byte) := locs.zip (bytesOf w locs.length)

/-- Parts of a read. -/
def readParts (locs : List Nat) : List Part := groupParts (locs.map fun l => (l, 0))

/-- What the word of a control stream covers for one store: the VA, then the data (R107). -/
def signStore (va : Nat) (data : List Byte) : List Byte := bytesOf va 8 ++ data

/-! ### Loads and stores (R324 to R326) -/

/-- Issues a read of `n` bytes whose data goes to `sink`; a g register in `dest` becomes pending (R315). -/
def State.issueRead (s : State) (va n align cls : Nat) (acq : Bool) (sink : Sink) (dest : Option Nat) : State :=
  s.withAddr va n align 0 fun locs e =>
    let a := { newAccess s.ord.nextId cls .read (readParts locs) sink va s.cur.pc e s.clock with acq := acq }
    let id := s.ord.nextId
    let s := match dest with | some gd => s.upHere fun c => c.pendG gd id | none => s
    s.issueAccs [a]

/-- `ld`: a plain read in class cls, zero- or sign-extended into gd (R324). -/
def execLd (gd gb : Nat) (off : Int) (sx : Bool) (lsz cls : Nat) (s : State) : Out :=
  .next (if !s.here.gReady [gb] then s
    else s.issueRead (s.vaOf gb (off * 2 ^ lsz)) (2 ^ lsz) (2 ^ lsz) cls false (.gReg gd (2 ^ lsz) sx) (some gd))

/-- A store of n bytes of a number at a VA, early or global, with a release fence of a scope before it if one is given. -/
def State.storeNat (s : State) (va n w cls : Nat) (glob : Bool) (rel : Option Nat) : State :=
  s.withAddr va n n 1 fun locs e =>
    let kind := if glob then AccKind.global else .early
    let a := newAccess s.ord.nextId cls kind (groupParts (withBytes locs w)) .none va s.cur.pc e s.clock
    let f := match rel with
      | some scope => [newAccess s.ord.nextId 0 (.fence 65535 scope) [] .none va s.cur.pc 0 s.clock]
      | none => []
    s.issueStore f a (signStore va (bytesOf w n))

/-- `st`: stores the low bytes of gs, early or global (R325). -/
def execSt (gb gs : Nat) (off : Int) (glob : Bool) (lsz cls : Nat) (s : State) : Out :=
  .next (if !s.here.gReady [gb, gs] then s
    else s.storeNat (s.vaOf gb (off * 2 ^ lsz)) (2 ^ lsz) (s.readG gs).toNat cls glob none)

/-- `ld.acq`: a load that later accesses of the stream wait for (R326, R178); it first reports LOST bits and write errors. -/
def execLdAcq (gd gb _scope : Nat) (sx : Bool) (lsz cls : Nat) (s : State) : Out :=
  .next (if !s.here.gReady [gb] then s
    else s.synced 65535 (s.issueRead (s.vaOf gb 0) (2 ^ lsz) (2 ^ lsz) cls true (.gReg gd (2 ^ lsz) sx) (some gd)))

/-- `st.rel`: a fence of mask 0xFFFF at the scope, then the store (R326, R177). -/
def execStRel (gb gs scope : Nat) (glob : Bool) (lsz cls : Nat) (s : State) : Out :=
  .next (if !s.here.gReady [gb, gs] then s
    else s.synced 65535 (s.committing fun s =>
      s.storeNat (s.vaOf gb 0) (2 ^ lsz) (s.readG gs).toNat cls glob (some scope)))

/-! ### Atomics (R327 to R329) -/

/-- One atomic: operation `op` in the order of R327, form 0 plain, 1 acquire, 2 release. In class 2 a returning atomic takes PROTECT
and one that returns nothing is a held store (R329). -/
def State.atomic (s : State) (op gd gb gs scope form cls : Nat) : State :=
  let va := s.vaOf gb 0
  if !s.here.gReady ([gb, gs] ++ if op = 7 then [gd] else []) then s
  else if s.here.team.pclass = 2 ∧ (op = 7 ∨ gd ≠ 0) then s.faultC cPROTECT
  else
    let go := fun (s : State) => s.withAddr va 8 8 2 fun locs e =>
      let kind := AccKind.amo op (s.readG gs) (s.readG gd)
      let sink := if s.here.team.pclass = 2 then Sink.none else .gOld gd
      let a := { newAccess s.ord.nextId cls kind (groupParts (withBytes locs (s.readG gs).toNat)) sink va s.cur.pc e s.clock with
        acq := decide (form = 1) }
      let f := if form = 2 then [newAccess s.ord.nextId 0 (.fence 65535 scope) [] .none va s.cur.pc 0 s.clock] else []
      if s.here.team.pclass = 2 then s.issueStore f a (signStore va (bytesOf (s.readG gs).toNat 8))
      else (s.upHere fun c => c.pendG gd s.ord.nextId).issueAccs (f ++ [a])
    match form with
    | 0 => go s
    | 1 => s.synced 65535 (go s)
    | _ => s.synced 65535 (s.committing go)

/-- `amoadd`: old + gs (R327). -/
def execAmoadd (gd gb gs scope form cls : Nat) (s : State) : Out := .next (s.atomic 0 gd gb gs scope form cls)

/-- `amoand`: old AND gs (R327). -/
def execAmoand (gd gb gs scope form cls : Nat) (s : State) : Out := .next (s.atomic 1 gd gb gs scope form cls)

/-- `amoor`: old OR gs (R327). -/
def execAmoor (gd gb gs scope form cls : Nat) (s : State) : Out := .next (s.atomic 2 gd gb gs scope form cls)

/-- `amoxor`: old XOR gs (R327). -/
def execAmoxor (gd gb gs scope form cls : Nat) (s : State) : Out := .next (s.atomic 3 gd gb gs scope form cls)

/-- `amomin`: signed minimum (R327). -/
def execAmomin (gd gb gs scope form cls : Nat) (s : State) : Out := .next (s.atomic 4 gd gb gs scope form cls)

/-- `amomax`: signed maximum (R327). -/
def execAmomax (gd gb gs scope form cls : Nat) (s : State) : Out := .next (s.atomic 5 gd gb gs scope form cls)

/-- `amoswp`: gs (R327). -/
def execAmoswp (gd gb gs scope form cls : Nat) (s : State) : Out := .next (s.atomic 6 gd gb gs scope form cls)

/-- `cas`: gs if the old value is gd, which receives the old value (R328). -/
def execCas (gd gb gs scope form cls : Nat) (s : State) : Out := .next (s.atomic 7 gd gb gs scope form cls)

/-! ### Wide cells, fences, prefetch (R330 to R332, R334) -/

/-- `wadd`: an FP32 or FP64 value is added to the wide cell at gb (R330). -/
def execWadd (gb gs : Nat) (f64 : Bool) (cls : Nat) (s : State) : Out :=
  let va := s.vaOf gb 0
  .next (if !s.here.gReady [gb, gs] then s
    else s.withAddr va 32 32 2 fun locs e =>
      let v := if f64 then s.readG gs else s.readG gs &&& 0xFFFFFFFF
      let a := newAccess s.ord.nextId cls (.wadd f64 v) (readParts locs) .none va s.cur.pc e s.clock
      s.issueStore [] a (signStore va (bytesOf v.toNat (if f64 then 8 else 4))))

/-- `cread`: reads a wide cell as FP32 or FP64 (R331). -/
def execCread (gd gb : Nat) (f64 : Bool) (cls : Nat) (s : State) : Out :=
  .next (if !s.here.gReady [gb] then s else s.issueRead (s.vaOf gb 0) 32 32 cls false (.gCell gd f64) (some gd))

/-- `fence`: enters the masked class queues and leaves by S6; a commit point in class 2 (R332, R109). -/
def execFence (scope mask : Nat) (s : State) : Out :=
  .next (s.synced mask (s.committing fun s =>
    s.issueAccs [newAccess s.ord.nextId 0 (.fence mask scope) [] .none 0 s.cur.pc 0 s.clock]))

/-- `pf`: a prefetch of the line that holds gb + off × 64; any failed check drops it (R334). -/
def execPf (gb : Nat) (off : Int) (cls : Nat) (s : State) : Out :=
  let line := s.vaOf gb (off * 64) / 64 * 64
  .next (if !s.here.gReady [gb] then s
    else match s.chkBytes s.cur.ctx 0 ((List.range 64).map (line + ·)) with
      | .miss v => s.queueMiss s.cur.ctx 0 v
      | .ok locs 0 => s.issueAccs [newAccess s.ord.nextId cls .prefetch (readParts locs) .none line s.cur.pc 0 s.clock]
      | .bad _ _ v => (s.takeXlate s.cur.ctx { cause := cXLATE, fva := v }).1.finish
      | _ => s.finish)

/-! ### Spill and fill (R333) -/

/-- What keeps a register of a spill or fill from being issued. -/
inductive Blocked where
  | miss (va : Nat)
  | bad (f : FaultRec)

/-- Accesses of registers j to n - 1 of a spill or fill at `base`, up to the first register that a check of R323 stops. -/
def State.moveRegs (s : State) (base acc : Nat) (mk : Nat → Nat → List Nat → Nat → Access) (js : List Nat) :
    List Access × Option (Nat × Blocked) :=
  match js with
  | [] => ([], none)
  | j :: rest =>
    let va := (base + 8 * j) % 2 ^ 64
    if va % 8 ≠ 0 then ([], some (j, .bad { cause := cALIGN, fva := va }))
    else match s.chkBytes s.cur.ctx acc ((List.range 8).map (va + ·)) with
      | .miss v => ([], some (j, .miss v))
      | .bad t l v => ([], some (j, .bad { cause := cXLATE, tkind := t, level := l, fva := v }))
      | .ok locs e =>
        let (as_, b) := s.moveRegs base acc mk rest
        (mk j va locs e :: as_, b)

/-- Gives the accesses of one instruction successive identifiers from the next one on, under the first one's instruction. -/
def numberAccs (first : Nat) (as_ : List Access) : List Access :=
  ((List.range as_.length).zip as_).map fun p => { p.2 with id := first + p.1, rob := first }

/-- Takes n fresh identifiers. -/
def State.freshIds (s : State) (n : Nat) : State := { s with ord := { s.ord with nextId := s.ord.nextId + n } }

/-- The common course of spill and fill: the registers before a fault commit, the fault is precise with CPOS at its register, and a
Retry goes on there (R333). `issuePart` issues the registers before number j of an instruction that stays at the boundary. -/
def State.moveCourse (s : State) (base acc n : Nat) (mk : Nat → Nat → List Nat → Nat → Access) (issue : State → List Access → State)
    (issuePart : State → List Access → Nat → State) : State :=
  let j0 := s.me.mpos
  let (as_, b) := s.moveRegs base acc mk ((List.range n).filter (j0 ≤ ·))
  let as_ := numberAccs s.ord.nextId as_
  match b with
  | none => issue s as_
  | some (_, .miss va) => s.queueMiss s.cur.ctx acc va
  | some (j, .bad f) =>
    if j = j0 then s.fault { f with cpos := j, spos := j }
    else issuePart s as_ j

/-- Accesses that have issued under an instruction that stays at the boundary, at its register j. -/
def State.issuePartial (s : State) (as_ : List Access) (j : Nat) : State :=
  let r : Rob := { id := s.ord.nextId, done := as_.isEmpty, push := 0, pc := s.cur.pc, err := 0, eff := [] }
  ((s.pushAccs s.cur.ctx s.cur.st as_).freshIds as_.length).upStrm s.cur.ctx s.cur.st fun x => { x with rob := x.rob ++ [r], mpos := j }

/-- Class 2: registers of a spill are held one by one; one that must wait stays with those behind it, and the instruction goes on there
(R103, R111, R333). `last` says that these are all of them. -/
def State.spillHeld (s : State) (as_ : List Access) (last : Bool) : State :=
  let (t, n) := s.holdEach s.cur.ctx s.cur.st (as_.map fun a => (a, signStore a.va a.data))
  if last && n == as_.length then t.finish else t.upStrm s.cur.ctx s.cur.st fun x => { x with mpos := s.me.mpos + n }

/-- `spill`: stores gf to g(f + n) as 8-byte stores in ascending register order (R333). -/
def execSpill (gf gb n : Nat) (glob : Bool) (cls : Nat) (s : State) : Out :=
  let regs := (List.range (n + 1)).map (gf + ·)
  let kind := if glob then AccKind.global else .early
  let mk := fun j va locs e =>
    let a := newAccess 0 cls kind (groupParts (withBytes locs (s.readG (gf + j)).toNat)) .none va s.cur.pc e s.clock
    { a with unit := j }
  .next (if !s.here.gReady (gb :: regs) then s
    else s.moveCourse (s.readG gb).toNat 1 (n + 1) mk
      (fun s as_ => if s.here.team.pclass = 2 then s.spillHeld as_ true
        else ((s.pushAccs s.cur.ctx s.cur.st as_).freshIds as_.length).issued s.ord.nextId false)
      (fun s as_ j => if s.here.team.pclass = 2 then s.spillHeld as_ false else s.issuePartial as_ j))

/-- `fill`: loads gf to g(f + n) in ascending register order (R333). -/
def execFill (gf gb n cls : Nat) (s : State) : Out :=
  let mk := fun j va locs e =>
    let a := newAccess 0 cls .read (readParts locs) (.gReg (gf + j) 8 false) va s.cur.pc e s.clock
    { a with unit := j }
  let pend := fun (s : State) (as_ : List Access) => as_.foldl (fun s a => s.upHere fun c => c.pendG (gf + a.unit) a.id) s
  .next (if !s.here.gReady [gb] then s
    else s.moveCourse (s.readG gb).toNat 0 (n + 1) mk
      (fun s as_ => (((pend s as_).pushAccs s.cur.ctx s.cur.st as_).freshIds as_.length).issued s.ord.nextId false)
      (fun s as_ j => (pend s as_).issuePartial as_ j))

/-! ### Shape registers in memory, signals (R342, R343, R347, R349) -/

/-- `dld`: loads a shape register from entry g of the tensor table, and the codebook of a CB4 entry from the next (R347). -/
def execDld (dn gr cls : Nat) (s : State) : Out :=
  let e := (s.readG gr).toNat
  let id := s.ord.nextId
  .next (if !s.here.gReady [gr] || !s.here.dReady dn then s
    else if s.here.team.ttabn ≤ e then s.faultC cDESC
    else s.withAddr (s.here.team.ttab + 64 * e) 64 64 0 fun locs err =>
      let a := newAccess id cls .read (readParts locs) (.shape dn e false) (s.here.team.ttab + 64 * e) s.cur.pc err s.clock
      (s.upHere fun c => { c with dpend := (dn, id) :: c.dpend }).issueAccs [a])

/-- `dst`: stores the 512 bits of a shape register at a 64-byte aligned VA, one part for each byte (R349). -/
def execDst (gr dn : Nat) (glob : Bool) (cls : Nat) (s : State) : Out :=
  let va := (s.readG gr).toNat
  let w := (s.here.readD dn).toNat
  .next (if !s.here.gReady [gr] || !s.here.dReady dn then s
    else s.withAddr va 64 64 1 fun locs e =>
      let kind := if glob then AccKind.global else .early
      let parts := (withBytes locs w).map fun b => Part.mk (b.1 / 64) [b]
      s.issueStore [] (newAccess s.ord.nextId cls kind parts .none va s.cur.pc e s.clock) (signStore va (bytesOf w 64)))

/-- `tsig`: fences at system scope, then sends one decrement to the task named by ga[31:0] (R342); in class 2 it is recorded in the
open epoch, for which it waits as a held store does (R343, R111). -/
def execTsig (ga : Nat) (s : State) : Out :=
  let tag := (s.readG ga).toNat % 2 ^ 32
  .next (if !s.here.gReady [ga] then s
    else if s.here.team.pclass = 2 then
      (if s.holdStalls s.cur.ctx .c then s else (s.hold s.cur.ctx .c (.tsig tag) 0).finish)
    else s.synced 65535 (s.issueAccs [newAccess s.ord.nextId 0 (.fence 65535 4) [] (.tsig tag) 0 s.cur.pc 0 s.clock]))

/-! ### The diagnostic store (R313, R314) -/

/-- The codeword that `dstc` writes: data of n bits with nk positional check bits, under the control word gc (Table 14-6). -/
def dstcWord (n nk data gc : Nat) : Nat × Nat :=
  let cx := fld gc 0 (nk + 1)
  let k := (if bit gc 8 then eccCode n nk data else 0) ^^^ cx
  let d := if bit gc 22 then data ^^^ 2 ^ (fld gc 16 6 % n) else data
  let d := if bit gc 30 then d ^^^ 2 ^ (fld gc 24 6 % n) else d
  (d, k)

/-- The checks that come before a `dstc`'s own faults (R297): PRIV, then PROTECT. -/
def State.dstcAllowed (s : State) (regs : List Nat) (go : State) : State :=
  if !s.here.gReady regs then s
  else if !s.isPriv s.here.vf then s.faultC cPRIV
  else if s.here.team.pclass = 2 then s.faultC cPROTECT
  else go

/-- `dstc`: an HBM word with chosen check bits, as a global store in class 0 (R313, R314). -/
def execDstc (ga gb gc : Nat) (s : State) : Out :=
  let va := (s.readG ga).toNat
  let (d, k) := dstcWord 64 7 (s.readG gb).toNat (s.readG gc).toNat
  .next (s.dstcAllowed [ga, gb, gc] (s.withAddr va 8 8 1 fun locs e =>
    s.issueAccs [newAccess s.ord.nextId 0 (.dstc (BitVec.ofNat 8 k)) (groupParts (withBytes locs d)) .none va s.cur.pc e s.clock]))

/-- Whether class `cls` of a stream is empty and no acquire or held record is outstanding, so that an access may perform at once. -/
def StreamSt.classIdle (x : StreamSt) (cls : Nat) : Bool :=
  x.cq.all fun a => !a.acq && !a.held && a.cls != cls &&
    (match a.kind with | .fence mask _ => !mask.testBit cls | _ => true)

/-- `dstc.sram`: plants a codeword in the issuing die's cache view, or in a tile word (R313, R314). -/
def execDstcSram (ga gb gc : Nat) (s : State) : Out :=
  let a := (s.readG ga).toNat
  let die := dieOf s.cur.ctx
  let (d, k) := dstcWord 32 6 (s.readG gb).toNat (s.readG gc).toNat
  .next (s.dstcAllowed [ga, gb, gc] (
    if !s.me.classIdle 0 then s
    else if bit a 63 then
      let h := fld a 0 8
      let row := fld a 8 24
      let w := fld a 32 12
      match s.tileOf s.cur.ctx h with
      | none => s.fault (tileFault 0 h row)
      | some t =>
        if !t.covers row 1 (4 * w + 4) then s.fault (tileFault 0 h row)
        else
          let t := (t.write row (4 * w) (bytesOf d 4)).1
          let word := (row * t.rb + 4 * w) / 4
          let t := if k = eccCode 32 6 d then { t with check := t.check.del word } else { t with check := t.check.set word (BitVec.ofNat 7 k) }
          (s.setTile (s.here.tileKey s.cur.ctx h) t).finish
    else s.withAddr a 4 4 1 fun locs e =>
      let id := s.ord.nextId
      if e ≠ 0 then (s.upStrm s.cur.ctx .c fun x => { x with werr := x.werr ++ [⟨0, e, a⟩] }).finish else
      let s := (locs.zip (bytesOf d 4)).foldl (fun s lb =>
        s.setDv die lb.1 { valid := true, val := lb.2, writer := id, pend := none }) ((s.dvClean die locs).markProp die id)
      let s := match locs with
        | l :: _ =>
          if k = eccCode 32 6 d then s
          else
            let chk := (s.ord.dvCheck.get die []).set (l / 4) (BitVec.ofNat 7 k)
            { s with ord := { s.ord with dvCheck := s.ord.dvCheck.set die chk } }
        | [] => s
      s.finish))

end Sys2Proof.Machine
end

