-- ==== Sys2Proof/Machine/Format.lean ====
section
/-!
DEFINITION. Sys2Proof/Machine/Format.lean: tensor descriptors (R149, R150), element positions, panels and block formats (R210 to
R216), bounds (R126), and the wide cell (R184 to R186).
-/

namespace Sys2Proof.Machine

/-! ### Tensor descriptors (Table 6-1) -/

/-- A tensor descriptor by its fields. -/
structure Desc where
  base : Nat
  fmt : Nat
  bact : Nat
  rank : Nat
  e0 : Nat
  e1 : Nat
  e2 : Nat
  e3 : Nat
  s1 : Nat
  s2 : Nat
  s3 : Nat
  blo : Nat
  bhi : Nat
  sbase : Nat
  ss1 : Nat
  /-- the must-be-zero bits -/
  mbz : Nat
deriving DecidableEq, Repr

/-- The fields of a shape register. -/
def descOf (d : BitVec 512) : Desc :=
  let w := d.toNat
  { base := fld w 0 56, fmt := fld w 56 4, bact := fld w 60 2, rank := fld w 62 2,
    e0 := fld w 64 16, e1 := fld w 80 16, e2 := fld w 96 16, e3 := fld w 112 16,
    s1 := fld w 128 40, s2 := fld w 168 40, s3 := fld w 208 40, blo := fld w 256 32, bhi := fld w 288 32,
    sbase := fld w 320 56, ss1 := fld w 376 40, mbz := fld w 248 8 + fld w 416 96 }

/-- Bytes of one element; 1 for the formats with 4-bit and 8-bit elements. -/
def elemBytes (fmt : Nat) : Nat :=
  match fmt with
  | 0 => 8
  | 1 => 4
  | 2 | 3 => 2
  | _ => 1

/-- Whether a check of R150 that needs no index fails. -/
def Desc.bad (d : Desc) : Bool :=
  decide (12 ≤ d.fmt) || d.mbz != 0
  || (decide (d.fmt < 10) && (d.sbase != 0 || d.ss1 != 0))
  || (decide (d.rank < 1) && (d.e1 != 0 || d.s1 != 0))
  || (decide (d.rank < 2) && (d.e2 != 0 || d.s2 != 0))
  || (decide (d.rank < 3) && (d.e3 != 0 || d.s3 != 0))
  || d.base % (if d.fmt = 7 ∨ d.fmt = 8 then 64 else elemBytes d.fmt) != 0

/-- Flattened rows of a tensor. -/
def Desc.rows (d : Desc) : Nat := (d.e1 + 1) * (d.e2 + 1) * (d.e3 + 1)

/-- Address of element 0 of flattened row q (R150, R376). -/
def Desc.rowAddr (d : Desc) (q : Nat) : Nat :=
  d.base + q % (d.e1 + 1) * d.s1 + q / (d.e1 + 1) % (d.e2 + 1) * d.s2 + q / ((d.e1 + 1) * (d.e2 + 1)) * d.s3

/-- off(i0): byte position of an element within its row (R212). -/
def rowOff (fmt i : Nat) : Nat :=
  match fmt with
  | 7 => 256 * (i / 240) + i % 240
  | 8 | 9 => 128 * (i / 240) + i % 240 / 2
  | 11 => i / 2
  | f => i * elemBytes f

/-- Bytes that a row of n elements spans (R403). -/
def rowSpan (fmt n : Nat) : Nat :=
  match fmt with
  | 7 => 256 * ((n + 239) / 240)
  | 8 | 9 => 128 * ((n + 239) / 240)
  | 11 => (n + 1) / 2
  | f => n * elemBytes f

/-- Bytes of the scale array that a row of n elements has (R215); 0 for the formats without one. -/
def scaleSpan (fmt n : Nat) : Nat := if fmt = 10 ∨ fmt = 11 then (n + 31) / 32 else 0

/-- Address of the scale bytes of flattened row q (R215). -/
def Desc.scaleAddr (d : Desc) (q : Nat) : Nat := d.sbase + q * d.ss1

/-! ### Elements and block scales -/

/-- The floating-point format of a descriptor's format code, for 0 to 5; FP32 for the others. -/
def ffmtOf (fmt : Nat) : FFmt :=
  match fmt with
  | 0 => fmtF64
  | 2 => fmtBf16
  | 3 => fmtF16
  | 4 => fmtE4m3
  | 5 => fmtE5m2
  | _ => fmtF32

/-- Value of a finite 10-bit block scale as m · 2^e; none for NaN (R210). -/
def scaleVal (code : Nat) : Option (Nat × Int) :=
  let x := code / 4 % 256
  let f := code % 4
  if x = 255 then none
  else if x = 0 then some (f, -128)
  else some (4 + f, (x : Int) - 129)

/-- A datum times m · 2^e. -/
def Fv.scale (v : Fv) (m : Nat) (e : Int) : Fv := (v.mul (.num false m e)).1

/-- An element of a P8, P4 or CB4 block under its scale (R210, R212, R214). In a zero block even a NaN element or a codebook entry that
is NaN or infinite reads as +0: of R210 and R214 against R212 the model follows R212 (DESIGN CHOICE, notes/assumptions/102.md). -/
def blockElem (v : Fv) (scale : Nat) : Fv :=
  if scale % 1024 = 0 then .num false 0 0
  else match scaleVal scale with
    | none => .nan
    | some (m, e) => if v = .nan then .nan else v.scale m e

/-- An integer as a datum. -/
def intFv (n : Int) : Fv := .num (decide (n < 0)) n.natAbs 0

/-- An element of an MX block (R215). -/
def mxElem (v : Fv) (y : Nat) : Fv := if y = 255 then .nan else v.scale 1 ((y : Int) - 127)

/-- Bytes as a function of their offset. -/
abbrev ByteAt := Nat → Nat

/-- The number in n bytes from an offset on. -/
def numAt (b : ByteAt) (off n : Nat) : Nat :=
  (List.range n).foldr (fun i acc => b (off + i) + 256 * acc) 0

/-- 4-bit element: byte and nibble. -/
def nibAt (b : ByteAt) (off i : Nat) : Nat := b off / 16 ^ (i % 2) % 16

/-- Scale of block j of the panel whose trailer begins at byte `off` (R211). -/
def trailerScale (b : ByteAt) (off j : Nat) : Nat := fld (numAt b off 7) (10 * j) 10

/-- Codebook entry c of an extension (R149). -/
def cbEntry (ext c : Nat) : Fv := fmtBf16.read false (fld ext (16 * c) 16)

/-- Element i of a row: its bytes, its MX scale bytes, and the codebook extension (R202, R210 to R215). -/
def rowElem (fmt : Nat) (b sc : ByteAt) (ext i : Nat) : Fv :=
  match fmt with
  | 6 => intFv (toSigned 8 (b i))
  | 7 => blockElem (fmtE4m3.read false (b (rowOff 7 i))) (trailerScale b (256 * (i / 240) + 240) (i % 240 / 48))
  | 8 => blockElem (fmtE2m1.read false (nibAt b (rowOff 8 i) (i % 240))) (trailerScale b (128 * (i / 240) + 120) (i % 240 / 48))
  | 9 => blockElem (cbEntry ext (nibAt b (rowOff 9 i) (i % 240))) (trailerScale b (128 * (i / 240) + 120) (i % 240 / 48))
  | 10 => mxElem (.num (decide (128 ≤ b i)) (toSigned 8 (b i)).natAbs (-6)) (sc (i / 32))
  | 11 => mxElem (fmtE2m1.read false (nibAt b (rowOff 11 i) i)) (sc (i / 32))
  | f => (ffmtOf f).read false (numAt b (rowOff f i) (elemBytes f))

/-! ### Block encoding (R213, R214, R216, R368) -/

/-- The value 29 · j mod 48 of R217 for a position and a phase. -/
def dithAt (pos phase : Nat) : Nat := 29 * ((pos + phase) % 48) % 48

/-- Whether a datum is NaN or an infinity. -/
def Fv.special (x : Fv) : Bool := !x.finite

/-- The larger of two exact magnitudes. -/
def exMax (a b : Ex) : Ex := if (a.add b.neg).n < 0 then b else a

/-- Largest magnitude of a block's source elements; padding is none (R213). -/
def amaxOf (xs : List (Option Fv)) : Ex :=
  xs.foldl (fun acc x => match x with
    | some v => exMax acc { v.ex with n := v.ex.n.natAbs }
    | none => acc) (Ex.int 0)

/-- Whether the scale `code` times `lim` is at least amax. -/
def scaleEnough (lim : Ex) (amax : Ex) (code : Nat) : Bool :=
  match scaleVal code with
  | some (m, e) => decide (0 ≤ (((Ex.mk m 1 e).mul lim).add amax.neg).n)
  | none => true

/-- Smallest code of lo … lo + 2^steps - 1 that satisfies an increasing predicate, lo + 2^steps - 1 when none does. -/
def bisect (steps : Nat) (p : Nat → Bool) (lo : Nat) : Nat :=
  match steps with
  | 0 => lo
  | n + 1 => if p (lo + 2 ^ n - 1) then bisect n p lo else bisect n p (lo + 2 ^ n)

/-- Smallest scale code whose value times `lim` reaches amax, 0x3FB when no finite code does (R213). -/
def pickScale (lim amax : Ex) : Nat := Nat.min (bisect 10 (scaleEnough lim amax) 0) 0x3FB

/-- An encoded block: scale, element codes, flags. -/
structure Block48 where
  scale : Nat
  codes : List Nat
  flags : Nat
deriving DecidableEq, Repr

/-- Encodes a P8 or P4 block, with the flags R206 gives its scaled elements (R213; notes/assumptions/22.md). Positions in the block
count from 0. -/
def encBlock (f : FFmt) (emax : Nat) (rm phase : Nat) (xs : List (Option Fv)) : Block48 :=
  if xs.any (fun x => match x with | some v => v.special | none => false) then
    ⟨0x3FC, xs.map fun _ => 0, fInvalid⟩
  else
    let amax := amaxOf xs
    if amax.n = 0 then ⟨0, xs.map fun _ => 0, 0⟩
    else
      let scale := pickScale (Ex.int emax) amax
      let (m, e) := (scaleVal scale).getD (1, 0)
      let out := ((List.range xs.length).zip xs).map fun ix =>
        match ix.2 with
        | some (.num n m' e') =>
          if m' = 0 then (if n then f.signBit else 0, 0)
          else f.roundMag { code := rm, dith := dithAt ix.1 phase } n ⟨m', m, e' - e⟩
        | _ => (0, 0)
      ⟨scale, out.map Prod.fst, out.foldl (fun acc o => acc ||| o.2) 0⟩

/-- Encodes a CB4 block with a codebook extension (R368). -/
def encCb4 (ext : Nat) (xs : List (Option Fv)) : Block48 :=
  let entries := (List.range 16).map fun c => (c, cbEntry ext c)
  let finite := entries.filter fun e => e.2.finite
  if xs.any (fun x => match x with | some v => v.special | none => false)
      || finite.all fun e => e.2.isZero then
    ⟨0x3FC, xs.map fun _ => 0, fInvalid⟩
  else
    let bmax := amaxOf (finite.map fun e => some e.2)
    let amax := amaxOf xs
    if amax.n = 0 then ⟨0, xs.map fun _ => 0, 0⟩
    else
      let scale := pickScale bmax amax
      let (m, e) := (scaleVal scale).getD (1, 0)
      let dist := fun (x b : Fv) =>
        let t := x.ex.add ((b.scale m e).ex.neg)
        { t with n := t.n.natAbs }
      let out := xs.map fun x =>
        match x with
        | none => (0, 0)
        | some v =>
          match finite with
          | [] => (0, 0)
          | c0 :: rest =>
            let best := rest.foldl (fun (b : Nat × Ex) c =>
              let t := dist v c.2
              if (t.add b.2.neg).n < 0 then (c.1, t) else b) (c0.1, dist v c0.2)
            (best.1, if best.2.n = 0 then 0 else fInexact)
      ⟨scale, out.map Prod.fst, out.foldl (fun acc o => acc ||| o.2) 0⟩

/-- Encodes an MX8 or MX4 block of up to 32 elements: the scale byte Y, codes and flags (R216). -/
def encMx (mx4 : Bool) (rm phase : Nat) (xs : List (Option Fv)) : Block48 :=
  if xs.any (fun x => match x with | some v => v.special | none => false) then
    ⟨255, xs.map fun _ => 0, fInvalid⟩
  else
    let amax := amaxOf xs
    if amax.n = 0 then ⟨0, xs.map fun _ => 0, 0⟩
    else
      let e := (⟨amax.n.natAbs, amax.d, amax.e⟩ : Mag).log2 - (if mx4 then 2 else 0)
      let y := (max 0 (min (e + 127) 254)).toNat
      let out := ((List.range xs.length).zip xs).map fun ix =>
        let r : Rnd := { code := rm, dith := dithAt ix.1 phase }
        match ix.2 with
        | some (.num n m' e') =>
          if m' = 0 then (if mx4 && n then fmtE2m1.signBit else 0, 0)
          else if mx4 then fmtE2m1.roundMag r n ⟨m', 1, e' - ((y : Int) - 127)⟩
          else
            let (k, ix) := r.toQuantum n ⟨m', 1, e' + 6 - ((y : Int) - 127)⟩ 0
            let (k, fl) := if 127 < k then (127, fOverflow + fInexact) else (k, if ix then fInexact else 0)
            (toBits 8 (if n then -(k : Int) else k), fl)
        | _ => (0, 0)
      ⟨y, out.map Prod.fst, out.foldl (fun acc o => acc ||| o.2) 0⟩

/-- Cuts a list into pieces of n, for at most `k` pieces. -/
def chunks {α : Type} (k n : Nat) (xs : List α) : List (List α) :=
  match k with
  | 0 => []
  | k + 1 => match xs with
    | [] => []
    | x :: rest => (x :: rest).take n :: chunks k n ((x :: rest).drop n)

/-- A list filled up to n entries. -/
def padTo {α : Type} (n : Nat) (d : α) (xs : List α) : List α := xs ++ List.replicate (n - xs.length) d

/-- Bytes of 4-bit codes, the even one in the low nibble. -/
def nibBytes (cs : List Nat) : List Byte :=
  (chunks cs.length 2 cs).map fun p => BitVec.ofNat 8 ((p.getD 0 0) + 16 * (p.getD 1 0))

/-- Bytes of one panel from its five blocks (R211). -/
def panelBytes (p8 : Bool) (bs : List Block48) : List Byte :=
  let bs := padTo 5 ⟨0, [], 0⟩ bs
  let codes := bs.flatMap fun b => padTo 48 0 b.codes
  let tr := ((List.range 5).zip bs).foldl (fun acc jb => acc + (jb.2.scale % 1024) * 2 ^ (10 * jb.1)) 0
  if p8 then (codes.map fun c => BitVec.ofNat 8 c) ++ bytesOf tr 16 else nibBytes codes ++ bytesOf tr 8

/-- Packs a row of source elements (none: padding) into format 7, 8, 9, 10 or 11: element bytes, scale bytes, flags. -/
def packRow (fmt rm phase ext : Nat) (xs : List (Option Fv)) : List Byte × List Byte × Nat :=
  if fmt = 10 ∨ fmt = 11 then
    let bs := (chunks xs.length 32 xs).map (encMx (decide (fmt = 11)) rm phase)
    let codes := bs.flatMap fun b => b.codes
    (if fmt = 10 then codes.map fun c => BitVec.ofNat 8 c else nibBytes codes,
      bs.map fun b => BitVec.ofNat 8 b.scale, bs.foldl (fun acc b => acc ||| b.flags) 0)
  else
    let enc := fun (b : List (Option Fv)) =>
      if fmt = 7 then encBlock fmtE4m3 448 rm phase b
      else if fmt = 8 then encBlock fmtE2m1 6 rm phase b else encCb4 ext b
    let bs := (chunks xs.length 48 (padTo ((xs.length + 239) / 240 * 240) none xs)).map enc
    ((chunks bs.length 5 bs).flatMap (panelBytes (decide (fmt = 7))), [], bs.foldl (fun acc b => acc ||| b.flags) 0)

/-! ### Bounds (R126) -/

/-- A bound as FP32. -/
def boundFv (w : Nat) : Fv := fmtF32.read false w

/-- A bound rounded into the element's format, a finite one beyond its range and an infinite one it cannot hold to the largest
finite magnitude; formats 0, 1 and 7 to 11 take it exactly. -/
def boundCode (fmt : Nat) (up : Bool) (w : Nat) : Nat :=
  let f := ffmtOf fmt
  match boundFv w with
  | .nan => f.nan
  | .inf n => (if n then f.signBit else 0) + (if f.ieee then f.maxMag + 1 else f.maxMag)
  | .num n m e =>
    if m = 0 then (if n then f.signBit else 0)
    else
      let (c, fl) := f.roundMag { code := if up then 3 else 2 } n ⟨m, 1, e⟩
      if fl &&& fOverflow ≠ 0 then (if n then f.signBit else 0) + f.maxMag else c

/-- Tests an element of a format, given by its bits, against a descriptor's bounds: the value to write and whether it was out of bounds. -/
def Desc.bound (d : Desc) (fmt : Nat) (w : Nat) : Nat × Bool :=
  if fmt = 6 then
    let v := toSigned 8 w
    let lo := toSigned 32 d.blo
    let hi := toSigned 32 d.bhi
    let clamp := fun (x : Int) => toBits 8 (max (-128) (min 127 x))
    if v < lo then (if d.bact = 2 then clamp lo else w, true)
    else if hi < v then (if d.bact = 2 then clamp hi else w, true)
    else (w, false)
  else
    let v := (ffmtOf fmt).read false w
    let lo := boundFv d.blo
    let hi := boundFv d.bhi
    let below := lo ≠ .nan && (v = .nan || decide (cmpFv v lo < 0))
    let oob := v = .nan || (lo ≠ .nan && decide (cmpFv v lo < 0)) || (hi ≠ .nan && decide (0 < cmpFv v hi))
    if !oob then (w, false)
    else if d.bact ≠ 2 then (w, true)
    else if below then (boundCode fmt true d.blo, true)
    else if hi ≠ .nan then (boundCode fmt false d.bhi, true)
    else ((ffmtOf fmt).nan, true)

/-! ### Accumulation (R220 to R224) -/

/-- Flags of an FP32 accumulation: overflow of a finite sum, inexact; there is no underflow flag (R206, R220). -/
def accFlags (f : Nat) : Nat := f &&& (fInvalid + fOverflow + fInexact)

/-- One FP32 K-step of one accumulator element: old bits and the pairs of operands; new bits and flags (R220, R221). -/
def kStep32 (c : Nat) (ab : List (Fv × Fv)) : Nat × Nat :=
  let ps := ab.map fun p => p.1.mul p.2
  let bad := ps.any Prod.snd
  let (v, clash) := sumFv { code := 0 } (fmtF32.read false c :: ps.map Prod.fst)
  let (w, fl) := fmtF32.write { code := 0 } v
  (w, accFlags fl ||| (if bad || clash then fInvalid else 0))

/-- One FP64 K-step: fused multiply-adds in ascending K (R222). -/
def kStep64 (c : Nat) (ab : List (Fv × Fv)) : Nat × Nat :=
  ab.foldl (fun (acc : Nat × Nat) p =>
    let (q, bad) := p.1.mul p.2
    let (v, clash) := sumFv { code := 0 } [fmtF64.read false acc.1, q]
    let (w, fl) := fmtF64.write { code := 0 } v
    (w, acc.2 ||| accFlags fl ||| (if bad || clash then fInvalid else 0))) (c, 0)

/-- One INT32 K-step: the exact sum, clamped; true when the clamp acts (R223). -/
def kStepInt (c : Nat) (ab : List (Int × Int)) : Nat × Bool :=
  let s := ab.foldl (fun acc p => acc + p.1 * p.2) (toSigned 32 c)
  let t := max (-(2 ^ 31)) (min (2 ^ 31 - 1) s)
  (toBits 32 t, decide (t ≠ s))

/-! ### Wide cells (R184 to R186) -/

/-- A wide-cell add of a datum to the cell with bits `w` (R185). -/
def cellAdd (w : Nat) (v : Fv) : Nat :=
  let set := fun k => if w.testBit k then w else w + 2 ^ k
  match v with
  | .nan => set 241
  | .inf false => set 242
  | .inf true => set 243
  | .num n m e =>
    if m = 0 then w
    else if 119 ≤ (⟨m, 1, e⟩ : Mag).log2 then set 248
    else
      let (k, ix) := ({ code := 0 } : Rnd).toQuantum n ⟨m, 1, e⟩ (-120)
      let q : Int := if n then -(k : Int) else k
      let t := toSigned 240 w + q
      let f := (t + 2 ^ 239) % 2 ^ 240 - 2 ^ 239
      let ovw := ((fld w 244 4 : Nat) + (t - f) / 2 ^ 240) % 16
      let nx := if ix || w.testBit 240 then 1 else 0
      toBits 240 f + nx * 2 ^ 240 + fld w 241 3 * 2 ^ 241 + ovw.toNat * 2 ^ 244 + w / 2 ^ 248 * 2 ^ 248

/-- A cell read as FP32 or FP64 (R186). -/
def cellRead (w : Nat) (f64 : Bool) : Nat :=
  let f := if f64 then fmtF64 else fmtF32
  if w.testBit 241 || (w.testBit 242 && w.testBit 243) || w.testBit 248 || fld w 244 4 != 0 then f.nan
  else if w.testBit 242 then f.maxMag + 1
  else if w.testBit 243 then f.signBit + f.maxMag + 1
  else (f.write { code := 0 } ((Ex.mk (toSigned 240 w) 1 (-120)).toRv { code := 0 })).1

end Sys2Proof.Machine
end

