-- ==== Sys2Proof/Machine/Jet.lean ====
section
/-!
DEFINITION. Sys2Proof/Machine/Jet.lean: scalar floating-point operations (R359 to R362) and jets (10_jets.md).
-/

namespace Sys2Proof.Machine

/-! ### Scalar operations -/

/-- The arithmetic operations of Table 16-5. -/
inductive FOp where
  | add | sub | mul | fma | div | rcp | sqrt | rsqrt
  | fn (f : Fun)
deriving DecidableEq, Repr

/-- Negative of a datum. -/
def Fv.negate (x : Fv) : Fv :=
  match x with
  | .nan => .nan
  | .inf n => .inf (!n)
  | .num n m e => .num (!n) m e

/-- Square root or reciprocal square root with its special operands (Tables 16-5, 16-6); the root of +0, which Table 16-6 does not
list, is an exact zero (R204; notes/assumptions/21.md). -/
def sqrtFv (r : Rnd) (recip : Bool) (a : Fv) : Rv × Nat :=
  match a with
  | .nan => (.nan, 0)
  | .inf true => (.nan, fInvalid)
  | .inf false => (if recip then .zero false else .inf false, 0)
  | .num n m e =>
    if m = 0 then (if recip then (.inf n, fDivZero) else (.zero (r.zeroSign n), 0))
    else if n then (.nan, fInvalid)
    else (.mag false (sqrtMag recip m e), 0)

/-- One scalar operation in a format: bit pattern and flags. -/
def FFmt.op (f : FFmt) (r : Rnd) (o : FOp) (a b c : Fv) : Nat × Nat :=
  let put := fun (v : Rv) (fl : Nat) => let w := f.write r v; (w.1, w.2 ||| fl)
  let sum := fun (xs : List Fv) => let v := sumFv r xs; put v.1 (if v.2 then fInvalid else 0)
  match o with
  | .add => if a = .nan ∨ b = .nan then put .nan 0 else sum [a, b]
  | .sub => if a = .nan ∨ b = .nan then put .nan 0 else sum [a, b.negate]
  | .mul => let p := a.mul b; put p.1.toRv (if p.2 then fInvalid else 0)
  | .fma =>
    if a = .nan ∨ b = .nan ∨ c = .nan then put .nan 0
    else
      let p := a.mul b
      if p.2 then put .nan fInvalid else sum [p.1, c]
  | .div => let q := divFv a b; put q.1 q.2
  | .rcp => let q := divFv (.num false 1 0) a; put q.1 q.2
  | .sqrt => let q := sqrtFv r false a; put q.1 q.2
  | .rsqrt => let q := sqrtFv r true a; put q.1 q.2
  | .fn g => g.eval r a

/-! ### Coefficients (R229 to R231) -/

/-- An expression E_i: exact, a multiple of ln 2, or (a/ln 2 - t)/d. -/
inductive JExpr where
  | exact (x : Ex)
  | ln2 (x : Ex)
  | perLn2 (a t d : Ex)

/-- Encloses ln 2 · |x|. -/
def ln2Encl (x : Ex) (p : Nat) : Bool × Nat × Nat × Int :=
  let l := ln2Fix p
  let n := x.n.natAbs * 2 ^ 64
  (decide (x.n < 0), n * (l - 2 ^ 12) / x.d, n * (l + 2 ^ 12) / x.d + 1, x.e - 64 - p)

/-- Encloses |(a/ln 2 - t)/d|; the enclosure is unusable (0) when it holds both signs. -/
def perLn2Encl (a t d : Ex) (p : Nat) : Bool × Nat × Nat × Int :=
  let l := ln2Fix p
  let inv := 2 ^ (2 * p) / l
  let part := fun (v : Int) => (a.mul (Ex.mk v 1 (-(p : Int)))).add t.neg
  let x := (part (inv - 2 ^ 14)).div d
  let y := (part (inv + 2 ^ 14)).div d
  if (0 < x.n ∧ 0 < y.n) ∨ (x.n < 0 ∧ y.n < 0) then
    let s := fun (v : Ex) => v.n.natAbs * 2 ^ 300 * 2 ^ (v.e - (if x.e ≤ y.e then x.e else y.e)).toNat / v.d
    let e := (if x.e ≤ y.e then x.e else y.e) - 300
    (decide (x.n < 0), Nat.min (s x) (s y), Nat.max (s x) (s y) + 1, e)
  else (false, 0, 0, 0)

/-- Rounds an expression to FP32. -/
def JExpr.round (r : Rnd) (x : JExpr) : Nat × Nat :=
  match x with
  | .exact v => fmtF32.write r (v.toRv r)
  | .ln2 v => if v.n = 0 then fmtF32.write r (v.toRv r) else fmtF32.ziv r (ln2Encl v) zivBits
  | .perLn2 a t d =>
    if a.n = 0 then fmtF32.write r ((t.neg.div d).toRv r) else fmtF32.ziv r (perLn2Encl a t d) zivBits

/-- Item i of a list of data; +0 beyond its end. -/
def nth (xs : List Fv) (i : Nat) : Fv := xs.getD i (.num false 0 0)

/-- Σ over j from lo to hi of a real. -/
def sumEx (lo hi : Nat) (f : Nat → Ex) : Ex :=
  (List.range (hi + 1 - lo)).foldl (fun acc j => acc.add (f (lo + j))) (Ex.int 0)

/-- Items lo to hi of a list. -/
def span (xs : List Fv) (lo hi : Nat) : List Fv := (List.range (hi + 1 - lo)).map fun j => nth xs (lo + j)

/-- z_m of tanh and sigmoid from the written y (Table 10-3). -/
def auxZ (sig : Bool) (ys : List Fv) (m : Nat) : Ex :=
  let sq := (sumEx 0 m fun j => (nth ys j).ex.mul (nth ys (m - j)).ex).neg
  if sig then (nth ys m).ex.add sq else if m = 0 then (Ex.int 1).add sq else sq

/-- E_i for i ≥ 1: the quantities in it, its divisor if it has one, and the expression (R230, R231). For sine and cosine `ys` is the
other function's sequence. For tanh and sigmoid the quantities tested are the written y's that an auxiliary z_m is built from, not z_m
itself, so an infinite y raises invalid (DESIGN CHOICE, notes/assumptions/101.md). -/
def FOp.coeff (o : FOp) (i : Nat) (a b c ys : List Fv) : List Fv × Option Fv × JExpr :=
  let A := fun j => (nth a j).ex
  let B := fun j => (nth b j).ex
  let Y := fun j => (nth ys j).ex
  let k := fun (n : Int) (x : Ex) => (Ex.int n).mul x
  let ratio := fun (x : Ex) (n : Int) => x.div (Ex.int n)
  match o with
  | .add => ([nth a i, nth b i], none, .exact ((A i).add (B i)))
  | .sub => ([nth a i, nth b i], none, .exact ((A i).add (B i).neg))
  | .mul => (span a 0 i ++ span b 0 i, none, .exact (sumEx 0 i fun j => (A j).mul (B (i - j))))
  | .fma => (span a 0 i ++ span b 0 i ++ [nth c i], none,
      .exact ((sumEx 0 i fun j => (A j).mul (B (i - j))).add (nth c i).ex))
  | .div => (nth a i :: span ys 0 (i - 1) ++ span b 0 i, some (nth b 0),
      .exact (((A i).add (sumEx 0 (i - 1) fun j => (Y j).mul (B (i - j))).neg).div (B 0)))
  | .rcp => (span ys 0 (i - 1) ++ span a 0 i, some (nth a 0),
      .exact ((sumEx 0 (i - 1) fun j => (Y j).mul (A (i - j))).neg.div (A 0)))
  | .sqrt => (nth a i :: span ys 0 (i - 1), some (nth ys 0),
      .exact (((A i).add (sumEx 1 (i - 1) fun j => (Y j).mul (Y (i - j))).neg).div (k 2 (Y 0))))
  | .rsqrt => (span a 0 i ++ span ys 0 (i - 1), some (nth a 0),
      .exact ((ratio (sumEx 1 i fun j => k ((j : Int) - 2 * i) ((A j).mul (Y (i - j)))) 2).div (k i (A 0))))
  | .fn .exp2 => (span a 1 i ++ span ys 0 (i - 1), none,
      .ln2 (ratio (sumEx 1 i fun j => k j ((A j).mul (Y (i - j)))) i))
  | .fn .log2 => (span a 0 i ++ span ys 1 (i - 1), some (nth a 0),
      .perLn2 (A i) (ratio (sumEx 1 (i - 1) fun j => k ((i : Int) - j) ((A j).mul (Y (i - j)))) i) (A 0))
  | .fn .sin => (span a 1 i ++ span ys 0 (i - 1), none, .exact (ratio (sumEx 1 i fun j => k j ((A j).mul (Y (i - j)))) i))
  | .fn .cos => (span a 1 i ++ span ys 0 (i - 1), none, .exact (ratio (sumEx 1 i fun j => k j ((A j).mul (Y (i - j)))) i).neg)
  | .fn .tanh => (span a 1 i ++ span ys 0 (i - 1), none,
      .exact (ratio (sumEx 1 i fun j => k j ((A j).mul (auxZ false ys (i - j)))) i))
  | .fn .sigm => (span a 1 i ++ span ys 0 (i - 1), none,
      .exact (ratio (sumEx 1 i fun j => k j ((A j).mul (auxZ true ys (i - j)))) i))

/-- Coefficient i ≥ 1 with its flags: NaN as R230 gives it, else the rounded expression. -/
def jetCoeff (r : Rnd) (o : FOp) (i : Nat) (a b c ys : List Fv) : Nat × Nat :=
  let (qs, dv, x) := o.coeff i a b c ys
  if qs.any (fun q => decide (q = .nan)) then (fmtF32.nan, 0)
  else if qs.any Fv.special || (match dv with | some d => d.isZero | none => false) then (fmtF32.nan, fInvalid)
  else x.round r

/-- A written FP32 coefficient, read back exactly. -/
def rd32 (w : Nat) : Fv := fmtF32.read false w

/-- Coefficients 1 to k in ascending order after the ones already written. -/
def jetRest (r : Rnd) (o : FOp) (k : Nat) (a b c : List Fv) (y0 : Nat × Nat) : List (Nat × Nat) :=
  (List.range k).foldl (fun out i => out ++ [jetCoeff r o (i + 1) a b c (out.map fun w => rd32 w.1)]) [y0]

/-- Sine and cosine of a jet, both sequences in ascending order (R231). -/
def sinCosJet (r : Rnd) (k : Nat) (a : List Fv) : List (Nat × Nat) × List (Nat × Nat) :=
  (List.range k).foldl (fun out i =>
      let s := jetCoeff r (.fn .sin) (i + 1) a [] [] (out.2.map fun w => rd32 w.1)
      let c := jetCoeff r (.fn .cos) (i + 1) a [] [] (out.1.map fun w => rd32 w.1)
      (out.1 ++ [s], out.2 ++ [c]))
    ([Fun.eval .sin r (nth a 0)], [Fun.eval .cos r (nth a 0)])

/-- A jet operation of order k: each coefficient with its flags (R229 to R231). -/
def jetOp (r : Rnd) (o : FOp) (k : Nat) (a b c : List Fv) : List (Nat × Nat) :=
  match o with
  | .fn .sin => (sinCosJet r k a).1
  | .fn .cos => (sinCosJet r k a).2
  | o => jetRest r o k a b c (fmtF32.op r o (nth a 0) (nth b 0) (nth c 0))

/-! ### Copying operations (R232, R361) -/

/-- A bit pattern as the mode reads it: a subnormal is zero of its sign where R209 flushes. -/
def FFmt.flushBits (f : FFmt) (flush : Bool) (w : Nat) : Nat :=
  if flush && decide (w / 2 ^ f.m % 2 ^ f.ex = 0) then w / f.signBit * f.signBit else w

/-- Negate of a jet in a format (R232). -/
def negJet (f : FFmt) (flush : Bool) (a : List Nat) : List Nat :=
  let a := a.map (f.flushBits flush)
  if a.any fun w => decide (f.read false w = .nan) then a.map fun _ => f.nan
  else a.map fun w => (w + f.signBit) % (2 * f.signBit)

/-- Absolute value of a jet (R232). -/
def absJet (f : FFmt) (flush : Bool) (a : List Nat) : List Nat :=
  let a := a.map (f.flushBits flush)
  if a.any fun w => decide (f.read false w = .nan) then a.map fun _ => f.nan
  else
    let minus := match a.find? (fun w => w % f.signBit != 0) with
      | some w => decide (f.signBit ≤ w)
      | none => false
    a.map fun w =>
      if w % f.signBit = 0 then 0
      else if minus then (w + f.signBit) % (2 * f.signBit) else w

/-- Compares two jets by exact value, the first differing coefficient deciding: -1, 0 or 1 (R232). -/
def cmpJet (f : FFmt) (a b : List Nat) : Int :=
  (a.zip b).foldr (fun p acc => let d := cmpFv (f.read false p.1) (f.read false p.2); if d = 0 then acc else d) 0

/-- Minimum (`most` false) or maximum of two jets; equal jets give a (R232, R361). -/
def minMaxJet (f : FFmt) (flush most : Bool) (a b : List Nat) : List Nat :=
  let a := a.map (f.flushBits flush)
  let b := b.map (f.flushBits flush)
  if (a ++ b).any fun w => decide (f.read false w = .nan) then a.map fun _ => f.nan
  else
    let d := cmpJet f a b
    if (most && decide (d < 0)) || (!most && decide (0 < d)) then b else a

/-- Differentiates a jet: coefficient i is rnd((i + 1) · a_(i+1)), the last +0 (R233; notes/assumptions/23.md). -/
def diffJet (r : Rnd) (a : List Nat) : List (Nat × Nat) :=
  let k := a.length - 1
  ((List.range k).map fun i =>
    match fmtF32.read r.flush (a.getD (i + 1) 0) with
    | .nan => (fmtF32.nan, 0)
    | .inf n => if i = 0 then fmtF32.write r (.inf n) else (fmtF32.nan, fInvalid)
    | x => fmtF32.write r (((Ex.int (i + 1)).mul x.ex).toRv r)) ++ [(0, 0)]

end Sys2Proof.Machine
end

