-- ==== Sys2Proof/Machine/Flags.lean ====
section
/-!
DEFINITION. Sys2Proof/Machine/Flags.lean: the flag and control registers of the engines: JFLAG (R234), VCTL (R356), VSHAPE (R353),
VVIEW (R355), DPHASE (R218) and ASTAT (R389), their fields, and what a write of each keeps.
-/

namespace Sys2Proof.Machine

/-! ### JFLAG (Table 10-5) -/

/-- Flags of a list of coefficients, coefficient i in slot i (R234). -/
def slotFlags (fs : List Nat) : Nat := ((List.range fs.length).zip fs).foldl (fun acc p => acc ||| (p.2 % 32) * 2 ^ (5 * p.1)) 0

/-- A write of JFLAG. -/
def jflagWrite (v : Nat) : Half := BitVec.ofNat 32 (v % 2 ^ 30)

/-! ### VCTL (Table 16-3) -/

/-- VCTL.MODE: exposed. -/
def VecSt.exposed (x : VecSt) : Bool := x.vctl.getLsbD 9

/-- Whether subnormals are flushed (R209). -/
def VecSt.flush (x : VecSt) : Bool := x.exposed || x.vctl.getLsbD 8

/-- VCTL.RND. -/
def VecSt.rnd (x : VecSt) : Nat := fld x.vctl.toNat 5 3

/-- VCTL.GPEN. -/
def VecSt.gpen (x : VecSt) : Bool := x.vctl.getLsbD 4

/-- VCTL.GP. -/
def VecSt.gp (x : VecSt) : Nat := fld x.vctl.toNat 0 3

/-- VCTL.DSEL. -/
def VecSt.dsel (x : VecSt) : Nat := fld x.vctl.toNat 16 6

/-- JORD.ORD. -/
def VecSt.ord (x : VecSt) : Nat := fld x.jord.toNat 0 3

/-- Rounding of arithmetic: code 4 acts as RN (R358). -/
def VecSt.arith (x : VecSt) : Rnd := { code := if x.rnd = 4 then 0 else x.rnd, flush := x.flush }

/-- A CSR write of VCTL: MODE is read-only; a rounding code of 5 to 7 leaves RND. -/
def VecSt.writeVctl (x : VecSt) (v : Nat) : VecSt :=
  let rnd := if fld v 5 3 < 5 then fld v 5 3 else x.rnd
  let w := fld v 0 3 + fld v 4 1 * 2 ^ 4 + rnd * 2 ^ 5 + fld v 8 1 * 2 ^ 8 + fld x.vctl.toNat 9 1 * 2 ^ 9 +
    fld v 15 1 * 2 ^ 15 + fld v 16 6 * 2 ^ 16
  { x with vctl := BitVec.ofNat 32 w }

/-- Sets or clears VCTL.MODE. -/
def VecSt.setMode (x : VecSt) (exposed : Bool) : VecSt :=
  { x with vctl := (x.vctl &&& ~~~(512 : Half)) ||| (if exposed then 512 else 0) }

/-- Sets the sticky bound flag VCTL.BND (R126). -/
def VecSt.setBnd (x : VecSt) : VecSt := { x with vctl := x.vctl ||| 32768 }

/-! ### VSHAPE, VVIEW, JORD, DPHASE -/

/-- Rows of the shape. -/
def VecSt.nr (x : VecSt) : Nat := fld x.vshape.toNat 0 5 + 1

/-- Columns of the shape. -/
def VecSt.nc (x : VecSt) : Nat := fld x.vshape.toNat 5 6 + 1

/-- Width code: 0 8 bits, 1 16 bits, 2 32 bits. -/
def VecSt.wcode (x : VecSt) : Nat := fld x.vshape.toNat 11 2

/-- Bytes of a width code. -/
def widthBytes (code : Nat) : Nat := 2 ^ code

/-- Bytes of an element. -/
def VecSt.wb (x : VecSt) : Nat := widthBytes x.wcode

/-- Elements of a register under the shape. -/
def VecSt.count (x : VecSt) : Nat := x.nr * x.nc

/-- A write of VSHAPE: ignored as a whole with W = 3 or more than 2,048 bytes (R354). -/
def VecSt.writeShape (x : VecSt) (v : Nat) : VecSt :=
  let nr := fld v 0 5 + 1
  let nc := fld v 5 6 + 1
  let w := fld v 11 2
  if w = 3 ∨ 2048 < nr * nc * widthBytes w then x else { x with vshape := BitVec.ofNat 32 (v % 2 ^ 13) }

/-- A write of VVIEW. -/
def VecSt.writeView (x : VecSt) (v : Nat) : VecSt :=
  { x with vview := BitVec.ofNat 32 (fld v 0 11 + fld v 16 6 * 2 ^ 16) }

/-- A write of JORD: 6 and 7 leave ORD (R225). -/
def VecSt.writeJord (x : VecSt) (v : Nat) : VecSt := if fld v 0 3 < 6 then { x with jord := BitVec.ofNat 32 (fld v 0 3) } else x

/-- A write of DPHASE: 48 or more leaves it (R218). -/
def VecSt.writeDphase (x : VecSt) (v : Nat) : VecSt := if v % 2 ^ 32 < 48 then { x with dphase := v % 2 ^ 32 } else x

/-- VVIEW.DIAG. -/
def VecSt.diag (x : VecSt) : Nat := fld x.vview.toNat 16 6

/-- VVIEW.IDX. -/
def VecSt.viewIdx (x : VecSt) : Nat := fld x.vview.toNat 0 11

/-! ### ASTAT (Table 17-1) -/

/-- Bound flag of a FLAGS field. -/
def aBound : Nat := 8
/-- Saturation flag of a FLAGS field. -/
def aSat : Nat := 2

/-- Flags of an FP operation in a FLAGS field: invalid, overflow and inexact stand where JFLAG has them; an underflow sets only
inexact (R206, R394). -/
def astatFlags (f : Nat) : Nat :=
  (f &&& (fInvalid + fOverflow + fInexact)) ||| (if f &&& fUnderflow ≠ 0 then fInexact else 0)

/-- Kind tag of an accumulator: 0 FP32, 1 INT32, 2 FP64 low half, 3 FP64 high half. -/
def MatSt.tag (x : MatSt) (a : Nat) : Nat := fld x.astat.toNat (20 + 2 * a) 2

/-- Sets an accumulator's kind tag. -/
def MatSt.setTag (x : MatSt) (a t : Nat) : MatSt :=
  { x with astat := (x.astat &&& ~~~(BitVec.ofNat 32 (3 * 2 ^ (20 + 2 * a)))) ||| BitVec.ofNat 32 (t % 4 * 2 ^ (20 + 2 * a)) }

/-- Sets flags of an accumulator; those of an FP64 pair stand in the even one's field (R389). -/
def MatSt.flag (x : MatSt) (a f : Nat) : MatSt := { x with astat := x.astat ||| BitVec.ofNat 32 (f % 32 * 2 ^ (5 * a)) }

/-- Clears an accumulator's flags (R390). -/
def MatSt.clearFlags (x : MatSt) (a : Nat) : MatSt := { x with astat := x.astat &&& ~~~(BitVec.ofNat 32 (31 * 2 ^ (5 * a))) }

/-- A write of ASTAT. -/
def MatSt.writeAstat (x : MatSt) (v : Nat) : MatSt := { x with astat := BitVec.ofNat 32 (v % 2 ^ 28) }

/-- Element (m, n) of an accumulator (R388). -/
def MatSt.elem (x : MatSt) (a m n : Nat) : Nat := fld (x.acc.get a 0).toNat (32 * (64 * m + n)) 32

/-- The 256 bytes of row m of an accumulator. -/
def MatSt.row (x : MatSt) (a m : Nat) : List Byte := bytesOf ((x.acc.get a 0).toNat / 2 ^ (2048 * m)) 256

/-- Replaces elements of an accumulator: (index 64·m + n, value). -/
def MatSt.putElems (x : MatSt) (a : Nat) (es : List (Nat × Nat)) : MatSt :=
  let w := x.acc.get a 0
  let mask := es.foldl (fun acc e => acc ||| 0xFFFFFFFF * 2 ^ (32 * e.1)) 0
  let val := es.foldl (fun acc e => acc ||| e.2 % 2 ^ 32 * 2 ^ (32 * e.1)) 0
  { x with acc := x.acc.set a ((w &&& ~~~(BitVec.ofNat 262144 mask)) ||| BitVec.ofNat 262144 val) }

end Sys2Proof.Machine
end

