-- ==== Sys2Proof/Machine/Stored.lean ====
section
/-!
DEFINITION. Sys2Proof/Machine/Stored.lean: stored words under the codes of R433: their data and check bits, correction, scrubbing, flipped
bits (R121 to R124), and register files read and written through their code (R121, R434).
-/

namespace Sys2Proof.Machine

/-! ### Words of a register file -/

/-- A 32-bit word of a context's register file: g0 to g31, d0 to d15 and their extensions, k0 to k15, both sets of o0 to o15, v0 to v63,
a0 to a3, in this order (notes/assumptions/16.md). -/
def Ctx.regWord (c : Ctx) (w : Nat) : Nat :=
  if w < 64 then fld (c.g.get (w / 2) 0).toNat (32 * (w % 2)) 32
  else if w < 320 then fld (c.d.get ((w - 64) / 16) 0).toNat (32 * ((w - 64) % 16)) 32
  else if w < 448 then fld (c.dext.get ((w - 320) / 8) 0).toNat (32 * ((w - 320) % 8)) 32
  else if w < 464 then (c.vec.k.get (w - 448) 0).toNat
  else if w < 480 then (c.mat.o.get (w - 464) 0).toNat
  else if w < 496 then (c.cpy.o.get (w - 480) 0).toNat
  else if w < 496 + 32768 then fld (c.vec.v.get ((w - 496) / 512) 0).toNat (32 * ((w - 496) % 512)) 32
  else fld (c.mat.acc.get ((w - 33264) / 8192) 0).toNat (32 * ((w - 33264) % 8192)) 32

/-- Replaces a 32-bit field of a register. -/
def putWord32 {n : Nat} (x : BitVec n) (i v : Nat) : BitVec n :=
  (x &&& ~~~(BitVec.ofNat n (2 ^ 32 - 1) <<< (32 * i))) ||| (BitVec.ofNat n (v % 2 ^ 32) <<< (32 * i))

/-- Writes a 32-bit word of a context's register file. -/
def Ctx.setRegWord (c : Ctx) (w v : Nat) : Ctx :=
  if w < 64 then { c with g := c.g.set (w / 2) (putWord32 (c.g.get (w / 2) 0) (w % 2) v) }
  else if w < 320 then { c with d := c.d.set ((w - 64) / 16) (putWord32 (c.d.get ((w - 64) / 16) 0) ((w - 64) % 16) v) }
  else if w < 448 then { c with dext := c.dext.set ((w - 320) / 8) (putWord32 (c.dext.get ((w - 320) / 8) 0) ((w - 320) % 8) v) }
  else if w < 464 then { c with vec := { c.vec with k := c.vec.k.set (w - 448) (BitVec.ofNat 32 v) } }
  else if w < 480 then { c with mat := { c.mat with o := c.mat.o.set (w - 464) (BitVec.ofNat 32 v) } }
  else if w < 496 then { c with cpy := { c.cpy with o := c.cpy.o.set (w - 480) (BitVec.ofNat 32 v) } }
  else if w < 496 + 32768 then
    { c with vec := { c.vec with v := c.vec.v.set ((w - 496) / 512) (putWord32 (c.vec.v.get ((w - 496) / 512) 0) ((w - 496) % 512) v) } }
  else
    let acc := c.mat.acc.set ((w - 33264) / 8192)
      (putWord32 (c.mat.acc.get ((w - 33264) / 8192) 0) ((w - 33264) % 8192) v)
    { c with mat := { c.mat with acc := acc } }

/-! ### Codewords -/

/-- Stores check bits in a map that lists those which are not code(data) (R433). -/
def putCheck {n : Nat} (m : AMap (BitVec n)) (w k code : Nat) : AMap (BitVec n) :=
  if k = code then m.del w else m.set w (BitVec.ofNat n k)

/-- The check bits of word `w` in a map that lists those which are not code(data). -/
def checkIn {n : Nat} (m : AMap (BitVec n)) (w : Nat) : Option Nat := if m.has w then some (m.get w 0).toNat else none

/-- Data bits and positional check bits of a stored word (R433). -/
def EccWord.code (w : EccWord) : Nat × Nat := match w with | .hbm .. => (64, 7) | _ => (32, 6)

/-- Data of a stored word. -/
def State.wordData (s : State) (w : EccWord) : Nat :=
  match w with
  | .hbm _ w => s.hbmWord w
  | .sram (.cache die w) => s.dvWord die w
  | .sram (.tile level owner h w) => match s.tile ⟨level, owner, h⟩ with | some t => t.word w | none => 0
  | .reg k w => (s.ctx k).regWord w

/-- Check bits of a stored word that are not code(data). -/
def State.wordCheck (s : State) (w : EccWord) : Option Nat :=
  match w with
  | .hbm _ w => checkIn s.mem.hbmCheck w
  | .sram (.cache die w) => checkIn (s.ord.dvCheck.get die []) w
  | .sram (.tile level owner h w) => (s.tile ⟨level, owner, h⟩).bind fun t => checkIn t.check w
  | .reg k w => checkIn (s.ctx k).regCheck w

/-- Whether a stored word carries check bits of its own. -/
def State.planted (s : State) (w : EccWord) : Bool := (s.wordCheck w).isSome

/-- What reading a stored word through its code gives. -/
def State.readWord (s : State) (w : EccWord) : EccRead :=
  match s.wordCheck w with
  | some k => eccRead w.code.1 w.code.2 (s.wordData w) k
  | none => .clean

/-- Replaces a stored codeword: its data and its check bits. -/
def State.putCodeword (s : State) (w : EccWord) (d k : Nat) : State :=
  let code := eccCode w.code.1 w.code.2 d
  match w with
  | .hbm _ w =>
    let s := s.hbmRaw (8 * w) (bytesOf d 8)
    { s with mem := { s.mem with hbmCheck := putCheck s.mem.hbmCheck w k code } }
  | .sram (.cache die w) =>
    let s := (List.range 4).foldl (fun s i => s.setDv die (4 * w + i) { s.dvByte die (4 * w + i) with val := byteOf d i }) s
    { s with ord := { s.ord with dvCheck := s.ord.dvCheck.set die (putCheck (s.ord.dvCheck.get die []) w k code) } }
  | .sram (.tile level owner h w) =>
    (match s.tile ⟨level, owner, h⟩ with
      | none => s
      | some t =>
        let bytes := (List.range 4).foldl (fun (b : AMap Byte) i => b.set (4 * w + i) (byteOf d i)) t.bytes
        s.setTile ⟨level, owner, h⟩ { t with bytes := bytes, check := putCheck t.check w k code })
  | .reg k' w => s.upCtx k' fun c => { c.setRegWord w d with regCheck := putCheck c.regCheck w k code }

/-- Bits of a stored codeword flip: bit i of `flip` is data bit i, and the check bits follow the data bits (notes/assumptions/98.md). -/
def State.flipWord (s : State) (w : EccWord) (flip : Nat) : State :=
  let (n, nk) := w.code
  let k := match s.wordCheck w with | some k => k | none => eccCode n nk (s.wordData w)
  s.putCodeword w ((s.wordData w ^^^ flip) % 2 ^ n) ((k ^^^ (flip / 2 ^ n)) % 2 ^ (nk + 1))

/-- Writes a corrected word back with fresh check bits; a word that reads clean or cannot be corrected stays (R121, R122). -/
def State.fixWord (s : State) (w : EccWord) : State :=
  match s.readWord w with
  | .fixed d => s.putCodeword w d (eccCode w.code.1 w.code.2 d)
  | _ => s

/-- Die, KIND and location under which a word's errors are logged (Table 5-5). -/
def State.wordPlace (s : State) (w : EccWord) : Nat × Nat × Nat :=
  match w with
  | .hbm m w => (Config.memDie m, 3, 8 * w % hbmSpan)
  | .sram (.cache die w) => (die, 2, w)
  | .sram (.tile 0 owner _ w) => (dieOf owner, 2, w)
  | .sram (.tile 1 owner _ w) =>
    (match s.sched.insts.findSome? (fun i => i.teams.find? fun t => t.team == owner) with | some t => t.die | none => 0, 2, w)
  | .sram (.tile level owner h w) => (match s.tile ⟨level, owner, h⟩ with | some t => Config.memDie t.mem | none => Config.memDie 0, 2, w)
  | .reg k w => (dieOf k, 1, w)

/-- A scrub visit of one word: a single-bit error is corrected and written back, an uncorrectable one is logged and left (R122, R123). -/
def State.scrub (s : State) (w : EccWord) : State :=
  let (die, kind, loc) := s.wordPlace w
  match s.readWord w with
  | .clean => s
  | .bad => s.logEcc die kind loc true
  | .fixed _ =>
    let s := s.logEcc die kind loc false
    let s := match w with | .hbm m _ => s.touchHistory m (hbmRow m loc) | _ => s
    s.fixWord w

/-! ### Register files through their code (R121, R434) -/

/-- Reads the words of a context's register file that `p` names: a single-bit error is logged and written back; the uncorrectable words. -/
def State.readRegs (s : State) (k : Nat) (p : Nat → Bool) : State × List Nat :=
  (((s.ctx k).regCheck.map Prod.fst).filter p).foldl (fun r w =>
    match r.1.readWord (.reg k w) with
    | .clean => r
    | .fixed _ => (r.1.scrub (.reg k w), r.2)
    | .bad => (r.1, r.2 ++ [w])) (s, [])

/-- What an instruction of a stream does that reads the words of its register file which `p` names: an uncorrectable one makes it take
the fault that `bad` gives it, and is logged when that is taken (R121, R124). -/
def State.withRegs (s : State) (k : Nat) (st : Strm) (p : Nat → Bool) (bad go : State → State) : State :=
  if (s.ctx k).regCheck.isEmpty then go s
  else match s.readRegs k p with
    | (s, []) => go s
    | (s, w :: _) =>
      let t := bad s
      if (t.strm k st).faulted then t.logEcc (dieOf k) 1 w true else t

/-- Whole words of a register file have been written: their check bits are formed anew (R434). -/
def State.freshRegs (s : State) (k : Nat) (p : Nat → Bool) : State :=
  if (s.ctx k).regCheck.isEmpty then s else s.upCtx k fun c => { c with regCheck := c.regCheck.filter fun e => !p e.1 }

/-- Register-file words of elements `p` of accumulators. -/
def accWords (as_ : List Nat) (p : Nat → Nat → Bool) (w : Nat) : Bool :=
  decide (33264 ≤ w) && as_.contains ((w - 33264) / 8192) && p ((w - 33264) % 8192 / 64) ((w - 33264) % 64)

/-- Register-file words of the offset registers of the matrix or the copy stream. -/
def offsetWords (st : Strm) (os : List Nat) (w : Nat) : Bool := os.any fun o => w == (if st = .m then 464 else 480) + o

/-- Register-file words of the first n bytes of vector register r. -/
def vecWords (r n w : Nat) : Bool := decide (496 + 512 * r ≤ w) && decide (w < 496 + 512 * r + (n + 3) / 4)

/-- The bits of words of a vector register that a write covers in part and whose stored word is erroneous: they stay (R434). -/
def Ctx.stuckBits (c : Ctx) (r : Nat) (mask : VReg) : VReg :=
  ((List.range 512).filter fun i =>
    let m := fld mask.toNat (32 * i) 32
    m != 0 && m != 0xFFFFFFFF && c.regCheck.has (496 + 512 * r + i)).foldl (fun b i => b ||| BitVec.ofNat 16384 (0xFFFFFFFF * 2 ^ (32 * i))) 0

/-- A masked write to a vector register; whole words get fresh check bits (R434). -/
def Ctx.mergeV (c : Ctx) (r : Nat) (mask val : VReg) : Ctx :=
  if c.regCheck.isEmpty then c.writeV r ((c.readV r &&& ~~~mask) ||| (val &&& mask))
  else
    let m := mask &&& ~~~(c.stuckBits r mask)
    { c.writeV r ((c.readV r &&& ~~~m) ||| (val &&& m)) with
      regCheck := c.regCheck.filter fun e => !(vecWords r 2048 e.1 && fld m.toNat (32 * (e.1 - (496 + 512 * r))) 32 == 0xFFFFFFFF) }

end Sys2Proof.Machine
end

