-- ==== Sys2Proof/Machine/Landing.lean ====
section
/-!
DEFINITION. Sys2Proof/Machine/Landing.lean: pending vector results (R160 to R162, R237): how they land, the slots that pass, the
scoreboard of interlocked mode, and the vector word of class 2 (R106).
-/

namespace Sys2Proof.Machine

/-- One write of a result. -/
def Ctx.applyVWrite (c : Ctx) (w : VWrite) : Ctx :=
  match w with
  | .v r mask val => c.mergeV r mask val
  | .k r val => c.writeK r val
  | .p r count width => { c with vec := { c.vec with p := c.vec.p.set r (count, width) } }
  | .g slot val => c.writeGuard slot (if val then .isTrue else .isFalse)
  | .scatter l => { c with vec := { c.vec with scatter := l } }

/-- A result lands: its writes and its flags (R160, R237). -/
def Ctx.land (c : Ctx) (l : Landing) : Ctx :=
  let c := l.writes.foldl Ctx.applyVWrite { c with vec := { c.vec with landing := c.vec.landing.erase l } }
  { c with vec := { c.vec with jflag := c.vec.jflag ||| l.flags } }

/-- The words of the register file that a result covers in part (R434). -/
def Landing.partWords (l : Landing) (w : Nat) : Bool :=
  l.writes.any fun x => match x with
    | .v r mask _ =>
      let m := fld mask.toNat (32 * (w - (496 + 512 * r))) 32
      vecWords r 2048 w && m != 0 && m != 0xFFFFFFFF
    | _ => false

/-- A result of context k lands, merged into the words that it covers in part through their code (R434); in interlocked mode its instruction completes with its last one (R161). A result whose access completed with an error
code faults the stream instead, and stays pending for a Retry (R162, R437). -/
def State.landOne (s : State) (k : Nat) (l : Landing) : State :=
  if l.err ≠ 0 then
    let s := s.upCtx k fun c =>
      let vec := { c.vec with landing := c.vec.landing.map fun m => if m.tag = l.tag then { m with err := 0, ready := false } else m }
      { c with vec := vec }.complete .v l.rob l.err
    s.reportAside k .v
  else
    let s := (if (s.ctx k).regCheck.isEmpty then s else (s.readRegs k l.partWords).1).upCtx k fun c => c.land l
    if l.slot.isNone && (s.ctx k).vec.landing.all fun m => m.rob != l.rob then s.complete k .v l.rob else s

/-- The exposed result that is due first at the current slot: least slot, then issue order. -/
def VecSt.due (x : VecSt) : Option Landing :=
  x.landing.foldl (fun best l =>
    match l.slot with
    | none => best
    | some n =>
      if x.slot < n then best
      else match best with
        | some b => if n < b.slot.getD 0 then some l else best
        | none => some l) none

/-- Lands every result due at the current slot, in order; false when one of them has no value yet or faults (R160). -/
def State.landDue (s : State) (k fuel : Nat) : State × Bool :=
  match fuel with
  | 0 => (s, true)
  | n + 1 =>
    match (s.ctx k).vec.due with
    | none => (s, true)
    | some l => if l.ready && decide (l.err = 0) then (s.landOne k l).landDue k n else if l.err ≠ 0 then (s.landOne k l, false) else (s, false)

/-- Lands what is due at the current slot. -/
def State.landNow (s : State) (k : Nat) : State × Bool := s.landDue k (s.ctx k).vec.landing.length

/-- Lets up to n slots pass, as a `wait` does, landing what falls due; gives the slots that did not pass. -/
def State.passSlots (s : State) (k n : Nat) : State × Nat :=
  match n with
  | 0 => (s, 0)
  | n + 1 =>
    let (s, ok) := s.landNow k
    if !ok then (s, n + 1)
    else (s.upCtx k fun c => { c with vec := { c.vec with slot := c.vec.slot + 1 } }).passSlots k n

/-- The interlocked result that completes next: the oldest that has its value. -/
def VecSt.ripe (x : VecSt) : Option Landing := x.landing.find? fun l => l.slot.isNone && l.ready

/-- Completes every interlocked result that has its value. -/
def State.landRipe (s : State) (k fuel : Nat) : State :=
  match fuel with
  | 0 => s
  | n + 1 => match (s.ctx k).vec.ripe with
    | some l => (s.landOne k l).landRipe k n
    | none => s

/-- Slots until the last pending landing slot. -/
def VecSt.slotsLeft (x : VecSt) : Nat := (x.landing.map fun l => l.slot.getD 0 - x.slot).foldl Nat.max 0

/-- What `end` and `vmode` do while results are pending (R303, R387): slots pass up to the last landing slot; true when none is left. -/
def State.settle (s : State) (k : Nat) : State × Bool :=
  let s := s.landRipe k (s.ctx k).vec.landing.length
  let (s, _) := s.passSlots k (s.ctx k).vec.slotsLeft
  let (s, _) := s.landNow k
  (s, (s.ctx k).vec.landing.isEmpty)

/-! ### Scoreboard (R161) -/

/-- Vector, index and predicate registers that a pending result will write. -/
def VecSt.pending (x : VecSt) : List Nat × List Nat × List Nat :=
  let ws := x.landing.flatMap fun l => l.writes
  let vs := (x.landing.filter fun l => !l.ready).map fun l => l.vd
  (vs ++ ws.filterMap (fun w => match w with | .v r _ _ => some r | _ => none),
    ws.filterMap (fun w => match w with | .k r _ => some r | _ => none),
    ws.filterMap (fun w => match w with | .p r _ _ => some r | _ => none))

/-- Whether an instruction that touches these registers must wait in interlocked mode. -/
def VecSt.blocks (x : VecSt) (vs ks ps : List Nat) : Bool :=
  let (pv, pk, pp) := x.pending
  vs.any pv.contains || ks.any pk.contains || ps.any pp.contains

/-! ### The vector word (R106) -/

/-- Adds an instruction's contributions, or a place for those of a load, in class 2. -/
def State.contribute (s : State) (k tag : Nat) (es : Option (List (Nat × Nat))) : State :=
  if (s.ctx k).team.pclass ≠ 2 then s
  else (s.upCtx k fun c => c.signs fun q => q ++ [match es with | some es => .elems es | none => .await tag]).sendWords k

/-- The data of a load that holds a place has arrived. -/
def State.contributed (s : State) (k tag : Nat) (es : List (Nat × Nat)) : State :=
  (s.upCtx k fun c => c.signs (putElems tag es)).sendWords k

end Sys2Proof.Machine
end

