-- ==== Sys2Proof/Machine/Csr.lean ====
section
/-!
DEFINITION. Sys2Proof/Machine/Csr.lean: the control and status registers by number (R308 to R311, Table 14-2), the fault records as
FRQ0-FRQ3 show them (Table 11-2), the engine status registers (R164), dovetail bindings (R157) and TLBINV (R39).
-/

namespace Sys2Proof.Machine

/-- Quadword n of a fault record (Table 11-2). -/
def FaultRec.quad (f : FaultRec) (n : Nat) : Nat :=
  match n with
  | 0 => f.cause % 256 + (if f.valid then 2 ^ 11 else 0) + strmIx f.st * 2 ^ 12 + (if f.impr then 2 ^ 14 else 0) + f.err % 16 * 2 ^ 15 +
      f.cls % 16 * 2 ^ 19 + f.level % 4 * 2 ^ 23 + f.tkind % 4 * 2 ^ 25 + f.sub % 65536 * 2 ^ 32 + f.entry % 65536 * 2 ^ 48
  | 1 => f.fva % 2 ^ 56
  | 2 => f.pc % 2 ^ 56
  | _ => f.cpos % 2 ^ 32 + f.spos % 2 ^ 32 * 2 ^ 32

/-- Long-running engine instructions (Table 6-4). -/
def longRunning (i : Instr) : Bool :=
  match i with
  | .mma .. | .mmaRange .. | .cpyTensorTile .. | .cpyTileTensor .. | .cpyTensorTensor .. | .cpyTileTile .. | .cpys .. | .wld ..
  | .rput .. | .rget .. => true
  | _ => false

/-- Instruction queue of the matrix or copy stream. -/
def Ctx.queue (c : Ctx) (st : Strm) : List QEntry := if st = .m then c.mat.queue else c.cpy.queue

/-- Replaces an instruction queue. -/
def Ctx.setQueue (c : Ctx) (st : Strm) (q : List QEntry) : Ctx :=
  if st = .m then { c with mat := { c.mat with queue := q } } else { c with cpy := { c.cpy with queue := q } }

/-- ENGSTM, ENGSTV or ENGSTY (Table 6-5): instructions queued and not retired, and the committed position of the oldest long-running one. -/
def Ctx.engst (c : Ctx) (st : Strm) : Nat :=
  let x := c.strm st
  let cpos :=
    if st = .v then (match x.rob.findSome? Rob.iter, x.rpt with
      | some j, _ => j
      | none, some r => r.iter
      | none, none => 0)
    else match (c.queue st).find? (fun q => !q.done && longRunning q.instr) with
      | some q => q.cpos
      | none => 0
  cpos % 2 ^ 32 + Nat.min x.rob.length 32 * 2 ^ 48 + (if (c.frec.get (strmIx st) {}).valid then 2 ^ 62 else 0) +
    (if x.stat = .run then 2 ^ 63 else 0)

/-- Value of a team register (R352). -/
def Ctx.teamReg (c : Ctx) (k n : Nat) : Nat :=
  let t := c.team
  match n with
  | 0 => t.x
  | 1 => t.y
  | 2 => t.z
  | 3 => t.stage
  | 4 => t.replica
  | 5 => t.tidx
  | 6 => t.tsize
  | 7 => Nat.min t.copy 2
  | 8 => t.nrepl
  | 9 => t.nstage
  | 10 => t.gx % 65536 + t.gy % 65536 * 65536 + t.gz % 65536 * 2 ^ 32
  | 11 => t.seq
  | 12 => k / 4
  | 13 => k % 4
  | _ => 0

/-- Whether `csrr` may read a CSR in a stream (Table 14-2). -/
def csrReads (st : Strm) (n : Nat) : Bool :=
  match st with
  | .c => decide (n ≤ 10) || (decide (16 ≤ n) && decide (n ≤ 37)) || n == 48
  | .v => (decide (0x100 ≤ n) && decide (n ≤ 0x105)) || n == 0x3FF
  | .m => n == 0x200 || n == 0x3FF
  | .y => n == 0x3FF

/-- Whether `csrw` and `csrwi` may write a CSR in a stream. -/
def csrWrites (st : Strm) (n : Nat) : Bool :=
  match st with
  | .c => n == 1 || n == 2 || n == 3 || (decide (32 ≤ n) && decide (n ≤ 37)) || n == 48
  | .v => decide (0x100 ≤ n) && decide (n ≤ 0x105)
  | .m => n == 0x200
  | .y => false

/-- The value of a CSR. -/
def State.csr (s : State) (k : Nat) (st : Strm) (n : Nat) : Nat :=
  let c := s.ctx k
  match st with
  | .c =>
    match n with
    | 0 => (s.cycle (dieOf k)).toNat
    | 1 => c.hvec.toNat
    | 2 => c.hpc.toNat * 256 + (if c.hmode then 1 else 0)
    | 3 => c.sel + c.act.get c.sel 0 * 256
    | 4 | 5 | 6 | 7 => (c.frec.get c.sel {}).quad (n - 4)
    | 8 => c.engst .m
    | 9 => c.engst .v
    | 10 => c.engst .y
    | 48 => c.tlbinv.toNat
    | n => if 32 ≤ n then (c.dvb.get (n - 32) 0).toNat else c.teamReg k (n - 16)
  | st =>
    if n = 0x3FF then (s.cycle (dieOf k)).toNat % 2 ^ 32
    else if st = .m then c.mat.astat.toNat
    else match n with
      | 0x100 => c.vec.vctl.toNat
      | 0x101 => c.vec.vshape.toNat
      | 0x102 => c.vec.jord.toNat
      | 0x103 => c.vec.jflag.toNat
      | 0x104 => c.vec.vview.toNat
      | _ => c.vec.dphase

/-- A write of a vector CSR (R310). -/
def VecSt.writeCsr (x : VecSt) (n v : Nat) : VecSt :=
  match n with
  | 0x100 => x.writeVctl v
  | 0x101 => x.writeShape v
  | 0x102 => x.writeJord v
  | 0x103 => { x with jflag := jflagWrite v }
  | 0x104 => x.writeView v
  | _ => x.writeDphase v

/-! ### Dovetail bindings (R157, Table 6-3) -/

/-- Whether a write of a binding register is ignored (R157). -/
def State.dvbIgnored (s : State) (k reg : Nat) (v : Nat) : Bool :=
  let c := s.ctx k
  let stage := fld v 14 3
  let repls := match s.instOf k with | some i => i.repls | none => []
  (c.dvb.get reg 0).getLsbD 62 || decide (c.team.nstage ≤ stage) || decide (repls.getD stage 0 ≤ fld v 6 8) ||
    decide (c.team.tsize ≤ fld v 4 2) || decide (fld v 2 2 = 3)

/-- The writable bits of a binding register. -/
def dvbValue (v : Nat) : Word := BitVec.ofNat 64 (v &&& 0x800000000001FFFE)

/-- Whether a result queue is empty, with nothing of it on the way (R157). -/
def State.rqEmpty (s : State) (k reg : Nat) : Bool :=
  ((s.ctx k).rq.get reg []).isEmpty && decide (s.inTransit k reg = 0)

/-- A binding takes effect. -/
def Ctx.bindDvb (c : Ctx) (reg : Nat) (v : Word) : Ctx :=
  { c with dvb := c.dvb.set reg v, dvbWait := c.dvbWait.del reg }

/-- A control-stream write of a binding register: ignored (R157), or made once the result queue is empty; until then the stream
stalls (see `execDovetailBind`). -/
def State.writeDvb (s : State) (reg v : Nat) : State :=
  let k := s.cur.ctx
  if !s.me.rob.isEmpty then s
  else if s.me.mpos = 1 then s.finish
  else if s.dvbIgnored k reg v then s.finish
  else if s.rqEmpty k reg then (s.upHere fun c => c.bindDvb reg (dvbValue v)).finish
  else s.upHere fun c => { c with dvbWait := c.dvbWait.set reg (dvbValue v) }

/-! ### TLBINV (R39, Table 2-6) -/

/-- A control-stream write of TLBINV: waits while BUSY, then sets BUSY with the fields. -/
def State.writeTlbinv (s : State) (v : Nat) : State :=
  if !s.me.rob.isEmpty || s.here.tlbinv.getLsbD 63 then s
  else (s.upHere fun c => { c with tlbinv := BitVec.ofNat 64 (2 ^ 63 + (v &&& 0x7FF000FFFFFFFFFF)) }).finish

/-- Whether a write of HVEC, HSTAT or FRSEL has not retired. -/
def StreamSt.csrPending (x : StreamSt) : Bool := x.rob.any fun r => r.eff.any fun e => match e with | .csr .. => true | _ => false

/-- The control stream's `csrr`. -/
def State.csrrC (s : State) (reg n : Nat) : State :=
  if !csrReads .c n then s.illegal
  else if s.me.csrPending then s
  else s.alu reg [] (BitVec.ofNat 64 (s.csr s.cur.ctx .c n))

/-- The control stream's `csrw` and `csrwi` of a value (R309, R310). -/
def State.csrwC (s : State) (n : Nat) (v : Word) : State :=
  if !csrWrites .c n then s.illegal
  else if n = 48 then (if s.isPriv s.here.vf then s.writeTlbinv v.toNat else s.faultC cPRIV)
  else if 32 ≤ n then s.writeDvb (n - 32) v.toNat
  else s.freshId.issuedEff s.ord.nextId true [.csr n v]

end Sys2Proof.Machine
end

