-- ==== Sys2Proof/Machine/Queue.lean ====
section
/-!
DEFINITION. Sys2Proof/Machine/Queue.lean: the instruction queues of the matrix and copy engines and their range checker (R146, R147,
R307, R410).
-/

namespace Sys2Proof.Machine

/-! ### What an entry names (Table 17-6) -/

/-- Offset registers that an instruction reads, in the order it names them; an o-pair gives its first row before its count. -/
def offsetReads (i : Instr) : List Nat :=
  match i with
  | .mmaRange _ _ _ os oc _ _ => [os, oc]
  | .mdrain _ _ ro _ _ _ | .mdraint _ _ ro _ _ _ | .mld _ _ ro _ | .barm ro _ => [ro]
  | .wq _ _ _ os _ => [os]
  | .oadd _ a b | .osub _ a b | .omul _ a b | .oand _ a b | .oshl _ a b | .oshr _ a b | .omin _ a b | .omax _ a b => [a, b]
  | .oaddi _ a _ => [a]
  | .csrw _ reg => [reg]
  | .qpop _ p _ | .qpush _ p _ | .cpyTensorTile _ _ p _ _ _ | .cpyTileTensor _ _ p _ _ _ _ | .cpyTensorTensor _ _ p _ _ _ _
  | .cpyTileTile _ _ p _ | .cpys _ _ p _ _ | .cpf _ p _ | .wld _ _ p _ | .rput _ _ p _ _ _ | .rget _ _ p _ _ _ => [2 * p, 2 * p + 1]
  | _ => []

/-- Offset registers that an instruction writes. -/
def offsetWrites (i : Instr) : List Nat :=
  match i with
  | .oadd d _ _ | .osub d _ _ | .omul d _ _ | .oand d _ _ | .oshl d _ _ | .oshr d _ _ | .omin d _ _ | .omax d _ _ | .oaddi d _ _
  | .oli d _ => [d]
  | .csrr reg _ => [reg]
  | _ => []

/-- Shape registers that an instruction names, in the order of its assembly form. -/
def shapeRegs (i : Instr) : List Nat :=
  match i with
  | .mma _ a b _ _ | .mmaRange _ a b _ _ _ _ => [a, b]
  | .mdrain d .. => [d]
  | .wq _ q w _ _ => [q, w]
  | .cpyTensorTile _ d .. | .cpf d .. => [d]
  | .cpyTileTensor d .. => [d]
  | .cpyTensorTensor a b .. | .wld a b .. | .rput a b .. | .rget a b .. => [a, b]
  | .cpys a b _ g _ => [a, b, g]
  | _ => []

/-- An accumulator, with the other one of its pair when `pair`. -/
def accPair (a : Nat) (pair : Bool) : List Nat := if pair then [a / 2 * 2, a / 2 * 2 + 1] else [a]

/-- Accumulators that an entry names. -/
def QEntry.accs (q : QEntry) (x : MatSt) (i : Instr) : List Nat :=
  match i with
  | .mma a .. | .mmaRange a .. => accPair a (decide ((descOf q.d1).fmt = 0))
  | .mdrain _ a .. | .mdraint _ a .. => accPair a (decide (x.tag a = 2))
  | .mld a .. | .wq a .. | .astc a => [a]
  | .mzero a pair => accPair a pair
  | _ => []

/-- Tile rows (handle, first, count, whether written) that an instruction names, from its sampled offsets. -/
def tileRows (i : Instr) (o : List Half) : List (Nat × Nat × Nat × Bool) :=
  let a := (o.getD 0 0).toNat
  let n := (o.getD 1 0).toNat
  match i with
  | .mdraint h .. => [(h, a, 128, true)]
  | .mld _ h .. => [(h, a, 128, false)]
  | .qpush h .. | .cpyTileTensor _ h .. => [(h, a, n, false)]
  | .qpop h .. | .cpyTensorTile h .. => [(h, a, n, true)]
  | .cpyTileTile d src .. => [(d, a, n, true), (src, a, n, false)]
  | _ => []

/-- The dovetail queue that an instruction uses: (operand, number). -/
def dovetailOf (i : Instr) : Option (Bool × Nat) :=
  match i with
  | .qpop _ _ q => some (true, q)
  | .qpush _ _ q => some (false, q)
  | _ => none

/-- The instruction of an entry's current iteration; none when a stepped field has passed its range (R287). -/
def QEntry.now (q : QEntry) (st : Strm) : Option Instr :=
  match q.rpt with
  | none => some q.instr
  | some r => iteration st { r with iter := q.iter } q.instr

/-- The instruction of the current iteration, the plain one when there is none. -/
def QEntry.cur (q : QEntry) (st : Strm) : Instr := (q.now st).getD q.instr

/-- The instructions of the current iteration of an entry and of those after it. -/
def QEntry.rest (q : QEntry) (st : Strm) : List Instr :=
  match q.rpt with
  | none => [q.instr]
  | some r => (List.range r.n).filterMap fun j => if q.iter ≤ j then iteration st { r with iter := j } q.instr else none

/-- Whether the current iteration of an entry has sampled its offsets (R146, R307). -/
def QEntry.sampled (q : QEntry) (st : Strm) : Bool := q.offs.length == (offsetReads (q.cur st)).length

/-- Offset registers that an entry has still to sample, in this iteration or a later one. -/
def QEntry.toRead (q : QEntry) (st : Strm) : List Nat := ((q.rest st).drop (if q.sampled st then 1 else 0)).flatMap offsetReads

/-- Whether two row ranges meet. -/
def rowsMeet (a n b m : Nat) : Bool := decide (a < b + m) && decide (b < a + n)

/-- Whether entry `l` conflicts with the earlier, unfinished entry `e` (R146): their current iterations on tiles and accumulators (R307), and
the iterations that remain on offset registers. An iteration that has not sampled its rows stands for every row of its handles. -/
def QEntry.conflicts (e l : QEntry) (st : Strm) (x : MatSt) : Bool :=
  let ei := e.cur st
  let li := l.cur st
  let whole := !e.sampled st || !l.sampled st
  let writes := (e.rest st).flatMap offsetWrites
  ((tileRows ei e.offs).any fun p => (tileRows li l.offs).any fun r =>
    p.1 == r.1 && (p.2.2.2 || r.2.2.2) && (whole || rowsMeet p.2.1 p.2.2.1 r.2.1 r.2.2.1))
  || (decide (st = .m) && (e.accs x ei).any fun a => (l.accs x li).contains a)
  || writes.any (fun o => (offsetReads li).contains o || (offsetWrites li).contains o)
  || (offsetWrites li).any (fun o => (e.toRead st).contains o)
  || (match dovetailOf ei, dovetailOf li with | some a, some b => a == b | _, _ => false)

/-! ### Entries -/

/-- An entry of a queue by its number. -/
def Ctx.entry (c : Ctx) (st : Strm) (id : Nat) : Option QEntry := (c.queue st).find? fun q => q.id == id

/-- Changes an entry. -/
def State.upEntry (s : State) (k : Nat) (st : Strm) (id : Nat) (f : QEntry → QEntry) : State :=
  s.upCtx k fun c => c.setQueue st ((c.queue st).map fun q => if q.id = id then f q else q)

/-- Forgets the entries that have retired. -/
def Ctx.purge (c : Ctx) (st : Strm) : Ctx :=
  let x := c.strm st
  c.setQueue st ((c.queue st).filter fun q => x.rob.any fun r => r.id == q.id)

/-- Entries ahead of one. -/
def Ctx.ahead (c : Ctx) (st : Strm) (id : Nat) : List QEntry := (c.queue st).takeWhile fun q => q.id != id

/-- Queue capacity (R146). -/
def queueCap (st : Strm) : Nat := if st = .m then Config.matQueue else Config.cpyQueue

/-- The shape registers that the iterations of an entry name, as they are when it enters the queue (R151). -/
def Ctx.snapshot (c : Ctx) (q : QEntry) (st : Strm) : QEntry :=
  let ds := ((q.rest st).flatMap shapeRegs).eraseDups
  { q with
    snap := ds.foldl (fun (m : AMap (BitVec 512)) d => m.set d (c.readD d)) []
    snapX := ds.foldl (fun (m : AMap (BitVec 256)) d => m.set d (c.dext.get d 0)) [] }

/-- The descriptors of an entry's current iteration, from what the entry sampled (R151). -/
def QEntry.shaped (q : QEntry) (st : Strm) : QEntry :=
  let ds := shapeRegs (q.cur st)
  let d := fun n => match ds[n]? with | some r => q.snap.get r 0 | none => 0
  let x := fun n => match ds[n]? with | some r => q.snapX.get r 0 | none => 0
  { q with d1 := d 0, d2 := d 1, d3 := d 2, x1 := x 0, x2 := x 1 }

/-- The executing instruction enters its engine's queue, which samples its shape registers (R146, R151); a full queue holds it. -/
def State.enqueue (s : State) (i : Instr) : State :=
  let st := s.cur.st
  let c := s.here
  if queueCap st ≤ (c.queue st).length then s
  else
    let id := s.ord.nextId
    let x := c.strm st
    let q : QEntry :=
      { id := id, instr := i, pc := s.cur.pc, pfx := x.pfx, rpt := x.rpt, iter := 0, d1 := 0, d2 := 0, d3 := 0, x1 := 0, x2 := 0,
        offs := [], entered := false, begun := false, discarded := false, done := false, faulted := false, cpos := 0, spos := 0,
        perf := 0, row := 0, busy := false, buf := [], bufOk := false, sigOut := false }
    let push := match x.pfx with | some p => p.push | none => 0
    s.freshId.upHere fun c =>
      let c := c.setQueue st (c.queue st ++ [(c.snapshot q st).shaped st])
      let (bs, a) := stepBlocks x.blocks s.cur.next
      let c := c.setStrm st { x.leave bs a with rob := x.rob ++ [⟨id, false, push, s.cur.pc, 0, [], none⟩] }
      { c with idleFrom := s.clock }

/-- An entry's iteration has completed: the next one begins, or the entry completes and retires in order (R307). -/
def State.entryDone (s : State) (k : Nat) (st : Strm) (id : Nat) : State :=
  match (s.ctx k).entry st id with
  | none => s
  | some q =>
    let more := match q.rpt with | some r => decide (q.iter + 1 < r.n) | none => false
    if more then
      s.upEntry k st id fun q =>
        { q with iter := q.iter + 1, begun := false, cpos := 0, spos := 0, perf := 0, row := 0, busy := false, buf := [], bufOk := false,
                 sigOut := false, offs := [] }.shaped st
    else ((s.upEntry k st id fun q => { q with done := true }).complete k st id).upCtx k fun c => c.purge st

/-- The bytes of an entry's next unit have been read: the speculative position is behind them (R163). -/
def QEntry.fetched (q : QEntry) (st : Strm) (bs : List (Nat × Byte)) : QEntry :=
  { q with buf := bs, bufOk := true, busy := false, spos := if st = .m then q.cpos + 1 else q.cpos + q.perf + bs.length }

/-- Barrier by which a copy is counted (R406). -/
def barOf (i : Instr) : Option Nat :=
  match i with
  | .cpyTensorTile _ _ _ true bar _ | .cpyTileTensor _ _ _ _ true bar _ | .cpyTensorTensor _ _ _ _ true bar _
  | .rput _ _ _ true bar _ | .rget _ _ _ true bar _ => some bar
  | _ => none

/-- Commits n of the performed bytes of a copy: CPOS advances, and a counted barrier falls by them (R405, R406). -/
def State.commitBytes (s : State) (k : Nat) (q : QEntry) (n : Nat) : State :=
  let s := s.upEntry k .y q.id fun e => { e with perf := e.perf - n, cpos := e.cpos + n, spos := Nat.max e.spos (e.cpos + n) }
  match barOf (q.cur .y) with
  | some b => s.upCtx k fun c => { c with cpy := { c.cpy with bar := c.cpy.bar.set b (c.cpy.bar.get b 0 - BitVec.ofNat 32 n) } }
  | none => s

/-- Every performed byte of the copy queue of a context commits (R163). -/
def State.commitAll (s : State) (k : Nat) : State := (s.ctx k).cpy.queue.foldl (fun s q => if q.perf = 0 then s else s.commitBytes k q q.perf) s

/-- An engine-queue fault: reported once every earlier instruction of the queue has retired (R239), with its performed bytes committed
(R163); until then the entry waits. -/
def State.entryFault (s : State) (k : Nat) (st : Strm) (q : QEntry) (f : FaultRec) : State :=
  match (s.strm k st).rob with
  | r :: _ =>
    if r.id = q.id ∧ !((s.ctx k).frec.get (strmIx st) {}).valid then
      let s := if q.perf = 0 then s else s.commitBytes k q q.perf
      let cpos := q.cpos + q.perf
      (s.upEntry k st q.id fun e => { e with faulted := true, busy := false, buf := [], bufOk := false, spos := e.cpos }).takeFault k
        { f with st := st, pc := q.pc, entry := 0, cpos := cpos, spos := if longRunning q.instr then Nat.max q.spos cpos else 0 }
    else s
  | [] => s

/-- The queries of a die that wait for its weight die are flushed by the failure of the link between them: code 3 (R48). -/
def State.flushQueries (s : State) (die : Nat) : State :=
  ((s.ctxs.map Prod.fst).filter fun k => dieOf k == die).foldl (fun s k =>
    ((s.ctx k).mat.queue.filter fun q => !q.done && q.bufOk && (match q.instr with | .wq .. => true | _ => false)).foldl (fun s q =>
      (s.upEntry k .m q.id fun e => { e with bufOk := false, buf := [] }).entryFault k .m q { cause := cDATAERR, err := 3 }) s) s

/-- Passes the wait point of R143 with a prefix, if every token is there. -/
def Ctx.waitPfx (c : Ctx) (st : Strm) (p : Pfx) : Ctx × Pfx :=
  if p.taken then (c, p)
  else match takeTokens c.tok (waitKeys st p.wset) with
    | some tok => ({ c with tok := tok }, { p with taken := true })
    | none => (c, p)

/-- Passes the wait and guard points of R143 with a prefix: none while it holds, else the prefix with what it has taken, and whether
the instruction is discarded. -/
def Ctx.passPfx (c : Ctx) (st : Strm) (p : Pfx) : Ctx × Pfx × Option Bool :=
  let (c, p) := c.waitPfx st p
  if !p.taken then (c, p, none)
  else if p.decided || !p.gen then (c, { p with decided := true }, some false)
  else match c.readGuard p.slot with
    | .unresolved => (c, p, none)
    | .isTrue => (c, { p with decided := true }, some (!p.sense))
    | .isFalse => (c, { p with decided := true }, some p.sense)

/-- An entry at its turn decides on its guard, its tokens taken; discarded, it is done (R143). -/
def State.decideEntry (s : State) (k : Nat) (st : Strm) (q : QEntry) : State :=
  match q.pfx with
  | none => s
  | some p =>
    if p.decided then s
    else
      let (c, p, r) := (s.ctx k).passPfx st p
      let s := (s.setCtx k c).upEntry k st q.id fun e => { e with pfx := some p }
      if r = some true then
        ((s.upEntry k st q.id fun e => { e with discarded := true, entered := true, done := true }).complete k st q.id).upCtx k fun c => c.purge st
      else s

/-- Whether an entry's prefix has been decided. -/
def QEntry.ready (q : QEntry) : Bool := match q.pfx with | none => true | some p => p.decided

/-- Whether an entry may enter the range checker: entries enter in order, behind no waiting `bwait`, once every earlier writer of an offset
that one of its iterations reads has completed (R146, R307, R406). -/
def Ctx.mayEnter (c : Ctx) (st : Strm) (q : QEntry) : Bool :=
  let reads := (q.rest st).flatMap offsetReads
  (c.ahead st q.id).all fun e =>
    e.done || (e.entered && (match e.instr with | .bwait _ => false | _ => true) &&
      !((e.rest st).flatMap offsetWrites).any fun o => reads.contains o)

/-- The current iteration of an entry samples its offsets (R146, R307). -/
def State.sampleEntry (s : State) (k : Nat) (st : Strm) (q : QEntry) : State :=
  s.withRegs k st (offsetWords st (offsetReads (q.cur st))) (fun s => s.entryFault k st q { cause := cDATAERR, err := 1 }) fun s =>
    s.upEntry k st q.id fun e => { e with offs := (offsetReads (q.cur st)).map ((s.ctx k).readO st) }

/-- An entry enters the range checker; unless it is repeated, it samples its offsets (R146, R307). -/
def State.enterEntry (s : State) (k : Nat) (st : Strm) (q : QEntry) : State :=
  if q.entered || !q.ready || !(s.ctx k).mayEnter st q then s
  else
    let s := s.upEntry k st q.id fun e => { e with entered := true }
    if q.rpt.isNone then s.sampleEntry k st q else s

end Sys2Proof.Machine
end

