-- ==== Sys2Proof/Machine/Matrix.lean ====
section
/-!
DEFINITION. Sys2Proof/Machine/Matrix.lean: what the entries of the matrix queue do (17_matrix_copy_isa.md): K-steps, drains, loads,
weight-die queries, offset words, dovetail queues and CSR words; and the commits of K-steps and query results.
-/

namespace Sys2Proof.Machine

/-! ### Accesses of an entry -/

/-- Issues a read of an entry's bytes in a class: a miss waits, a translation fault is the entry's fault (R393). -/
def State.entryFetch (s : State) (k : Nat) (st : Strm) (q : QEntry) (cls : Nat) (vas : List Nat) : State :=
  match s.chkBytes k 0 vas with
  | .miss v => s.queueMiss k 0 v
  | .bad t l v => s.entryFault k st q { cause := cXLATE, tkind := t, level := l, fva := v }
  | .ok locs e =>
    let a := { newAccess s.ord.nextId cls .read (readParts locs) (.entry q.id) (vas.headD 0) q.pc e (s.cycle (dieOf k)).toNat with rob := 0 }
    ((s.pushAccs k st [a]).freshId).upEntry k st q.id fun e => { e with busy := true, buf := [], bufOk := false }

/-- A row that an entry stores: its addresses, its bytes, and what the signature word covers for it. -/
structure StoreRow where
  vas : List Nat
  bytes : List Byte
  sign : List Byte

/-- Issues an entry's stores, one access per row, early or global (R168), or holds them in class 2, as many as need not wait (R103, R107,
R111). `issued` says what the entry becomes with n rows issued. -/
def State.entryStores (s : State) (k : Nat) (st : Strm) (q : QEntry) (cls : Nat) (kind : AccKind) (rows : List StoreRow)
    (issued : Nat → QEntry → QEntry) : State :=
  match s.chkBytes k 1 (rows.flatMap StoreRow.vas) with
  | .miss v => s.queueMiss k 1 v
  | .bad t l v => s.entryFault k st q { cause := cXLATE, tkind := t, level := l, fva := v }
  | .ok _ _ =>
    let now := (s.cycle (dieOf k)).toNat
    let as_ := ((List.range rows.length).zip rows).filterMap fun (n, r) =>
      match s.chkBytes k 1 r.vas with
      | .ok locs e => some ({ newAccess (s.ord.nextId + n) cls kind (groupParts (locs.zip r.bytes)) (.entry q.id) (r.vas.headD 0) q.pc e now
          with rob := 0 }, r.sign)
      | _ => none
    let s := { s with ord := { s.ord with nextId := s.ord.nextId + rows.length } }
    if (s.ctx k).team.pclass = 2 then
      let (s, n) := s.holdEach k st (as_.map fun a => ({ a.1 with sink := .none }, a.2))
      let perf := if st = .y then ((rows.take n).map fun r => r.bytes.length).foldl (· + ·) 0 else 0
      if n = 0 then s else s.upEntry k st q.id fun e => { issued n e with perf := e.perf + perf, row := e.row + 1 }
    else (s.pushAccs k st (as_.map Prod.fst)).upEntry k st q.id fun e => { issued rows.length e with busy := true }

/-! ### mma (R391 to R393) -/

/-- Accumulator kind of a format: 0 FP32, 1 INT32, 2 FP64 (R219). -/
def kindOfFmt (fmt : Nat) : Nat := if fmt = 0 then 2 else if fmt = 6 then 1 else 0

/-- K elements of one K-step (Table 9-4). -/
def kStepLen (fmt : Nat) : Nat :=
  match fmt with
  | 0 | 1 | 2 | 3 => 48
  | 8 | 9 | 11 => 192
  | _ => 96

/-- Byte offsets of a row that hold elements lo to hi - 1, block scales of panels included. -/
def stepOffs (fmt lo hi : Nat) : List Nat :=
  let es := ((List.range (hi - lo)).map (lo + ·)).flatMap fun i => (List.range (elemBytes fmt)).map (rowOff fmt i + ·)
  let panels := ((List.range (hi - lo)).map fun i => (lo + i) / 240).eraseDups
  let tr := match fmt with
    | 7 => panels.flatMap fun p => (List.range 7).map (256 * p + 240 + ·)
    | 8 | 9 => panels.flatMap fun p => (List.range 7).map (128 * p + 120 + ·)
    | _ => []
  (es ++ tr).eraseDups

/-- Scale bytes of a row that elements lo to hi - 1 need (R215). -/
def stepScales (fmt lo hi : Nat) : List Nat :=
  if fmt = 10 ∨ fmt = 11 then ((List.range (hi - lo)).map fun i => (lo + i) / 32).eraseDups else []

/-- Addresses of those bytes for rows 0 to n - 1 of a tensor. -/
def Desc.stepVas (d : Desc) (n lo hi : Nat) : List Nat :=
  (List.range n).flatMap fun m =>
    (stepOffs d.fmt lo hi).map (d.rowAddr m + ·) ++ (stepScales d.fmt lo hi).map (d.scaleAddr m + ·)

/-- A row's bytes by offset, from those that were read. -/
def byteFrom (offs : List Nat) (bs : List Nat) : ByteAt := fun o =>
  match (offs.zip bs).find? (fun p => p.1 == o) with
  | some p => p.2
  | none => 0

/-- The byte reader and the scale reader of each row, from the bytes of `stepVas`. -/
def stepRows (d : Desc) (n lo hi : Nat) (bs : List Nat) : List (ByteAt × ByteAt) :=
  let o := stepOffs d.fmt lo hi
  let sc := stepScales d.fmt lo hi
  (chunks n (o.length + sc.length) bs).map fun r => (byteFrom o (r.take o.length), byteFrom sc (r.drop o.length))

/-- Operands, first K-step and count of an `mma`; count is none when a check of R392 fails. -/
def QEntry.mmaPlan (q : QEntry) (i : Instr) : Desc × Desc × Nat × Option Nat :=
  let a := descOf q.d1
  let b := descOf q.d2
  let ks := Nat.min (kStepLen a.fmt) (kStepLen b.fmt)
  let steps := (a.e0 + ks) / ks
  let (acc, first, count) := match i with
    | .mmaRange acc .. => (acc, (q.offs.getD 0 0).toNat, (q.offs.getD 1 0).toNat)
    | .mma acc .. => (acc, 0, steps)
    | _ => (0, 0, 0)
  let bad := a.bad || b.bad || kindOfFmt a.fmt != kindOfFmt b.fmt || a.e0 != b.e0 || decide (128 < a.e1 + 1) || decide (64 < b.e1 + 1) ||
    (decide (a.fmt = 0) && acc % 2 == 1) || decide (steps < first + count)
  (a, b, first, if bad then none else some count)

/-- K range of K-step t. -/
def kRange (a b : Desc) (t : Nat) : Nat × Nat :=
  let ks := Nat.min (kStepLen a.fmt) (kStepLen b.fmt)
  (t * ks, Nat.min ((t + 1) * ks) (a.e0 + 1))

/-- Ordering class of a matrix or copy instruction, 0 for those that have none. -/
def classOf (i : Instr) : Nat :=
  match i with
  | .mma _ _ _ _ n | .mmaRange _ _ _ _ _ _ n | .mdrain _ _ _ _ _ n | .mdraint _ _ _ _ _ n | .mld _ _ _ n | .wq _ _ _ _ n
  | .cpyTensorTile _ _ _ _ _ n | .cpyTileTensor _ _ _ _ _ _ n | .cpyTensorTensor _ _ _ _ _ _ n | .cpyTileTile _ _ _ n
  | .cpys _ _ _ _ n | .cpf _ _ n | .wld _ _ _ n | .rput _ _ _ _ _ n | .rget _ _ _ _ _ n => n
  | _ => 0

/-- Clears an accumulator or its pair to +0. -/
def MatSt.clear (x : MatSt) (a : Nat) (pair : Bool) : MatSt :=
  { x with acc := (accPair a pair).foldl (fun m n => m.set n 0) x.acc }

/-- Changes the matrix registers of a context. -/
def State.upMat (s : State) (k : Nat) (f : MatSt → MatSt) : State := s.upCtx k fun c => { c with mat := f c.mat }

/-- Clears an accumulator or its pair of a context to +0. -/
def State.clearAcc (s : State) (k a : Nat) (pair : Bool) : State :=
  (s.upMat k fun x => x.clear a pair).freshRegs k (accWords (accPair a pair) fun _ _ => true)

/-- `mma` begins, or fetches the operands of its next K-step. -/
def State.workMma (s : State) (k : Nat) (q : QEntry) (i : Instr) (acc : Nat) (z : Bool) : State :=
  let (a, b, first, count) := q.mmaPlan i
  match count with
  | none => s.entryFault k .m q { cause := cDESC }
  | some count =>
    let s := if !q.begun ∧ q.cpos = 0 ∧ z then s.clearAcc k acc (decide (a.fmt = 0)) else s
    let s := s.upEntry k .m q.id fun e => { e with begun := true }
    if count ≤ q.cpos then s.entryDone k .m q.id
    else if q.busy || q.bufOk then s
    else
      let (lo, hi) := kRange a b (first + q.cpos)
      s.entryFetch k .m q (classOf i) (a.stepVas (a.e1 + 1) lo hi ++ b.stepVas (b.e1 + 1) lo hi)

/-- One K-step of an accumulator (R220 to R223): the new accumulators with their flags and tags, with an error in one element, and whether
its checksums agree (R99). An FP64 K-step is not checked, nor are saturated elements of an INT8 one. -/
def MatSt.kStep (x : MatSt) (acc : Nat) (a b : Desc) (x1 x2 : BitVec 256) (lo hi : Nat) (bs : List Nat) (check : Bool) (err : ElemErr) :
    MatSt × Bool :=
  let mm := a.e1 + 1
  let nn := b.e1 + 1
  let na := mm * ((stepOffs a.fmt lo hi).length + (stepScales a.fmt lo hi).length)
  let ar := stepRows a mm lo hi (bs.take na)
  let br := stepRows b nn lo hi (bs.drop na)
  let ks := (List.range (hi - lo)).map (lo + ·)
  let ix := fun {α : Type} (xs : List α) => (List.range xs.length).zip xs
  if a.fmt = 6 then
    let ae := ar.map fun r => ks.map fun i => toSigned 8 (r.1 i)
    let be := br.map fun r => ks.map fun i => toSigned 8 (r.1 i)
    let out := (ix ae).flatMap fun m => (ix be).map fun n =>
      (64 * m.1 + n.1, kStepInt (x.elem acc m.1 n.1) (m.2.zip n.2 ++ [(errAt err m.1 n.1, 1)]))
    let sat := fun m n => out.any fun o => o.1 == 64 * m + n && o.2.2
    (((x.putElems acc (out.map fun o => (o.1, o.2.1))).flag acc (if out.any fun o => o.2.2 then aSat else 0)).setTag acc 1,
      !check || checksumsAgree (hi - lo) (ae.map fun r => r.map Ex.int) (be.map fun r => r.map Ex.int) err sat)
  else
    let ae := ar.map fun r => ks.map fun i => rowElem a.fmt r.1 r.2 x1.toNat i
    let be := br.map fun r => ks.map fun i => rowElem b.fmt r.1 r.2 x2.toNat i
    if a.fmt = 0 then
      let e := acc / 2 * 2
      let out := (ix ae).flatMap fun m => (ix be).map fun n =>
        (64 * m.1 + n.1, kStep64 (x.elem e m.1 n.1 + x.elem (e + 1) m.1 n.1 * 2 ^ 32) (m.2.zip n.2 ++ errPair err m.1 n.1))
      let x := (x.putElems e (out.map fun o => (o.1, o.2.1 % 2 ^ 32))).putElems (e + 1) (out.map fun o => (o.1, o.2.1 / 2 ^ 32))
      (((x.flag e (out.foldl (fun f o => f ||| o.2.2) 0)).setTag e 2).setTag (e + 1) 3, true)
    else
      let out := (ix ae).flatMap fun m => (ix be).map fun n =>
        (64 * m.1 + n.1, kStep32 (x.elem acc m.1 n.1) (m.2.zip n.2 ++ errPair err m.1 n.1))
      (((x.putElems acc (out.map fun o => (o.1, o.2.1))).flag acc (out.foldl (fun f o => f ||| o.2.2) 0)).setTag acc 0,
        !check || checksumsFv (hi - lo) ae be err)

/-- The bytes an entry has read, as numbers. -/
def QEntry.data (q : QEntry) : List Nat := q.buf.map fun b => b.2.toNat

/-- Accumulator of an `mma`. -/
def mmaAcc (i : Instr) : Option Nat :=
  match i with
  | .mma a .. | .mmaRange a .. => some a
  | _ => none

/-- Commits the K-step of the first `mma` of context k whose operands are there (R391); in class 1 checked, replayed once, and a CHECK fault
when it fails again (R99, R101). -/
def State.commitStep (s : State) (k : Nat) : State :=
  let c := s.ctx k
  if c.sm.faulted then s
  else match c.mat.queue.find? (fun q => !q.done && q.bufOk && (mmaAcc q.instr).isSome) with
    | none => s
    | some q =>
      let i := q.cur .m
      let (a, b, first, count) := q.mmaPlan i
      let (lo, hi) := kRange a b (first + q.cpos)
      let acc := (mmaAcc i).getD 0
      s.withRegs k .m (accWords (accPair acc (decide (a.fmt = 0))) fun m n => decide (m ≤ a.e1) && decide (n ≤ b.e1))
        (fun s => s.entryFault k .m q { cause := cDATAERR, err := 1 }) fun s =>
        match s.checked k .m fun chk err => (s.ctx k).mat.kStep acc a b q.x1 q.x2 lo hi q.data chk err with
        | (s, none) => (s.entryFault k .m q { cause := cCHECK }).checkFailed k .m
        | (s, some x) =>
          let s := s.upMat k fun m => { m with acc := x.acc, astat := x.astat }
          let s := s.upEntry k .m q.id fun e => { e with cpos := e.cpos + 1, spos := e.cpos + 1, bufOk := false, buf := [] }
          if count.getD 0 ≤ q.cpos + 1 then s.entryDone k .m q.id else s

/-! ### Drains (R394 to R396, Table 17-2) -/

/-- Whether a format is allowed for a kind tag (Table 17-2). -/
def drainFits (tag fmt : Nat) : Bool :=
  match tag with
  | 0 => decide (fmt ≤ 8) || fmt == 10 || fmt == 11
  | 1 => decide (fmt ≤ 3) || fmt == 6
  | 2 => decide (fmt ≤ 1)
  | _ => false

/-- One accumulator element under its tag into a format of 0 to 6: its code and its FLAGS bits. -/
def MatSt.drainElem (x : MatSt) (acc tag fmt rm m n : Nat) : Nat × Nat :=
  let r : Rnd := { code := rm }
  let w := x.elem acc m n
  match tag with
  | 0 =>
    if fmt = 1 then (w, 0)
    else if fmt = 6 then
      let (v, f) := fvToInt r 8 (fmtF32.read false w)
      (toBits 8 v, astatFlags f)
    else
      let (v, f) := (ffmtOf fmt).convert r (fmtF32.read false w)
      (v, astatFlags f)
  | 1 =>
    let v := toSigned 32 w
    if fmt = 6 then
      let t := max (-128) (min 127 v)
      (toBits 8 t, if t = v then 0 else aSat)
    else
      let (u, f) := (ffmtOf fmt).write r (intRv r v)
      (u, astatFlags f)
  | _ =>
    let e := acc / 2 * 2
    let d := x.elem e m n + x.elem (e + 1) m n * 2 ^ 32
    if fmt = 0 then (d, 0)
    else
      let (u, f) := fmtF32.convert r (fmtF64.read false d)
      (u, astatFlags f)

/-- One drained row: element bytes, scale bytes, FLAGS bits, and whether an element was out of bounds. -/
structure DrainRow where
  bytes : List Byte
  scales : List Byte
  flags : Nat
  oob : Bool

/-- Row m of an accumulator as n elements of a format, under a descriptor's bounds if one is given. -/
def MatSt.drainRow (x : MatSt) (acc fmt rm n m : Nat) (d : Option Desc) : DrainRow :=
  let tag := x.tag acc
  let pre := if 7 ≤ fmt then 1 else fmt
  let es := (List.range n).map fun j =>
    let (w, f) := x.drainElem acc tag pre rm m j
    match d with
    | none => (w, f, false)
    | some d => let (w', o) := d.bound pre w; (w', f, o)
  let oob := es.any fun e => e.2.2
  let act := match d with | some d => d.bact | none => 0
  let fl := (es.foldl (fun a e => a ||| e.2.1) 0) ||| (if oob && (act == 1 || act == 2) then aBound else 0)
  if fmt < 7 then ⟨es.flatMap fun e => bytesOf e.1 (elemBytes fmt), [], fl, oob⟩
  else
    let (b, sc, f) := packRow fmt rm 0 0 (es.map fun e => some (fmtF32.read false e.1))
    ⟨b, sc, fl ||| astatFlags f, oob⟩

/-- `mdrain`: faults of R395 at its beginning, then its rows as stores; a bound fault writes the rows before it (R126). -/
def State.workDrain (s : State) (k : Nat) (q : QEntry) (acc rm : Nat) (glob : Bool) (cls : Nat) : State :=
  let d := descOf q.d1
  let x := (s.ctx k).mat
  let q0 := (q.offs.getD 0 0).toNat
  if q.busy then s
  else if d.bad || !drainFits (x.tag acc) d.fmt || decide (64 < d.e0 + 1) || decide (128 < d.e1 + 1) ||
      decide (d.rows ≤ q0 + d.e1) then s.entryFault k .m q { cause := cDESC }
  else if d.e1 + 1 ≤ q.cpos then s.entryDone k .m q.id
  else
    let rows := (((List.range (d.e1 + 1)).filter (q.cpos ≤ ·)).map fun m => (m, x.drainRow acc d.fmt rm (d.e0 + 1) m (some d)))
    let rows := if d.bact = 3 then rows.takeWhile fun r => !r.2.oob else rows
    if rows.isEmpty then s.entryFault k .m q { cause := cBOUND }
    else
      let seq := fun (a : Nat) (bs : List Byte) => (List.range bs.length).map (a + ·)
      let out := rows.map fun r =>
        let a := d.rowAddr (q0 + r.1)
        StoreRow.mk (seq a r.2.bytes ++ seq (d.scaleAddr (q0 + r.1)) r.2.scales) (r.2.bytes ++ r.2.scales)
          ((if r.1 = 0 then bytesOf a 8 else []) ++ r.2.bytes)
      let s' := s.entryStores k .m q cls (if glob then .global else .early) out fun n e => { e with begun := true, cpos := q.cpos + n }
      let n := match (s'.ctx k).entry .m q.id with | some e => e.cpos - q.cpos | none => 0
      if n = 0 then s' else s'.upMat k fun x => x.flag acc ((rows.take n).foldl (fun f r => f ||| r.2.flags) 0)

/-- Bytes that a row of 64 elements takes in a tile (R396). -/
def drainTileRow (fmt : Nat) : Nat := rowSpan fmt 64

/-- Destination of a tile or an accumulator in a matrix or copy word (R107). -/
def signPlace (h row : Nat) : List Byte := bytesOf (h % 256 + row % 2 ^ 32 * 256) 8

/-- Writes rows of bytes into tile rows of a context from `first` on, from byte `off` of each; a word that cannot be merged is a write
error of the stream (R434). -/
def State.tileRows (s : State) (k : Nat) (st : Strm) (cls h first off : Nat) (rows : List (List Byte)) : State :=
  ((List.range rows.length).zip rows).foldl (fun s r =>
    let (s, ok) := s.tileWrite k st h (first + r.1) off r.2
    if ok then s else s.upStrm k st fun x => { x with werr := x.werr ++ [⟨cls, 1, 0⟩] }) s

/-- `mdraint`: all 128 rows into tile rows (R396). -/
def State.workDrainT (s : State) (k : Nat) (q : QEntry) (h acc rm fmt cls : Nat) : State :=
  let x := (s.ctx k).mat
  let first := (q.offs.getD 0 0).toNat
  if !drainFits (x.tag acc) fmt then s.entryFault k .m q { cause := cDESC }
  else match s.tileOf k h with
    | none => s.entryFault k .m q (tileFault 0 h first)
    | some t =>
      if !t.covers first 128 (drainTileRow fmt) then s.entryFault k .m q (tileFault 0 h (t.firstBad first (drainTileRow fmt)))
      else if !(s.strm k .m).classIdle cls then s
      else
        let rows := (List.range 128).map fun m => x.drainRow acc fmt rm 64 m none
        let s := s.signBytes k .m (signPlace h first ++ rows.flatMap fun r => r.bytes)
        let s := s.tileRows k .m cls h first 0 (rows.map fun r => r.bytes)
        (s.upMat k fun x => x.flag acc (rows.foldl (fun f r => f ||| r.flags) 0)).entryDone k .m q.id

/-- `mld`: the first 256 bytes of 128 tile rows into an accumulator, bit for bit (R397). -/
def State.workMld (s : State) (k : Nat) (q : QEntry) (acc h cls : Nat) : State :=
  let first := (q.offs.getD 0 0).toNat
  match s.tileOf k h with
  | none => s.entryFault k .m q (tileFault 0 h first)
  | some t =>
    if !t.covers first 128 256 then s.entryFault k .m q (tileFault 0 h (t.firstBad first 256))
    else if !(s.strm k .m).classIdle cls then s
    else
      let (s, bs) := (List.range 128).foldl (fun (r : State × Option (List Byte)) m =>
        match r.2 with
        | none => r
        | some bs =>
          let (s, row) := r.1.tileRead k .m h t (first + m) 0 256
          (s, row.map fun b => bs ++ b)) (s, some [])
      match bs with
      | none => s.entryFault k .m q { cause := cDATAERR, err := 1 }
      | some bs =>
        ((s.upMat k fun x => { x with acc := x.acc.set acc (BitVec.ofNat 262144 (leNat bs)) }).freshRegs k
          (accWords [acc] fun _ _ => true)).entryDone k .m q.id

/-! ### Weight-die queries (R398, R399) -/

/-- A partition's weight window: start and size in bytes (Table 17-3). -/
def State.weightWin (s : State) (vf : Nat) : Nat × Nat :=
  let w := s.pf.wwin.get vf {}
  (fld w.w0.toNat 0 12 * 65536, fld w.w1.toNat 0 13 * 65536)

/-- Byte of the weight die of compute die d at offset `off` of a partition's window. -/
def State.weightByte (s : State) (die vf off : Nat) : Nat :=
  (memGet 0 s.mem.weight (die * 2 ^ 28 + (s.weightWin vf).1 + off)).toNat

/-- Whether the rows first to first + n - 1 of a weight-side tensor lie in the window (R398). -/
def State.inWindow (s : State) (vf : Nat) (d : Desc) (first n : Nat) : Bool :=
  let size := (s.weightWin vf).2
  (List.range n).all fun j =>
    decide (d.rowAddr (first + j) + rowSpan d.fmt (d.e0 + 1) ≤ size) && decide (d.scaleAddr (first + j) + scaleSpan d.fmt (d.e0 + 1) ≤ size)

/-- Whether a descriptor's format is an MX one. -/
def Desc.mx (d : Desc) : Bool := d.fmt == 10 || d.fmt == 11

/-- `wq` begins: its checks, and the read of its query rows (R399); a weight die that has left, or that no live link reaches, answers with code
2 or 4 (R46, R47, R50). -/
def State.workWq (s : State) (k : Nat) (q : QEntry) (cls : Nat) : State :=
  let dq := descOf q.d1
  let dw := descOf q.d2
  let o := (q.offs.getD 0 0).toNat
  if q.busy || q.bufOk then s
  else if dq.bad || dw.bad || !dq.mx || !dw.mx || dq.e0 != dw.e0 || decide (128 < dq.e1 + 1) || decide (dw.e1 < o) ||
      !s.inWindow (s.ctx k).vf dw o (Nat.min 64 (dw.e1 + 1 - o)) then s.entryFault k .m q { cause := cDESC }
  else if !s.isLive (16 + dieOf k) then s.entryFault k .m q { cause := cDATAERR, err := 2 }
  else if s.fab.linksDown.contains (dieOf k, 16 + dieOf k) then s.entryFault k .m q { cause := cDATAERR, err := 4 }
  else (s.upEntry k .m q.id fun e => { e with begun := true }).entryFetch k .m q cls (dq.stepVas (dq.e1 + 1) 0 (dq.e0 + 1))

/-- One partial sum of a query (R224): bits and flags. -/
def wqSum (xs ys : List Fv) : Nat × Nat :=
  if (xs ++ ys).any fun v => decide (v = .nan) then (fmtF32.nan, 0)
  else
    let t := (xs.zip ys).foldl (fun acc p => acc.add (p.1.ex.mul p.2.ex)) (Ex.int 0)
    let (w, f) := fmtF32.write { code := 0 } (t.toRv { code := 0 })
    (w, accFlags f)

/-- The weight die's answer to the first query of context k whose rows have been read is written to its accumulator (R399); in class 1 checked
as a K-step is (R99, R101). -/
def State.queryResult (s : State) (k : Nat) : State :=
  let c := s.ctx k
  if c.sm.faulted then s
  else match c.mat.queue.find? (fun q => !q.done && q.bufOk && (mmaAcc q.instr).isNone) with
    | none => s
    | some q =>
      match q.cur .m with
      | .wq acc _ _ _ _ =>
        let dq := descOf q.d1
        let dw := descOf q.d2
        let o := (q.offs.getD 0 0).toNat
        let n := dq.e0 + 1
        let nw := Nat.min 64 (dw.e1 + 1 - o)
        let is := List.range n
        let qs := (stepRows dq (dq.e1 + 1) 0 n q.data).map fun r => is.map fun i => rowElem dq.fmt r.1 r.2 0 i
        let ws := (List.range nw).map fun j =>
          is.map fun i => rowElem dw.fmt (fun b => s.weightByte (dieOf k) c.vf (dw.rowAddr (o + j) + b))
            (fun b => s.weightByte (dieOf k) c.vf (dw.scaleAddr (o + j) + b)) 0 i
        let sums := fun (err : ElemErr) => ((List.range qs.length).zip qs).flatMap fun m => ((List.range nw).zip ws).map fun w =>
          let p := errPair err m.1 w.1
          (64 * m.1 + w.1, wqSum (m.2 ++ p.map Prod.fst) (w.2 ++ p.map Prod.snd))
        match s.checked k .m fun chk err => (sums err, !chk || checksumsFv n qs ws err) with
        | (s, none) => (s.entryFault k .m q { cause := cCHECK }).checkFailed k .m
        | (s, some out) =>
          let s := s.signBytes k .m (signPlace acc 0 ++ out.flatMap fun e => bytesOf e.2.1 4)
          ((s.upMat k fun x => ((x.putElems acc (out.map fun e => (e.1, e.2.1))).flag acc (out.foldl (fun f e => f ||| e.2.2) 0)).setTag acc 0)
            |>.freshRegs k (accWords [acc] fun m n => decide (m < qs.length) && decide (n < nw))).entryDone k .m q.id
      | _ => s

/-! ### Words that both engines have (R401, R402, R309, R312) -/

/-- Result of an offset word, from its sampled sources (R401). -/
def offsetResult (i : Instr) (o : List Half) : Option (Nat × Half) :=
  let a := o.getD 0 0
  let b := o.getD 1 0
  match i with
  | .oadd d _ _ => some (d, a + b)
  | .osub d _ _ => some (d, a - b)
  | .omul d _ _ => some (d, a * b)
  | .oand d _ _ => some (d, a &&& b)
  | .oshl d _ _ => some (d, a <<< (b.toNat % 32))
  | .oshr d _ _ => some (d, a >>> (b.toNat % 32))
  | .omin d _ _ => some (d, if a.toInt ≤ b.toInt then a else b)
  | .omax d _ _ => some (d, if a.toInt ≤ b.toInt then b else a)
  | .oaddi d _ imm => some (d, a + BitVec.ofInt 32 imm)
  | .oli d imm => some (d, BitVec.ofInt 32 imm)
  | _ => none

/-- `qpush`: rows of a tile as one entry of a result queue (R402, R159). -/
def State.workPush (s : State) (k : Nat) (st : Strm) (q : QEntry) (h qn : Nat) : State :=
  let first := (q.offs.getD 0 0).toNat
  let cnt := (q.offs.getD 1 0).toNat
  let key := 2 * kindOf st + qn
  let c := s.ctx k
  match s.tileOf k h with
  | none => s.entryFault k st q (tileFault 0 h first)
  | some t =>
    if cnt = 0 ∨ 2048 < cnt * t.rb ∨ !(c.dvb.get key 0).getLsbD 63 then s.entryFault k st q { cause := cSTREAM }
    else if !t.covers first cnt t.rb then s.entryFault k st q (tileFault 0 h (t.firstBad first t.rb))
    else if Config.queueDepth ≤ (c.rq.get key []).length then s
    else
      let (s, bs) := (List.range cnt).foldl (fun (r : State × Option (List Byte)) m =>
        match r.2 with
        | none => r
        | some bs =>
          let (s, row) := r.1.tileRead k .m h t (first + m) 0 t.rb
          (s, row.map fun b => bs ++ b)) (s, some [])
      match bs with
      | none => s.entryFault k st q { cause := cDATAERR, err := 1 }
      | some bs =>
        (s.upCtx k fun c => { c with rq := c.rq.set key (c.rq.get key [] ++ [⟨bs.length, BitVec.ofNat 16384 (leNat bs)⟩]) }).entryDone k st q.id

/-- `qpop`: the head entry of an operand queue into tile rows (R402, R159). -/
def State.workPop (s : State) (k : Nat) (st : Strm) (q : QEntry) (h qn : Nat) : State :=
  let first := (q.offs.getD 0 0).toNat
  let cnt := (q.offs.getD 1 0).toNat
  let key := 2 * kindOf st + qn
  match s.tileOf k h, (s.ctx k).oq.get key [] with
  | none, _ => s.entryFault k st q (tileFault 0 h first)
  | some _, [] => s
  | some t, it :: rest =>
    if it.len ≠ cnt * t.rb then s.entryFault k st q { cause := cSTREAM }
    else if !t.covers first cnt t.rb then s.entryFault k st q (tileFault 0 h (t.firstBad first t.rb))
    else
      let s := s.tileRows k st 0 h first 0 (chunks cnt t.rb (bytesOf it.data.toNat it.len))
      (s.upCtx k fun c => { c with oq := c.oq.set key rest }).entryDone k st q.id

/-- CSR words and `sigc`, at the head of the queue: reads into an offset register, a write of ASTAT, a commit point (R309, R312). -/
def State.workCsr (s : State) (k : Nat) (st : Strm) (q : QEntry) (i : Instr) : State :=
  if !((s.ctx k).ahead st q.id).isEmpty then s
  else match i with
    | .csrr reg n => (s.upCtx k fun c => c.writeO st reg (BitVec.ofNat 32 (s.csr k st n))).entryDone k st q.id
    | .csrw _ _ => (s.upMat k fun x => x.writeAstat (q.offs.getD 0 0).toNat).entryDone k st q.id
    | .csrwi _ imm => (s.upMat k fun x => x.writeAstat imm).entryDone k st q.id
    | _ =>
      if (s.ctx k).team.pclass ≠ 2 then s.entryDone k st q.id
      else if !s.epochsFree k st then s
      else (s.seal k st).entryDone k st q.id

/-- A drain reads elements `p` of its accumulator or pair through the code of the register file (R121). -/
def State.readAcc (s : State) (k : Nat) (q : QEntry) (acc : Nat) (p : Nat → Nat → Bool) (go : State → State) : State :=
  s.withRegs k .m (accWords (accPair acc (decide ((s.ctx k).mat.tag acc = 2))) p) (fun s => s.entryFault k .m q { cause := cDATAERR, err := 1 }) go

/-- What an entry of the matrix queue does when its turn has come. -/
def State.workM (s : State) (k : Nat) (q : QEntry) : State :=
  match q.now .m with
  | none => s.entryFault k .m q { cause := cILLEGAL }
  | some i =>
    match i with
    | .mzero acc pair => (s.clearAcc k acc pair).entryDone k .m q.id
    | .astc acc => (s.upMat k fun x => x.clearFlags acc).entryDone k .m q.id
    | .mma acc _ _ z _ | .mmaRange acc _ _ _ _ z _ => s.workMma k q i acc z
    | .mdrain _ acc _ rnd glob cls =>
      let d := descOf q.d1
      s.readAcc k q acc (fun m n => decide (q.cpos ≤ m) && decide (m ≤ d.e1) && decide (n ≤ d.e0)) fun s => s.workDrain k q acc rnd glob cls
    | .mdraint h acc _ rnd fmt cls => s.readAcc k q acc (fun _ _ => true) fun s => s.workDrainT k q h acc rnd fmt cls
    | .mld acc h _ cls => s.workMld k q acc h cls
    | .wq _ _ _ _ cls => s.workWq k q cls
    | .qpop h _ qn => s.workPop k .m q h qn
    | .qpush h _ qn => s.workPush k .m q h qn
    | _ =>
      match offsetResult i q.offs with
      | some (d, v) => (s.upCtx k fun c => c.writeO .m d v).entryDone k .m q.id
      | none => s.workCsr k .m q i

end Sys2Proof.Machine
end

