-- ==== Sys2Proof/Machine/Copy.lean ====
section
/-!
DEFINITION. Sys2Proof/Machine/Copy.lean: what the entries of the copy queue do (R400 to R409): rows, committed bytes, byte barriers,
signals, prefetches and remote copies.
-/

namespace Sys2Proof.Machine

/-- One side of a copy (R403): a tensor, a tile, a tensor in the weight window, or a tensor on a remote module. -/
inductive Side where
  | tensor (d : Desc)
  | tile (h : Nat)
  | weight (d : Desc)
  | remote (d : Desc)

/-- A copy by its parts: source, destination, class, store kind, signal descriptor. -/
structure CopyPlan where
  src : Side
  dst : Side
  cls : Nat
  glob : Bool := false
  sig : Option Nat := none

/-- The copy that an instruction of the copy stream makes, from its sampled descriptors (Table 17-4). -/
def QEntry.copyPlan (q : QEntry) (i : Instr) : Option CopyPlan :=
  let a := descOf q.d1
  let b := descOf q.d2
  match i with
  | .cpyTensorTile h _ _ _ _ cls => some { src := .tensor a, dst := .tile h, cls := cls }
  | .cpyTileTensor _ h _ glob _ _ cls => some { src := .tile h, dst := .tensor a, cls := cls, glob := glob }
  | .cpyTensorTensor _ _ _ glob _ _ cls => some { src := .tensor b, dst := .tensor a, cls := cls, glob := glob }
  | .cpyTileTile hd hs _ cls => some { src := .tile hs, dst := .tile hd, cls := cls }
  | .cpys _ _ _ _ cls => some { src := .tensor b, dst := .tensor a, cls := cls, sig := some (descOf q.d3).base }
  | .wld _ _ _ cls => some { src := .tensor b, dst := .weight a, cls := cls }
  | .rput _ _ _ _ _ cls => some { src := .tensor b, dst := .remote a, cls := cls }
  | .rget _ _ _ _ _ cls => some { src := .remote b, dst := .tensor a, cls := cls }
  | _ => none

/-- The tensor of a side. -/
def Side.desc? (x : Side) : Option Desc :=
  match x with
  | .tensor d | .weight d | .remote d => some d
  | .tile _ => none

/-- Row bytes of a tensor side; with its scale bytes for the weight window (R400, R403). -/
def rowBytesOf (scales : Bool) (d : Desc) : Nat :=
  rowSpan d.fmt (d.e0 + 1) + if scales then scaleSpan d.fmt (d.e0 + 1) else 0

/-- Whether a copy moves MX scale bytes: `wld` alone (R403). -/
def CopyPlan.scales (p : CopyPlan) : Bool := match p.dst with | .weight _ => true | _ => false

/-- Bytes that one row of a copy moves (R403). -/
def State.copyWidth (s : State) (k : Nat) (p : CopyPlan) : Nat :=
  match p.src.desc?, p.dst.desc? with
  | some d, _ => rowBytesOf p.scales d
  | none, some d => rowBytesOf false d
  | none, none => match p.src with
    | .tile h => match s.tileOf k h with | some t => t.rb | none => 0
    | _ => 0

/-- Addresses of the bytes off … n - 1 of a row of a tensor, the row's scale bytes after its element bytes. -/
def Desc.rowVas (d : Desc) (q off n : Nat) : List Nat :=
  let e := rowSpan d.fmt (d.e0 + 1)
  ((List.range n).filter (off ≤ ·)).map fun i => if i < e then d.rowAddr q + i else d.scaleAddr q + (i - e)

/-- A remote connection (Table 17-5). -/
def State.conn (s : State) (vf n : Nat) : Conn17 := ((s.vfs.get vf {}).conns).get n {}

/-- The fault of a side at the start of a copy (R404): DESC and TILE conditions. -/
def State.sideFault (s : State) (k : Nat) (p : CopyPlan) (x : Side) (width first cnt : Nat) : Option FaultRec :=
  let desc : Option FaultRec := some { cause := cDESC }
  let vf := (s.ctx k).vf
  match x with
  | .tensor d => if d.bad || decide (d.rows < first + cnt) || rowBytesOf p.scales d != width then desc else none
  | .weight d =>
    if d.bad || !d.mx || decide (d.rows < first + cnt) || rowBytesOf true d != width || !s.inWindow vf d first cnt then desc else none
  | .remote d =>
    if d.bad || decide (d.rows < first + cnt) || rowBytesOf false d != width || !(s.conn vf (d.base / 2 ^ 48)).w0.getLsbD 31
    then desc else none
  | .tile h => match s.tileOf k h with
    | none => some (tileFault 0 h first)
    | some t => if t.covers first cnt width then none else some (tileFault 0 h (t.firstBad first width))

/-- Whether the formats of a `wld` are equal MX formats with equal E0 (R400). -/
def CopyPlan.wldFits (p : CopyPlan) : Bool :=
  match p.src, p.dst with
  | .tensor a, .weight b => a.fmt == b.fmt && a.e0 == b.e0
  | _, _ => true

/-- The precise fault of a copy at its start, DESC before TILE before ALIGN (R404, R407; notes/assumptions/25.md). -/
def State.copyFault (s : State) (k : Nat) (p : CopyPlan) (width first cnt : Nat) : Option FaultRec :=
  let a := s.sideFault k p p.dst width first cnt
  let b := s.sideFault k p p.src width first cnt
  let isDesc := fun (f : Option FaultRec) => match f with | some r => r.cause == cDESC | none => false
  if !p.wldFits || isDesc a || isDesc b then some { cause := cDESC }
  else match a, b, p.sig with
    | some f, _, _ => some f
    | none, some f, _ => some f
    | none, none, some g => if g % 8 ≠ 0 then some { cause := cALIGN, fva := g } else none
    | none, none, none => none

/-- Destination bytes of a copy word (R107). -/
def CopyPlan.signDest (p : CopyPlan) (first : Nat) : List Byte :=
  match p.dst with
  | .tensor d => bytesOf (d.rowAddr first) 8
  | .weight d => bytesOf (d.rowAddr first) 8
  | .remote d => bytesOf d.base 8
  | .tile h => signPlace h first

/-- Bytes performed at the destination, not yet committed; the row is behind. -/
def QEntry.wrote (q : QEntry) (n : Nat) : QEntry :=
  { q with perf := q.perf + n, row := q.row + 1, busy := false, bufOk := false, buf := [] }

/-- Writes the row that an entry has read to its destination (R403, R405). -/
def State.copyWrite (s : State) (k : Nat) (q : QEntry) (p : CopyPlan) (first width : Nat) : State :=
  let off := q.cpos % width
  let off := if q.row = q.cpos / width then off else 0
  let bs := q.buf.map Prod.snd
  let row := first + q.row
  let cls := p.cls
  match p.dst with
  | .tensor d =>
    s.entryStores k .y q cls (if p.glob then .global else .early) [⟨d.rowVas row off width, bs, bs⟩] fun _ e => { e with bufOk := false, buf := [] }
  | .tile h =>
    if !(s.strm k .y).classIdle cls then s
    else
      let s := s.signBytes k .y bs
      (s.tileRows k .y cls h row off [bs]).upEntry k .y q.id fun e => e.wrote bs.length
  | .weight d =>
    let s := s.signBytes k .y bs
    let die := dieOf k
    if !s.isLive (16 + die) then
      -- the weight die has left: a write error of code 2 (R47, R50)
      (s.upStrm k .y fun x => { x with werr := x.werr ++ [⟨cls, 2, d.rowAddr row⟩] }).upEntry k .y q.id fun e => e.wrote bs.length
    else
      let base := die * 2 ^ 28 + (s.weightWin (s.ctx k).vf).1
      let w := ((d.rowVas row off width).zip bs).foldl (fun m ab => memPut 0 m (base + ab.1) ab.2) s.mem.weight
      ({ s with mem := { s.mem with weight := w } }).upEntry k .y q.id fun e => e.wrote bs.length
  | .remote d =>
    if (s.ctx k).team.pclass = 2 then
      let a := newAccess s.ord.nextId cls .remote (groupParts (((d.rowVas row off width).zip bs))) .none (d.rowAddr row) q.pc 0 0
      match s.holdEach k .y [({ a with rob := 0 }, bs)] with
      | (_, 0) => s
      | (s, _) => s.freshId.upEntry k .y q.id fun e => e.wrote bs.length
    else
      -- accepted by L0; the far end acknowledges it later (R409)
      let id := s.ord.nextId
      (s.freshId.upStrm k .y fun x => { x with outR := x.outR ++ [⟨id, cls, d.rowAddr row, dieOf k⟩] }).upEntry k .y q.id fun e => e.wrote bs.length

/-- Reads a row of the source (R403). -/
def State.copyRead (s : State) (k : Nat) (q : QEntry) (p : CopyPlan) (first width : Nat) : State :=
  let off := q.cpos % width
  let off := if q.row = q.cpos / width then off else 0
  let row := first + q.row
  let put := fun (s : State) (bs : List Byte) => s.upEntry k .y q.id fun e => e.fetched .y (bs.map fun b => (0, b))
  match p.src with
  | .tensor d => s.entryFetch k .y q p.cls (d.rowVas row off width)
  | .tile h => match s.tileOf k h with
    | none => s.entryFault k .y q (tileFault 0 h row)
    | some t =>
      if !(s.strm k .y).classIdle p.cls then s
      else
        let (s, r) := s.tileRead k .y h t row off (width - off)
        match r with
        | none => s.entryFault k .y q { cause := cDATAERR, err := 1 }
        | some bs => put s bs
  | .remote _ =>
    let id := s.ord.nextId
    let code := Config.remoteCode id
    if code = 4 ∨ code = 5 then s.freshId.entryFault k .y q { cause := cDATAERR, err := code }
    else put s.freshId ((List.range (width - off)).map (Config.remoteByte id))
  | .weight _ => s

/-- The signal of a `cpys`: an atomic add of 1 once the payload is performed at module scope, or its record in class 2 (R187, R407). -/
def State.copySignal (s : State) (k : Nat) (q : QEntry) (cls base : Nat) : State :=
  let x := s.strm k .y
  match s.chkBytes k 2 ((List.range 8).map (base + ·)) with
  | .miss v => s.queueMiss k 2 v
  | .bad t l v => s.entryFault k .y q { cause := cXLATE, tkind := t, level := l, fva := v }
  | .ok locs e =>
    let a := { newAccess s.ord.nextId cls (.amo 0 1 0) (groupParts (withBytes locs 1)) (.entry q.id) base q.pc e
      (s.cycle (dieOf k)).toNat with rob := 0 }
    if (s.ctx k).team.pclass = 2 then
      match s.holdEach k .y [({ a with sink := .none }, bytesOf base 8 ++ bytesOf 1 8)] with
      | (_, 0) => s
      | (s, _) => s.freshId.upEntry k .y q.id fun e => { e with sigOut := true, busy := false, row := e.row + 1 }
    else if x.outE.any fun o => o.cls == cls then s
    else ((s.pushAccs k .y [a]).freshId).upEntry k .y q.id fun e => { e with sigOut := true, busy := true }

/-- A copy at its turn: its checks, then its rows one after another, then its signal, until every byte has committed (R403 to R407). -/
def State.workCopy (s : State) (k : Nat) (q : QEntry) (p : CopyPlan) : State :=
  let first := (q.offs.getD 0 0).toNat
  let cnt := (q.offs.getD 1 0).toNat
  let width := s.copyWidth k p
  if cnt = 0 then s.entryDone k .y q.id
  else if q.busy then s
  else if !q.begun then
    match s.copyFault k p width first cnt with
    | some f => s.entryFault k .y q f
    | none =>
      let s := if q.cpos = 0 then s.signBytes k .y (p.signDest first ++ bytesOf (cnt * width) 8) else s
      s.upEntry k .y q.id fun e => { e with begun := true, row := e.cpos / width }
  else if q.bufOk then s.copyWrite k q p first width
  else if q.row < cnt then s.copyRead k q p first width
  else if q.perf ≠ 0 then s
  else match p.sig with
    | none => s.entryDone k .y q.id
    | some g => if q.sigOut then s.entryDone k .y q.id else s.copySignal k q p.cls g

/-- Commits one byte of the first copy that has a performed byte: CPOS advances, and a counted barrier falls by 1 (R405, R406). -/
def State.commitByte (s : State) (k : Nat) : State :=
  match (s.ctx k).cpy.queue.find? (fun q => !q.done && decide (0 < q.perf)) with
  | none => s
  | some q =>
    s.commitBytes k q 1

/-- `cpf`: asks for the fills of the lines of its rows; a failed check drops what it affects, so rows beyond the tensor alone (R408). -/
def State.workCpf (s : State) (k : Nat) (q : QEntry) (cls : Nat) : State :=
  let d := descOf q.d1
  let first := (q.offs.getD 0 0).toNat
  let cnt := (q.offs.getD 1 0).toNat
  if d.bad then s.entryDone k .y q.id
  else
    let vas := (List.range (Nat.min cnt (d.rows - first))).flatMap fun r => d.rowVas (first + r) 0 (rowSpan d.fmt (d.e0 + 1))
    let lines := (vas.map fun a => a / 64 * 64).eraseDups
    match lines.find? (fun a => match s.chkBytes k 0 [a] with | .miss _ => true | _ => false) with
    | some a => s.queueMiss k 0 a
    | none =>
      let s := lines.foldl (fun s a => match s.chkBytes k 0 ((List.range 64).map (a + ·)) with
        | .ok locs 0 =>
          let acc := { newAccess s.ord.nextId cls .prefetch (readParts locs) .none a q.pc 0 (s.cycle (dieOf k)).toNat with rob := 0 }
          (s.pushAccs k .y [acc]).freshId
        | .bad _ _ v => (s.takeXlate k { cause := cXLATE, fva := v }).1
        | _ => s) s
      s.entryDone k .y q.id

/-- What an entry of the copy queue does when its turn has come. -/
def State.workY (s : State) (k : Nat) (q : QEntry) : State :=
  match q.now .y with
  | none => s.entryFault k .y q { cause := cILLEGAL }
  | some i =>
    match q.copyPlan i with
    | some p => s.workCopy k q p
    | none =>
      match i with
      | .cpf _ _ cls => s.workCpf k q cls
      | .barm _ bar =>
        (s.upCtx k fun c => { c with cpy := { c.cpy with bar := c.cpy.bar.set bar (c.cpy.bar.get bar 0 + q.offs.getD 0 0) } }).entryDone k .y q.id
      | .bwait bar => if ((s.ctx k).cpy.bar.get bar 0).toInt ≤ 0 then s.entryDone k .y q.id else s
      | .qpop h _ qn => s.workPop k .y q h qn
      | .qpush h _ qn => s.workPush k .y q h qn
      | _ =>
        match offsetResult i q.offs with
        | some (d, v) => (s.upCtx k fun c => c.writeO .y d v).entryDone k .y q.id
        | none => s.workCsr k .y q i

end Sys2Proof.Machine
end

