-- ==== Sys2Proof/Machine/Engine.lean ====
section
/-!
DEFINITION. Sys2Proof/Machine/Engine.lean: the work of the matrix and copy engines on their queues (R146, R147, R307), and the
instructions that enter them (R390 to R409).
-/

namespace Sys2Proof.Machine

/-- Ordering class in which an instruction accesses memory or tiles that other contexts see: level-0 tiles are no such (R169, R410). -/
def memClass (i : Instr) : Option Nat :=
  match i with
  | .mdraint .. | .mld .. | .cpyTileTile .. => if (handlesOf i).any fun h => tileLevel h != 0 then some (classOf i) else none
  | .mma .. | .mmaRange .. | .mdrain .. | .wq .. | .cpyTensorTile .. | .cpyTileTensor .. | .cpyTensorTensor .. | .cpys .. | .cpf .. | .wld ..
  | .rput .. | .rget .. => some (classOf i)
  | _ => none

/-- Whether an entry stands in the way of a later one: they conflict (R146), or the later one's accesses follow in the same class (R169); in
class 2 the engine works in issue order (R107). -/
def Ctx.bars (c : Ctx) (st : Strm) (e q : QEntry) : Bool :=
  decide (c.team.pclass = 2) || e.conflicts q st c.mat || ((memClass e.instr).isSome && memClass e.instr == memClass q.instr)

/-- Whether an entry may work: it has entered, and has begun, or nothing ahead stands in its way and nothing behind that has begun conflicts
with its iteration (R146, R147, R307; notes/assumptions/31.md). -/
def Ctx.mayWork (c : Ctx) (st : Strm) (q : QEntry) : Bool :=
  q.entered && !q.done && !q.discarded && !q.faulted &&
    (q.begun || ((c.ahead st q.id).all fun e => e.done || !c.bars st e q) &&
      (((c.queue st).dropWhile fun l => l.id != q.id).drop 1).all fun l => !l.begun || l.done || !q.conflicts l st c.mat)

/-- One piece of work of an entry: a prefix decided, the range checker entered, or what its instruction does. -/
def State.pumpEntry (s : State) (k : Nat) (st : Strm) (id : Nat) : State :=
  match (s.ctx k).entry st id with
  | none => s
  | some q =>
    if q.done then s
    else if !q.ready then
      (if ((s.ctx k).ahead st id).all fun e => e.done || e.entered then s.decideEntry k st q else s)
    else if !q.entered then s.enterEntry k st q
    else if !q.sampled st then s.sampleEntry k st q
    else if (s.ctx k).mayWork st q then (if st = .m then s.workM k q else s.workY k q)
    else s

/-- Work of one entry for up to `n` pieces. -/
def State.pumpFor (s : State) (k : Nat) (st : Strm) (id n : Nat) : State :=
  match n with
  | 0 => s
  | n + 1 => (s.pumpEntry k st id).pumpFor k st id n

/-- The engine goes on with its queue, in order. A stream that has faulted takes up nothing (R239); one that is asked to stop only ends
the instructions it has begun, the long-running ones apart (Table 11-3). -/
def State.pump (s : State) (k : Nat) (st : Strm) : State :=
  let x := s.strm k st
  let q := if x.faulted then []
    else if x.stopReq then ((s.ctx k).queue st).filter fun q => q.begun && !longRunning q.instr
    else (s.ctx k).queue st
  (q.map QEntry.id).foldl (fun s id => s.pumpFor k st id 4) s

/-- The executing instruction enters its engine's queue, and the engine goes on. -/
def State.queueUp (s : State) (i : Instr) : State := (s.enqueue i).pump s.cur.ctx s.cur.st

/-- MZERO: Clears an accumulator or pair to +0. It enters the queue of its engine (R390, R146). -/
def execMzero (acc : Nat) (pair : Bool) (s : State) : Out :=
  .next (s.queueUp (.mzero acc pair))

/-- ASTC: Clears an accumulator's sticky flags. It enters the queue of its engine (R390, R146). -/
def execAstc (acc : Nat) (s : State) : Out :=
  .next (s.queueUp (.astc acc))

/-- MMA: Multiplies two tensors into an accumulator over the whole K range. It enters the queue of its engine (R391, R146). -/
def execMma (acc da db : Nat) (z : Bool) (cls : Nat) (s : State) : Out :=
  .next (s.queueUp (.mma acc da db z cls))

/-- MMA_RANGE: Multiplies over count K-steps starting from a given K-step. It enters the queue of its engine (R391, R146). -/
def execMmaRange (acc da db os oc : Nat) (z : Bool) (cls : Nat) (s : State) : Out :=
  .next (s.queueUp (.mmaRange acc da db os oc z cls))

/-- MDRAIN: Converts an accumulator into tensor rows with bounds. It enters the queue of its engine (R394, R146). -/
def execMdrain (dn acc ro rnd : Nat) (glob : Bool) (cls : Nat) (s : State) : Out :=
  .next (s.queueUp (.mdrain dn acc ro rnd glob cls))

/-- MDRAINT: Converts an accumulator into 128 tile rows. It enters the queue of its engine (R396, R146). -/
def execMdraint (h acc ro rnd fmt cls : Nat) (s : State) : Out :=
  .next (s.queueUp (.mdraint h acc ro rnd fmt cls))

/-- MLD: Loads 128 tile rows into an accumulator bit for bit. It enters the queue of its engine (R397, R146). -/
def execMld (acc h ro cls : Nat) (s : State) : Out :=
  .next (s.queueUp (.mld acc h ro cls))

/-- WQ: Sends query rows to the weight die and receives FP32 partial sums. It enters the queue of its engine (R399, R146). -/
def execWq (acc dq dw os cls : Nat) (s : State) : Out :=
  .next (s.queueUp (.wq acc dq dw os cls))

/-- OADD: Offset add mod 2^32 (matrix and copy streams). It enters the queue of its engine (R401, R146). -/
def execOadd (od oa ob : Nat) (s : State) : Out :=
  .next (s.queueUp (.oadd od oa ob))

/-- OSUB: Offset subtract. It enters the queue of its engine (R401, R146). -/
def execOsub (od oa ob : Nat) (s : State) : Out :=
  .next (s.queueUp (.osub od oa ob))

/-- OMUL: Offset multiply. It enters the queue of its engine (R401, R146). -/
def execOmul (od oa ob : Nat) (s : State) : Out :=
  .next (s.queueUp (.omul od oa ob))

/-- OAND: Offset bitwise and. It enters the queue of its engine (R401, R146). -/
def execOand (od oa ob : Nat) (s : State) : Out :=
  .next (s.queueUp (.oand od oa ob))

/-- OSHL: Offset shift left. It enters the queue of its engine (R401, R146). -/
def execOshl (od oa ob : Nat) (s : State) : Out :=
  .next (s.queueUp (.oshl od oa ob))

/-- OSHR: Offset logical shift right. It enters the queue of its engine (R401, R146). -/
def execOshr (od oa ob : Nat) (s : State) : Out :=
  .next (s.queueUp (.oshr od oa ob))

/-- OMIN: Offset signed minimum. It enters the queue of its engine (R401, R146). -/
def execOmin (od oa ob : Nat) (s : State) : Out :=
  .next (s.queueUp (.omin od oa ob))

/-- OMAX: Offset signed maximum. It enters the queue of its engine (R401, R146). -/
def execOmax (od oa ob : Nat) (s : State) : Out :=
  .next (s.queueUp (.omax od oa ob))

/-- OADDI: Adds a signed 18-bit immediate to an offset. It enters the queue of its engine (R401, R146). -/
def execOaddi (od oa : Nat) (imm : Int) (s : State) : Out :=
  .next (s.queueUp (.oaddi od oa imm))

/-- OLI: Loads a sign-extended 22-bit immediate into an offset. It enters the queue of its engine (R401, R146). -/
def execOli (od : Nat) (imm : Int) (s : State) : Out :=
  .next (s.queueUp (.oli od imm))

/-- QPOP: Pops an operand-queue entry into tile rows. It enters the queue of its engine (R402, R146). -/
def execQpop (h pr qn : Nat) (s : State) : Out :=
  .next (s.queueUp (.qpop h pr qn))

/-- QPUSH: Pushes tile rows as one result-queue entry. It enters the queue of its engine (R402, R146). -/
def execQpush (h pr qn : Nat) (s : State) : Out :=
  .next (s.queueUp (.qpush h pr qn))

/-- BARM: Adds an offset's value to a byte barrier. It enters the queue of its engine (R406, R146). -/
def execBarm (ro bar : Nat) (s : State) : Out :=
  .next (s.queueUp (.barm ro bar))

/-- BWAIT: Retires when the barrier count is at most 0. It enters the queue of its engine (R406, R146). -/
def execBwait (bar : Nat) (s : State) : Out :=
  .next (s.queueUp (.bwait bar))

/-- CPY_TENSOR_TILE: Copies tensor rows into tile rows, optionally counted. It enters the queue of its engine (R403, R146). -/
def execCpyTensorTile (h dn pr : Nat) (cnt : Bool) (bar cls : Nat) (s : State) : Out :=
  .next (s.queueUp (.cpyTensorTile h dn pr cnt bar cls))

/-- CPY_TILE_TENSOR: Copies tile rows into tensor rows with early or global stores. It enters the queue of its engine (R403, R146). -/
def execCpyTileTensor (dn h pr : Nat) (glob cnt : Bool) (bar cls : Nat) (s : State) : Out :=
  .next (s.queueUp (.cpyTileTensor dn h pr glob cnt bar cls))

/-- CPY_TENSOR_TENSOR: Copies tensor rows to tensor rows. It enters the queue of its engine (R403, R146). -/
def execCpyTensorTensor (dd ds pr : Nat) (glob cnt : Bool) (bar cls : Nat) (s : State) : Out :=
  .next (s.queueUp (.cpyTensorTensor dd ds pr glob cnt bar cls))

/-- CPY_TILE_TILE: Copies tile rows to tile rows. It enters the queue of its engine (R403, R146). -/
def execCpyTileTile (hd hs pr cls : Nat) (s : State) : Out :=
  .next (s.queueUp (.cpyTileTile hd hs pr cls))

/-- CPYS: Copies rows, then atomically adds 1 to a signal word after the payload is performed at module scope. It enters the queue of its engine (R407, R146). -/
def execCpys (dd ds pr dg cls : Nat) (s : State) : Out :=
  .next (s.queueUp (.cpys dd ds pr dg cls))

/-- CPF: Issues fills for the lines of the named rows. It enters the queue of its engine (R408, R146). -/
def execCpf (dn pr cls : Nat) (s : State) : Out :=
  .next (s.queueUp (.cpf dn pr cls))

/-- WLD: Copies MX rows and scales into the weight window. It enters the queue of its engine (R400, R146). -/
def execWld (dw ds pr cls : Nat) (s : State) : Out :=
  .next (s.queueUp (.wld dw ds pr cls))

/-- RPUT: Copies a local tensor to a remote module over RoCE. It enters the queue of its engine (R409, R146). -/
def execRput (dd ds pr : Nat) (cnt : Bool) (bar cls : Nat) (s : State) : Out :=
  .next (s.queueUp (.rput dd ds pr cnt bar cls))

/-- RGET: Copies a remote tensor into a local tensor. It enters the queue of its engine (R409, R146). -/
def execRget (dd ds pr : Nat) (cnt : Bool) (bar cls : Nat) (s : State) : Out :=
  .next (s.queueUp (.rget dd ds pr cnt bar cls))

end Sys2Proof.Machine
end

