-- ==== Sys2Proof/Machine/Host.lean ====
section
/-!
DEFINITION. Sys2Proof/Machine/Host.lean: what the host port's events share: MSI-X messages (R69) and
partitions' use of cores (R56).
-/

namespace Sys2Proof.Machine

/-! ### MSI-X (R51, R69) -/

/-- Number of a function in the interrupt tables: virtual functions by number, the physical function 512. -/
def fnIx (fn : Fn) : Nat :=
  match fn with
  | .pf => 512
  | .vf n => n

/-- VECN of a partition (Table 3-5). -/
def State.vecn (s : State) (vf : Nat) : Nat := fld (s.pctl vf).w1.toNat 0 12

/-- Entries of a function that may send: 16 of the physical function, VECN of a partition (R69). -/
def State.vectors (s : State) (fn : Fn) : Nat :=
  match fn with
  | .pf => 16
  | .vf n => s.vecn n

/-- Sends a message on an interrupt entry, or sets its pending bit when it is masked (masked at reset, as PCI Express has it: PRESUMED,
notes/assumptions/33.md); an entry beyond those granted never sends (R69). -/
def State.sendMsix (s : State) (fn : Fn) (e : Nat) : State :=
  let k := 16 * fnIx fn + e
  if s.vectors fn ≤ e then s
  else if s.pf.msixMask.get k true then { s with pf := { s.pf with msixPend := s.pf.msixPend.set k true } }
  else { s with pf := { s.pf with msixOut := (fn, e) :: s.pf.msixOut } }

/-- Sets an entry's mask; a pending message goes out when the mask is cleared. -/
def State.maskMsix (s : State) (fn : Fn) (e : Nat) (mask : Bool) : State :=
  let k := 16 * fnIx fn + e
  let s := { s with pf := { s.pf with msixMask := s.pf.msixMask.set k mask } }
  if !mask && s.pf.msixPend.get k false then
    { s with pf := { s.pf with msixPend := s.pf.msixPend.set k false } }.sendMsix fn e
  else s

/-- A write of a word of a function's MSI-X table, at an offset of its window (Table 3-1): address, data, or vector control. -/
def State.msixWrite (s : State) (fn : Fn) (off : Nat) (v : BitVec 32) : State :=
  let n := (off - 0x8000) / 16
  if off % 4 ≠ 0 then s
  else if off % 16 = 12 then s.maskMsix fn n (v.getLsbD 0)
  else { s with pf := { s.pf with msixTab := s.pf.msixTab.set (4 * (16 * fnIx fn + n) + off % 16 / 4) v } }

/-! ### Use of cores (R56) -/

/-- Whether an ownership entry gives its engine to a partition, alone or through a pool. -/
def State.entryFor (s : State) (vf e : Nat) : Bool :=
  match fld e 30 2 with
  | 1 => fld e 0 9 == vf
  | 2 => bit (s.pctl vf).w0.toNat 28 && fld (s.pctl vf).w0.toNat 24 4 == fld e 9 4
  | _ => false

/-- Partitions that any ownership entry or pool membership can name. -/
def State.someVfs (s : State) : List Nat :=
  ((s.pf.own.map fun o => fld o.2.toNat 0 9) ++ s.pf.pctl.map Prod.fst).eraseDups

/-- The partitions that use a core (R56). -/
def State.usersOf (s : State) (core : Nat) : List Nat :=
  s.someVfs.filter fun vf => (List.range 3).any fun kind => s.entryFor vf (s.pf.own.get (3 * core + kind) 0).toNat

/-- Whether a core is used by five partitions or more. -/
def State.overused (s : State) : Bool :=
  ((s.pf.own.map fun o => o.1 / 3).eraseDups).any fun core => decide (4 < (s.usersOf core).length)

/-- Gives every partition that uses a core one of its four sequencer contexts, and frees those of the others (R56, R134). A context
that runs keeps its partition until it is free. -/
def State.assignCtxs (s : State) (core : Nat) : State :=
  let users := s.usersOf core
  let held := (List.range 4).filterMap fun c =>
    match s.pf.coreCtx.find? (fun e => e.1 == 4 * core + c) with
    | some (_, vf) => if users.contains vf || (s.ctx (4 * core + c)).live then some (c, vf) else none
    | none => none
  let t := (List.range 4).foldl (fun (t : AMap Nat) c => t.del (4 * core + c)) s.pf.coreCtx
  let t := held.foldl (fun (t : AMap Nat) h => t.set (4 * core + h.1) h.2) t
  let t := (users.filter fun vf => !(held.any fun h => h.2 == vf)).foldl (fun (t : AMap Nat) vf =>
    match (List.range 4).find? (fun c => !t.has (4 * core + c)) with
    | some c => t.set (4 * core + c) vf
    | none => t) t
  { s with pf := { s.pf with coreCtx := t } }

end Sys2Proof.Machine
end

