-- ==== Sys2Proof/Machine/Order.lean ====
section
/-!
DEFINITION. Sys2Proof/Machine/Order.lean: what the transitions of the ordering machine share (R167 to R189): class-queue heads, bytes of
die views, accesses that perform, leave or fail, the home of a line, and the counters and windows of R40, R73 and R74.
-/

namespace Sys2Proof.Machine

/-! ### Class queues (R167, R169, R178, R113) -/

/-- Whether an access or fence stands in class `cls`. -/
def Access.inClass (a : Access) (cls : Nat) : Bool :=
  match a.kind with
  | .fence mask _ => mask.testBit cls
  | _ => a.cls == cls

/-- Classes of an access or fence. -/
def Access.classes (a : Access) : List Nat :=
  match a.kind with
  | .fence mask _ => (List.range 16).filter mask.testBit
  | _ => [a.cls]

/-- Whether `e`, which stands before `a`, keeps `a` from performing: they share a class, `e` is an acquire (R178), or both are released
records, which perform in held order (R113). -/
def Access.before (e a : Access) : Bool := e.acq || (e.held && a.held) || a.classes.any e.inClass

/-- The first access of class `cls` of a stream that nothing before it keeps from performing. -/
def StreamSt.classHead (x : StreamSt) (cls : Nat) : Option Access :=
  match x.cq.find? (fun a => a.inClass cls) with
  | none => none
  | some a => if (x.cq.takeWhile fun e => decide (e ≠ a)).any fun e => e.before a then none else some a

/-- Replaces an access in its class queue. -/
def State.upAccess (s : State) (k : Nat) (st : Strm) (a b : Access) : State :=
  s.upStrm k st fun x => { x with cq := x.cq.map fun e => if e = a then b else e }

/-- Context and stream of an issuer number. -/
def whoOf (w : Nat) : Nat × Strm := (w / 4, strmOf (w % 4))

/-- Contexts of a die. -/
def dieCtxs (s : State) (die : Nat) : List Nat := (s.ctxs.map Prod.fst).filter fun k => dieOf k == die

/-- Changes every stream of the contexts of a die. -/
def State.upDie (s : State) (die : Nat) (f : StreamSt → StreamSt) : State :=
  (dieCtxs s die).foldl (fun s k => s.upCtx k fun c => allStrms.foldl (fun c st => c.upStrm st f) c) s

/-! ### Propagation (R438) and released records (R112) -/

/-- An access of released records has performed at module scope. -/
def State.epochLeft (s : State) (id : Nat) : State :=
  { s with prot := { s.prot with epochs := s.prot.epochs.map fun p => { p with out := p.out.filter (· ≠ id) } } }

/-- A part of an access of released records is outstanding under its own identifier. -/
def State.epochPart (s : State) (id part : Nat) : State :=
  { s with prot := { s.prot with
      epochs := s.prot.epochs.map fun p => if p.out.contains id then { p with out := part :: p.out } else p } }

/-- Changes every stream that lives in a context, in a save area, or waits for its stores after its end. -/
def State.upStreams (s : State) (f : StreamSt → StreamSt) : State :=
  let g := fun (c : Ctx) => allStrms.foldl (fun (c : Ctx) st => c.upStrm st f) c
  { s with
    ctxs := s.ctxs.map fun e => (e.1, g e.2)
    sched := { s.sched with
      areas := s.sched.areas.map fun e => (e.1, { e.2 with ctx := g e.2.ctx })
      parked := s.sched.parked.map fun e => (e.1, g e.2) } }

/-- Whether a stream, in a context, a save area or after its end, issued early store `id` on a die and has not seen it propagated. -/
def State.issuedOn (s : State) (die id : Nat) : Bool :=
  let has := fun (c : Ctx) => allStrms.any fun st => (c.strm st).outE.any fun o => o.id == id && o.die == die
  (s.ctxs.any fun e => has e.2) || (s.sched.areas.any fun e => has e.2.ctx) || s.sched.parked.any fun e => has e.2

/-- Store `id` is propagated at a die: it leaves the observed sets there, and has performed at module scope for its issuer when that is
the issuing die (Table 7-6). -/
def State.propagate (s : State) (die id : Nat) : State :=
  let mine := s.issuedOn die id
  let s := (s.markProp die id).upDie die fun x => { x with obs := x.obs.filter fun o => o.1 ≠ id }
  if mine then (s.upStreams fun x => { x with outE := x.outE.filter fun o => !(o.id == id && o.die == die) }).epochLeft id else s

/-! ### Bytes of a die view -/

/-- Writes bytes of a view with a writer and a pending identifier, through the code of partly written words (R434); false when one of them
is uncorrectable, which stays. -/
def State.dvWrite (s : State) (die : Nat) (bs : List (Nat × Byte)) (id : Nat) (pend : Option Nat) : State × Bool :=
  let (s, bad) := s.dvMerge die (bs.map Prod.fst)
  if !bad.isEmpty then (s, false)
  else ((bs.foldl (fun s b => s.setDv die b.1 { valid := true, val := b.2, writer := id, pend := pend }) s).dvClean die (bs.map (·.1 / 4)), true)

/-- A home message writes bytes that hold no pending identifier (V1, V4, S5); a partly written word that is uncorrectable stays (R434). -/
def State.dvTake (s : State) (die : Nat) (bs : List (Nat × Byte × Nat)) : State :=
  let bs := bs.filter fun b => (s.dvByte die b.1).pend.isNone
  let (s, bad) := s.dvMerge die (bs.map Prod.fst)
  let bs := bs.filter fun b => !bad.contains (b.1 / 4)
  (bs.foldl (fun s b => s.setDv die b.1 { valid := true, val := b.2.1, writer := b.2.2, pend := none }) s).dvClean die (bs.map (·.1 / 4))

/-- Forgets the check bits of die-cache words of which no byte can be read any more. -/
def State.dvForget (s : State) (die : Nat) (locs : List Nat) : State :=
  s.dvClean die (((locs.map (· / 4)).eraseDups).filter fun w => (List.range 4).all fun i => !(s.dvByte die (4 * w + i)).readable)

/-- Bytes that hold no pending identifier become INVALID (V3, R180, R314). -/
def State.dvDrop (s : State) (die : Nat) (locs : List Nat) : State :=
  let locs := locs.filter fun l => (s.ord.dv.get die []).has l && (s.dvByte die l).pend.isNone
  (locs.foldl (fun s l => s.setDv die l { s.dvByte die l with valid := false }) s).dvForget die locs

/-- Bytes of a line. -/
def lineLocs (line : Nat) : List Nat := (List.range 64).map (64 * line + ·)

/-- Bytes of a line that a view holds with a pending identifier of `p`. -/
def State.pendLocs (s : State) (die line : Nat) (p : Nat → Bool) : List Nat :=
  (lineLocs line).filter fun l => match (s.dvByte die l).pend with | some i => p i | none => false

/-- The pending mark `id` goes from a line (V2). -/
def State.confirm (s : State) (die line id : Nat) : State :=
  (s.pendLocs die line (· == id)).foldl (fun s l => s.setDv die l { s.dvByte die l with pend := none }) s

/-! ### Accesses that leave -/

/-- The access `a` of a stream leaves its class queues; its instruction completes when no other access of it remains. -/
def State.leaveCq (s : State) (k : Nat) (st : Strm) (a : Access) : State :=
  let s := s.upCtx k fun c => { c.upStrm st fun x => { x with cq := x.cq.erase a } with idleFrom := (s.cycle (dieOf k)).toNat }
  let x := s.strm k st
  if a.rob = 0 ∨ (x.cq ++ x.redo.map Prod.fst).any (fun e => e.rob == a.rob) then s else s.complete k st a.rob

/-- A performed part of a copy's store: its bytes wait for their commit (R405). -/
def State.entryPart (s : State) (k : Nat) (st : Strm) (a : Access) (n : Nat) : State :=
  match a.sink with
  | .entry q => if st = .y then s.upEntry k st q fun e => { e with perf := e.perf + n } else s
  | _ => s

/-- An entry's store has left: its row is behind, or its signal is performed, when no other store of the entry remains. -/
def State.entryStored (s : State) (k : Nat) (st : Strm) (a : Access) : State :=
  match a.sink with
  | .entry q =>
    let more := (s.strm k st).cq.any fun e => e.id != a.id && decide (e.sink = .entry q)
    s.upEntry k st q fun e => { e with busy := more, buf := [], row := match a.kind with | .amo .. => e.row | _ => e.row + 1 }
  | _ => s

/-- A write that completed with an error code leaves; the fault comes at the next fence, acquire or `end` (R50). -/
def State.writeFailed (s : State) (k : Nat) (st : Strm) (a : Access) (code : Nat) : State :=
  let s := s.upStrm k st fun x => { x with werr := x.werr ++ [⟨a.cls, code, a.va⟩] }
  let s := match a.sink with
    | .gOld d => s.upCtx k fun c => { c with gpend := c.gpend.filter fun p => decide (p ≠ (d, a.id)) }
    | _ => s
  ((s.entryStored k st a).leaveCq k st a).epochLeft a.id

/-- An access as it was before it read anything. -/
def Access.again (a : Access) : Access :=
  { a with parts := (a.got.foldr (fun g ps => match ps with
      | p :: rest => if p.line = g.1 / 64 then { p with bytes := (g.1, 0) :: p.bytes } :: rest else ⟨g.1 / 64, [(g.1, 0)]⟩ :: p :: rest
      | [] => [⟨g.1 / 64, [(g.1, 0)]⟩]) []) ++ a.parts, got := [] }

/-- The register that an access would write is not pending while the access is set aside. -/
def Ctx.unpend (c : Ctx) (a : Access) : Ctx :=
  match a.sink with
  | .gReg d .. | .gCell d _ | .gOld d => { c with gpend := c.gpend.filter fun p => decide (p ≠ (d, a.id)) }
  | .shape d .. => { c with dpend := c.dpend.filter fun p => decide (p ≠ (d, a.id)) }
  | _ => c

/-- An access as it is set aside: one whose destination an instruction of the shadow has written writes it no more (R437). -/
def Ctx.aside (c : Ctx) (a : Access) : Access :=
  match a.sink with
  | .gReg d .. | .gCell d _ | .gOld d => if c.gpend.contains (d, a.id) ∨ d = 0 then a.again else { a.again with sink := .none }
  | _ => a.again

/-- A read completes with an error code: it is set aside (R437), and its instruction is reported when every earlier one has retired; a read
of an engine entry is the entry's fault (R239). -/
def State.readFailed (s : State) (k : Nat) (st : Strm) (a : Access) (code : Nat) : State :=
  let s := s.upStrm k st fun x => { x with cq := x.cq.erase a }
  match a.kind, a.sink with
  | .prefetch, _ => if a.rob = 0 then s else s.complete k st a.rob
  | _, .entry q =>
    let s := s.upEntry k st q fun e => { e with busy := false, buf := [], bufOk := false }
    (match (s.ctx k).entry st q with
      | some e => s.entryFault k st e { cause := cDATAERR, err := code, fva := a.va }
      | none => s)
  | _, sink =>
    let s := (s.upStrm k st fun x => { x with redo := x.redo ++ [((s.ctx k).aside a, 0)] }).upCtx k fun c => c.unpend a
    let exposed := (s.ctx k).vec.exposed
    match sink with
    | .land tag =>
      if exposed then
        s.upCtx k fun c => { c with vec := { c.vec with
          landing := c.vec.landing.map fun l => if l.tag = tag then { l with err := code, ready := true } else l } }
      else (s.upCtx k fun c => c.complete st a.rob code).reportAside k st
    | _ => (s.upCtx k fun c => c.complete st a.rob code).reportAside k st

/-! ### Reads that have their data -/

/-- Bytes a read returned, as numbers in order. -/
def Access.read (a : Access) : Nat := leNat (a.got.map Prod.snd)

/-- Elements of a pending vector load from the bytes of its access. -/
def Landing.filled (l : Landing) (got : List (Nat × Byte)) : List (Nat × Nat) :=
  l.elems.map fun e => (e.1, leNat (e.2.map fun n => match got.find? (fun g => g.1 == n) with | some g => g.2 | none => 0))

/-- Mask and value of elements of wb bytes in a vector register. -/
def maskOf (wb : Nat) (es : List (Nat × Nat)) : VReg × VReg :=
  let r := es.foldl (fun (a : Nat × Nat) e =>
    (a.1 ||| (2 ^ (8 * wb) - 1) * 2 ^ (8 * wb * e.1), a.2 ||| (e.2 % 2 ^ (8 * wb)) * 2 ^ (8 * wb * e.1))) (0, 0)
  (BitVec.ofNat 16384 r.1, BitVec.ofNat 16384 r.2)

/-- The data of a pending vector load has arrived (R160). -/
def State.landed (s : State) (k : Nat) (a : Access) (tag : Nat) : State :=
  match (s.ctx k).vec.landing.find? (fun l => l.tag == tag) with
  | none => s.leaveCq k .v a
  | some l =>
    let es := l.filled a.got
    let m := maskOf l.wb es
    let s := s.upCtx k fun c => { c with vec := { c.vec with landing := c.vec.landing.map fun x =>
      if x.tag = tag then { x with ready := true, err := 0, writes := [.v l.vd m.1 m.2] } else x } }
    let s := if (s.ctx k).team.pclass = 2 then s.contributed k tag es else s
    if l.slot.isSome then s.leaveCq k .v a else s.upStrm k .v fun x => { x with cq := x.cq.erase a }

/-- What an instruction does when it retires grows by an effect. -/
def StreamSt.addEff (x : StreamSt) (id : Nat) (e : RetEff) : StreamSt :=
  { x with rob := x.rob.map fun r => if r.id = id then { r with eff := r.eff ++ [e] } else r }

/-- A shape register is to receive its entry when its `dld` retires; a CB4 entry goes on with the read of its codebook (R347, R151). -/
def State.shaped (s : State) (k : Nat) (st : Strm) (a : Access) (d entry : Nat) (ext : Bool) : State :=
  let w := (leNat ((a.got.map Prod.snd).take 64))
  let put := fun (s : State) (x : Option (BitVec 256)) =>
    (s.upCtx k fun c =>
      let mine := c.dpend.contains (d, a.id)
      let c := { c with dpend := c.dpend.filter fun p => decide (p ≠ (d, a.id)) }
      if mine then c.upStrm st fun y => y.addEff a.rob (.shape d (BitVec.ofNat 512 w) x) else c).leaveCq k st a
  if ext then put s (some (BitVec.ofNat 256 (leNat ((a.got.map Prod.snd).drop 64))))
  else if fld w 56 4 ≠ 9 then put s none
  else
    let t := (s.ctx k).team
    let va := t.ttab + 64 * (entry + 1)
    if t.ttabn ≤ entry + 1 then s.readFailed k st a descMark
    else match s.chkBytes k 0 ((List.range 32).map (va + ·)) with
      | .miss v => s.queueMiss k 0 v
      | .bad tk l _ => s.readFailed k st { a with va := va } (xlMark + 4 * tk + l)
      | .ok locs e =>
        let ps := (locs.foldr (fun l (ps : List Part) => match ps with
          | p :: rest => if p.line = l / 64 then { p with bytes := (l, 0) :: p.bytes } :: rest else ⟨l / 64, [(l, 0)]⟩ :: p :: rest
          | [] => [⟨l / 64, [(l, 0)]⟩]) [])
        s.upAccess k st a { a with parts := ps, sink := .shape d entry true, err := e }

/-- A read has all its bytes: they go where its sink says, and it leaves. -/
def State.readDone (s : State) (k : Nat) (st : Strm) (a : Access) : State :=
  match a.sink with
  | .gReg d size sx =>
    let v := a.read
    let w := if sx then BitVec.ofInt 64 (if v < 2 ^ (8 * size - 1) then (v : Int) else (v : Int) - 2 ^ (8 * size)) else BitVec.ofNat 64 v
    (s.upCtx k fun c => c.landG d a.id w).leaveCq k st a
  | .gCell d f64 => (s.upCtx k fun c => c.landG d a.id (BitVec.ofNat 64 (cellRead a.read f64))).leaveCq k st a
  | .shape d entry ext => s.shaped k st a d entry ext
  | .jump _ => (s.upStrm k st fun x => { x with mpos := a.read + 1 }).leaveCq k st a
  | .land tag => s.landed k a tag
  | .entry q => (s.upEntry k st q fun e => e.fetched st a.got).leaveCq k st a
  | _ => s.leaveCq k st a

/-! ### Latency windows (R73) -/

/-- Slow reads that a window of 2^win reads allows. -/
def slowAllowed (win pct : Nat) : Nat :=
  match pct with
  | 0 => 2 ^ win / 2
  | 1 => 2 ^ win / 10
  | 2 => 2 ^ win / 100
  | _ => 2 ^ win / 1000

/-- A read of a critical partition has its data: it counts in its die's window, and a missed window signals every memory die (R73); sealed
partitions take no part in this (R60). -/
def State.countRead (s : State) (die vf issued : Nat) : State :=
  let w2 := (s.pctl vf).w2.toNat
  if !bit w2 31 ∨ s.isSealed vf then s
  else
    let win := if 10 ≤ fld w2 24 5 ∧ fld w2 24 5 ≤ 20 then fld w2 24 5 else 14
    let slow := decide (fld w2 0 16 < (s.cycle die).toNat - issued)
    let (n, m) := s.mem.window.get (512 * die + vf) (0, 0)
    let n := n + 1
    let m := if slow then m + 1 else m
    if n < 2 ^ win then { s with mem := { s.mem with window := s.mem.window.set (512 * die + vf) (n, m) } }
    else
      let s := { s with mem := { s.mem with window := s.mem.window.set (512 * die + vf) (0, 0) } }
      if m ≤ slowAllowed win (fld w2 29 2) then s
      else { s with mem := { s.mem with
        missSig := (List.range 4).foldl (fun (t : AMap Nat) d => t.set d (t.get d 0 + 1)) s.mem.missSig } }

/-! ### The home of a line (R33, R40, R74, R171) -/

/-- Whether a message waits behind a HELD line: E, G and F do (R171). -/
def UpMsg.waits (m : UpMsg) : Bool :=
  match m with
  | .e .. | .g .. | .f => true
  | _ => false

/-- The E, G or F at the head of UP(die, line), on its own channel or the escape channel. -/
def State.upHead (s : State) (die line : Nat) : Option Up := s.ord.up.find? fun u => u.die == die && u.line == line && u.msg.waits

/-- Takes a message off its up channel. -/
def State.takeUp (s : State) (u : Up) : State := { s with ord := { s.ord with up := s.ord.up.erase u } }

/-- The message at the head of DN(line, die). -/
def State.dnHead (s : State) (die line : Nat) : Option Dn := s.ord.dn.find? fun d => d.die == die && d.line == line

/-- Takes a message off its down channel. -/
def State.takeDn (s : State) (d : Dn) : State := { s with ord := { s.ord with dn := s.ord.dn.erase d } }

/-- Where the granule of a line is for a message. -/
def State.homeAt (s : State) (u : Up) : HomeRes := s.homeOf u.die u.vf (u.line * 64 / 2 ^ 21)

/-- Whether the granule of a line is between steps 1 and 4 of a migration: writes to it are held (R41, R42). -/
def State.migrating (s : State) (line : Nat) : Bool :=
  s.mem.mig.any fun g => decide (g.2.phase ≠ 0) && g.2.slot == line * 64 / 2 ^ 21

/-- Whether a memory die admits a request of a partition in this cycle: best-effort requests in n of 16 request slots, one slot a cycle;
those of critical and of sealed partitions always (R60, R74; notes/assumptions/104.md). -/
def State.admits (s : State) (m vf : Nat) : Bool :=
  (s.pctl vf).w2.getLsbD 31 || s.isSealed vf || decide ((s.cycle (Config.memDie m)).toNat % 16 < s.mem.rate.get m 16)

/-- The partition that owns the granule of a line, and its home, by L0's copy of the home table. -/
def State.lineVf (s : State) (line : Nat) : Nat := fld (s.mem.home.get (line * 64 / 2 ^ 21) 0).toNat 0 9

/-- See `State.lineVf`. -/
def State.lineHome (s : State) (line : Nat) : Nat := fld (s.mem.home.get (line * 64 / 2 ^ 21) 0).toNat 26 2

/-- Die-cache ways in which a partition may allocate: those of its own mask when it is sealed, else those outside every sealed mask
(R60). -/
def State.waysFor (s : State) (vf : Nat) : List Nat :=
  (List.range 16).filter fun w =>
    if s.isSealed vf then (s.waysOf vf).testBit w else s.sealedVfs.all fun v => !(s.waysOf v).testBit w

/-- A line of a die view takes a way of the die cache, for a partition, unless it has one (R60; notes/assumptions/104.md). -/
def State.allocWay (s : State) (die line vf : Nat) : State :=
  let t := s.ord.ways.get die []
  if t.has line then s
  else
    let ws := s.waysFor vf
    { s with ord := { s.ord with ways := s.ord.ways.set die (t.set line (ws.getD (line / 8192 % ws.length) 0)) } }

/-- Bits of counter q of a stage-2 entry (Table 2-3). -/
def quadCount (t q : Nat) : Nat := fld t (32 + 8 * q) 8

/-- A served request counts for its granule, its memory die and its rate; a granule that reaches the threshold becomes a candidate
(R40, R41, R74). -/
def State.served (s : State) (m slot vf die : Nat) : State :=
  let q := quadOf die
  let t := s.stage2 m slot
  let n := quadCount t q
  let t' := if n = 255 then t else t + 2 ^ (32 + 8 * q)
  let s := s.setStage2 m slot (BitVec.ofNat 64 t')
  let g := s.mem.mig.get m {}
  let cand := s.pf.migEn && decide (q ≠ m) && decide (s.pf.migThr ≤ quadCount t' q) && decide (quadCount t' m < quadCount t' q) &&
    !s.isSealed vf && !(g.cand.any fun c => c.1 == slot) && !(decide (g.phase ≠ 0) && g.slot == slot)
  { s with mem := { s.mem with
      served := s.mem.served.set m (s.mem.served.get m 0 + 1)
      since := s.mem.since.set m (s.mem.since.get m 0 + 1)
      mig := if cand then s.mem.mig.set m { g with cand := g.cand ++ [(slot, q)] } else s.mem.mig } }

/-- Appends a write to CO of its bytes. -/
def State.appendCo (s : State) (bs : List (Nat × Byte)) (id : Nat) : State :=
  { s with ord := { s.ord with co := bs.foldl (fun co b => ⟨b.1, b.2, id⟩ :: co) s.ord.co } }

/-- Last writer of a byte in CO, 0 for none. -/
def State.lastWriter (s : State) (loc : Nat) : Nat :=
  match s.ord.co.find? (fun w => w.loc == loc) with
  | some w => w.writer
  | none => 0

/-- Writes bytes of a granule at its HBM address; an uncorrectable word leaves memory as it was (R434). -/
def State.homeWriteBytes (s : State) (addr : Nat) (bs : List (Nat × Byte)) : State × Bool :=
  let (s', ok) := s.hbmWrite (bs.map fun b => (addr + b.1 % 2 ^ 21, b.2))
  if ok then (s', true) else ({ s' with mem := { s'.mem with hbm := s.mem.hbm, hbmCheck := s.mem.hbmCheck } }, false)

/-- The answer to a request that cannot be performed (R49). -/
def Up.failed (u : Up) (code : Nat) : DnMsg :=
  match u.msg with
  | .e id _ => .err id false true code
  | .g id .. => .err id false false code
  | _ => .err 0 true false code

/-! ### Atomics at the home (R327, R328) -/

/-- New value of an atomic; none when it writes nothing. -/
def amoNew (op : Nat) (old arg expect : Word) : Option Word :=
  match op with
  | 0 => some (old + arg)
  | 1 => some (old &&& arg)
  | 2 => some (old ||| arg)
  | 3 => some (old ^^^ arg)
  | 4 => some (if old.toInt ≤ arg.toInt then old else arg)
  | 5 => some (if old.toInt ≤ arg.toInt then arg else old)
  | 6 => some arg
  | _ => if old = expect then some arg else none

/-- The number a wide-cell add makes of a cell. -/
def waddNew (old : Nat) (f64 : Bool) (val : Word) : Nat :=
  cellAdd old (if f64 then fmtF64.read false val.toNat else fmtF32.read false (val.toNat % 2 ^ 32))

/-- Bytes that a global access leaves at its locations, from the old ones; none when it writes nothing. -/
def newBytes (kind : AccKind) (bs : List (Nat × Byte)) (old : List Byte) : Option (List (Nat × Byte)) :=
  match kind with
  | .amo op arg expect =>
    (amoNew op (BitVec.ofNat 64 (leNat old)) arg expect).map fun v => (bs.map Prod.fst).zip (bytesOf v.toNat 8)
  | .wadd f64 val => some ((bs.map Prod.fst).zip (bytesOf (waddNew (leNat old) f64 val) 32))
  | _ => some bs

/-- Whether an access needs the old value at its home. -/
def AccKind.readsHome (kind : AccKind) : Bool :=
  match kind with
  | .amo .. | .wadd .. => true
  | _ => false

end Sys2Proof.Machine
end

