-- ==== Sys2Proof/Machine/OrderEvents.lean ====
section
/-!
DEFINITION. Sys2Proof/Machine/OrderEvents.lean: the transitions of the ordering machine (Tables 7-2 to 7-4), its error completions
(R49, R436), lost acknowledgements (R180), the pending check (R199) and far-end acknowledgements (R409). An event whose condition does
not hold leaves the module as it is.
-/

namespace Sys2Proof.Machine

/-! ### Reads (S2, S2a) -/

/-- Whether a byte can be read now: VALID or pending, and not pending in a line that waits for KR (S2, R199). -/
def State.canRead (s : State) (die loc : Nat) : Bool :=
  (s.dvByte die loc).readable &&
    !((s.dvByte die loc).pend.isSome && s.ord.kHold.any fun h => h.die == die && h.line == loc / 64)

/-- Reads the bytes of a part from a view: their values, or none when a word is uncorrectable. -/
def State.readPart (s : State) (die : Nat) (bs : List (Nat × Byte)) : State × Option (List (Nat × Byte)) :=
  let (s, vs) := s.dvRead die (bs.map Prod.fst)
  (s, vs.map fun vs => (bs.map Prod.fst).zip vs)

/-- Bytes of the next part that move in a step: all of them when the access is single-copy atomic or `n` names none, else the first `n`
(R168). -/
def Access.moves (a : Access) (p : Part) (n : Nat) : List (Nat × Byte) := if a.single ∨ n = 0 then p.bytes else p.bytes.take n

/-- The parts of an access after `n` bytes of its next part have moved. -/
def Access.rest (a : Access) (n : Nat) : List Part :=
  match a.parts with
  | [] => []
  | p :: ps => if p.bytes.length ≤ n then ps else { p with bytes := p.bytes.drop n } :: ps

/-- Early writers of bytes that are not propagated at the die. -/
def State.writersSeen (s : State) (die : Nat) (bs : List (Nat × Byte)) : List Nat :=
  ((bs.map fun b => (s.dvByte die b.1).writer).filter fun w => !s.propagatedAt die w).eraseDups

/-- An access stays unperformed and its instruction is set aside: an acquire or a fence has a write error or a lost acknowledgement to
report (R50, R181, R240). -/
def State.setAside (s : State) (k : Nat) (st : Strm) (a : Access) : State :=
  let c := s.ctx k
  let mine := (c.strm st).cq.filter fun e => e.rob == a.rob
  let s := (s.upStrm k st fun x =>
    { x with cq := x.cq.filter (fun e => e.rob != a.rob), redo := x.redo ++ mine.map fun e => (c.aside e, 0) }).upCtx k fun c =>
      mine.foldl Ctx.unpend c
  (s.upCtx k fun c => c.complete st a.rob syncMark).reportAside k st

/-- Bytes of a tile read (R378): values of byte indices of the tile, none when a word is uncorrectable. -/
def State.readTile (s : State) (k : Nat) (st : Strm) (h : Nat) (t : Tile) (bs : List (Nat × Byte)) : State × Option (List (Nat × Byte)) :=
  let (s, vs) := s.tileReadAt k st h t (bs.map Prod.fst)
  (s, vs.map fun vs => (bs.map Prod.fst).zip vs)

/-- The next bytes of a read have their values. -/
def State.gotPart (s : State) (k : Nat) (st : Strm) (a : Access) (vs : List (Nat × Byte)) : State :=
  let die := dieOf k
  let seen := s.writersSeen die vs
  let s := s.upStrm k st fun x => { x with obs := x.obs ++ ((seen.map fun w => (w, a.cls)).filter fun o => !x.obs.contains o) }
  let b := { a with parts := a.rest vs.length, got := a.got ++ vs }
  let s := s.upAccess k st a b
  if b.parts.isEmpty then (s.countRead die (s.ctx k).vf a.at_).readDone k st b else s

/-- The read at a class head returns the bytes of its next part, or the first `n` of them where it is not single-copy atomic (R168, R170). A
read with an error code completes with it. -/
def State.readHead (s : State) (ctx : Nat) (st : Strm) (cls n : Nat) : State :=
  let die := dieOf ctx
  match (s.strm ctx st).classHead cls with
    | none => s
    | some a =>
      if a.acq && (s.strm ctx st).syncDue 65535 && (match a.kind with | .read => true | _ => false) then s.setAside ctx st a
      else match a.kind with
      | .read =>
        if a.err ≠ 0 then s.readFailed ctx st a a.err
        else (match a.parts with
          | [] => s.readDone ctx st a
          | p :: _ =>
            if (a.moves p n).all fun b => s.canRead die b.1 then
              (match s.readPart die (a.moves p n) with
                | (s, some vs) => s.gotPart ctx st a vs
                | (s, none) => s.readFailed ctx st a 1)
            else s)
      | .prefetch =>
        if a.err ≠ 0 then s.leaveCq ctx st a
        else (match a.parts with
          | [] => s.leaveCq ctx st a
          | p :: rest =>
            if (p.bytes.all fun b => (s.dvByte die b.1).readable) || s.ord.fills.contains (die, p.line) then
              (if rest.isEmpty then s.leaveCq ctx st a else s.upAccess ctx st a { a with parts := rest })
            else s)
      | .tile h =>
        (match s.tileOf ctx h with
          | none => s.readFailed ctx st a 1
          | some t =>
            (match s.readTile ctx st h t (a.parts.flatMap Part.bytes) with
              | (s, some vs) =>
                let b := { a with parts := [], got := vs }
                (s.upAccess ctx st a b).readDone ctx st b
              | (s, none) => s.readFailed ctx st a 1))
      | _ => s

/-- `S2_READ`: the read at a class head returns as many bytes as the plan chose (R170). -/
def execS2Read (ctx : Nat) (st : Strm) (cls : Nat) (s : State) : Out := .next (s.readHead ctx st cls (s.pick.headD 0))

/-- `S2A_FILL`: the read at a class head asks for the line of a byte that is INVALID and not pending, once, in a slot of its partition
(R170, R60). -/
def execS2aFill (ctx : Nat) (st : Strm) (cls : Nat) (s : State) : Out :=
  let die := dieOf ctx
  .next (match (s.strm ctx st).classHead cls with
    | none => s
    | some a =>
      match a.kind, a.parts with
      | .read, p :: _ | .prefetch, p :: _ =>
        if a.err = 0 ∧ s.slotOpen die (s.ctx ctx).vf = true ∧ p.bytes.any fun b => !(s.dvByte die b.1).readable
        then s.askFill die p.line (s.ctx ctx).vf else s
      | _, _ => s)

/-! ### Stores (S3, S4, S5) -/

/-- The early store at a class head writes its next part, or the first `n` bytes of it where it is not single-copy atomic, in the die view
and sends E (R168, R170), in a slot of its partition (R60). What moves at once is one write with an identifier of its own. -/
def State.storeHead (s : State) (ctx : Nat) (st : Strm) (cls n : Nat) : State :=
  let die := dieOf ctx
  match (s.strm ctx st).classHead cls with
    | none => s
    | some a =>
      match a.kind with
      | .early =>
        if a.err ≠ 0 then s.writeFailed ctx st a a.err
        else (match a.parts with
          | [] => ((s.entryStored ctx st a).leaveCq ctx st a).epochLeft a.id
          | p :: _ =>
            if !s.slotOpen die (s.ctx ctx).vf || s.draining die then s
            else
            let id := s.ord.nextId
            let bs := a.moves p n
            let rest := a.rest bs.length
            let (s, ok) := s.freshId.dvWrite die bs id (some id)
            if !ok then s.writeFailed ctx st a 1
            else
              let s := (s.allocWay die p.line (s.ctx ctx).vf).sendUp die p.line (s.ctx ctx).vf (.e id bs)
              let s := s.upStrm ctx st fun x => { x with outE := x.outE ++ [⟨id, a.cls, a.va, die⟩] }
              let s := (s.epochPart a.id id).entryPart ctx st a bs.length
              if rest.isEmpty then
                ((s.entryStored ctx st { a with parts := rest }).leaveCq ctx st a).epochLeft a.id
              else s.upAccess ctx st a { a with parts := rest })
      | _ => s

/-- `S3_EARLY_STORE`: the early store at a class head writes as many bytes as the plan chose (R170). -/
def execS3EarlyStore (ctx : Nat) (st : Strm) (cls : Nat) (s : State) : Out := .next (s.storeHead ctx st cls (s.pick.headD 0))

/-- Whether an access goes to its home as a G message (R169, R170, R185, R314). -/
def AccKind.isGlobal (kind : AccKind) : Bool :=
  match kind with
  | .global | .amo .. | .wadd .. | .dstc _ => true
  | _ => false

/-- `S4_GLOBAL_SEND`: the global store or atomic at a class head sends a G for each of its parts and starts its timer (R168, R180); a
copy write that leaves the module is accepted by L0 (Table 7-6). Messages enter the links in a slot of their partition (R60). -/
def execS4GlobalSend (ctx : Nat) (st : Strm) (cls : Nat) (s : State) : Out :=
  let die := dieOf ctx
  .next (match (s.strm ctx st).classHead cls with
    | none => s
    | some a =>
      if a.sent.isSome then s
      else if a.acq && (s.strm ctx st).syncDue 65535 then
        (match a.kind with
          | .amo .. => s.setAside ctx st a
          | _ => s)
      else match a.kind with
      | .remote =>
        (((s.upStrm ctx st fun x => { x with outR := x.outR ++ [⟨a.id, a.cls, a.va, die⟩] }).entryStored ctx st a).leaveCq ctx st a).epochLeft a.id
      | kind =>
        if !kind.isGlobal then s
        else if a.err ≠ 0 then s.writeFailed ctx st a a.err
        else if !s.slotOpen die (s.ctx ctx).vf || s.draining die then s
        else
          let s := a.parts.foldl (fun s p => s.sendUp die p.line (s.ctx ctx).vf (.g a.id (4 * ctx + strmIx st) kind p.bytes)) s
          s.upAccess ctx st a { a with wait := a.parts.map Part.line, sent := some (s.cycle die).toNat })

/-- The parts of a global access whose GA is awaited: of each line the last ones (they are answered in order), as many as are awaited. -/
def Access.unacked (a : Access) : List Part :=
  (a.parts.foldr (fun p (r : List Part × List Nat) => if r.2.contains p.line then (p :: r.1, r.2.erase p.line) else r) ([], a.wait)).1

/-- The access with identifier `id` in the class queues of a die that awaits an acknowledgement for a line. -/
def State.awaiting (s : State) (die id line : Nat) : Option (Nat × Strm × Access) :=
  (dieCtxs s die).findSome? fun k => allStrms.findSome? fun st =>
    ((s.strm k st).cq.find? fun a => a.id == id && a.wait.contains line && a.kind.isGlobal).map fun a => (k, st, a)

/-- A line's acknowledgement or error has come: the access leaves when none is awaited, with the code of a part that failed (R180). -/
def State.partBack (s : State) (k : Nat) (st : Strm) (a : Access) (line : Nat) (old : List Byte) : State :=
  let b := { a with wait := a.wait.erase line }
  let s := s.upAccess k st a b
  if !b.wait.isEmpty then s
  else if b.err ≠ 0 then s.writeFailed k st b b.err
  else
    let s := match b.sink with
      | .gOld d => s.upCtx k fun c => c.landG d b.id (BitVec.ofNat 64 (leNat old))
      | _ => s
    ((s.entryStored k st b).leaveCq k st b).epochLeft b.id

/-- `S5_GLOBAL_DONE`: GA arrives; bytes with no pending identifier take the access's value, and the access leaves when every line has
been acknowledged (R170). The GA of a lost store is discarded (R180). -/
def execS5GlobalDone (die line : Nat) (s : State) : Out :=
  .next (match s.dnHead die line with
    | some ⟨d, l, .ga id old, esc, at_⟩ =>
      let s := s.takeDn ⟨d, l, .ga id old, esc, at_⟩
      (match s.awaiting die id line with
        | none => s
        | some (k, st, a) =>
          let bs := match a.unacked.find? (fun p => p.line == line) with | some p => p.bytes | none => []
          let s := match a.kind, newBytes a.kind bs old with
            | .dstc _, _ => s.dvDrop die (bs.map Prod.fst)
            | _, some nb => (s.dvTake die (nb.map fun (b : Nat × Byte) => (b.1, b.2, id))).markProp die id
            | _, none => s
          (s.entryPart k st a bs.length).partBack k st a line old)
    | _ => s)

/-! ### Fences (S6, R176) and lost acknowledgements (R180) -/

/-- Whether the earlier accesses of the classes of a mask are performed at a scope (R176, Table 7-6). -/
def StreamSt.performed (x : StreamSt) (mask scope : Nat) : Bool :=
  (decide (scope < 3) || ((x.outE.all fun o => !mask.testBit o.cls) && x.obs.all fun o => !mask.testBit o.2))
    && (decide (scope < 4) || x.outR.all fun o => !mask.testBit o.cls)

/-- `S6_FENCE`: a fence at the head of every class of its mask leaves when R176 holds; the decrement of a `tsig` is sent then (R342). -/
def execS6Fence (ctx : Nat) (st : Strm) (cls : Nat) (s : State) : Out :=
  .next (match (s.strm ctx st).classHead cls with
    | none => s
    | some a =>
      match a.kind with
      | .fence mask scope =>
        let x := s.strm ctx st
        if x.syncDue mask then s.setAside ctx st a
        else if (a.classes.all fun c => decide (x.classHead c = some a)) && x.performed mask scope &&
            (match a.sink with | .tsig tag => s.tagRoom (s.ctx ctx).vf tag | _ => true) then
          let t := (s.ctx ctx).team
          let s := match a.sink with
            | .tsig tag => { s with sched := { s.sched with tsigs := s.sched.tsigs ++ [(t.seq, (s.ctx ctx).vf, tag)] } }
            | _ => s
          (s.leaveCq ctx st a).epochLeft a.id
        else s
      | _ => s)

/-- LOST of a class is set in a stream, with the VA behind it. -/
def StreamSt.lose (x : StreamSt) (cls va : Nat) : StreamSt :=
  { x with lost := x.lost ||| BitVec.ofNat 16 (2 ^ cls), lostVa := x.lostVa ++ [⟨cls, 0, va⟩] }

/-- The contexts that run the stream of context `k` in every live copy of its grid point (R114). -/
def State.copiesOf (s : State) (k : Nat) (st : Strm) : List Nat :=
  match s.ekey k st, s.instOf k with
  | some e, some i => ((i.teams.map Placed.copy).eraseDups).filterMap fun c => i.ctxFor c e
  | _, _ => [k]

/-- `GLOBAL_ACK_TIMEOUT`: 2^24 cycles after S4 a global access leaves marked lost, and its unacknowledged bytes become INVALID (R180); the
loss of a released record stands in every live copy (R114). The error of a part cancels the timer. -/
def execGlobalAckTimeout (ctx : Nat) (st : Strm) (cls : Nat) (s : State) : Out :=
  let die := dieOf ctx
  .next (match (s.strm ctx st).classHead cls with
    | none => s
    | some a =>
      match a.sent with
      | none => s
      | some t =>
        if a.err ≠ 0 ∨ (s.cycle die).toNat < t + Config.ackTimeout then s
        else
          let locs := a.unacked.flatMap fun p => p.bytes.map Prod.fst
          let s := s.dvDrop die locs
          let s := if a.held then (s.copiesOf ctx st).foldl (fun s k => s.upStrm k st fun x => x.lose a.cls a.va) s
            else s.upStrm ctx st fun x => x.lose a.cls a.va
          let s := match a.sink with
            | .gOld d => s.upCtx ctx fun c => { c with gpend := c.gpend.filter fun p => decide (p ≠ (d, a.id)) }
            | _ => s
          ((s.entryStored ctx st a).leaveCq ctx st a).epochLeft a.id)

/-- `FAR_END_ACKNOWLEDGEMENT`: the remote module answers a copy write, which is performed at system scope then (R409, Table 7-6); a
transport that fails or a refusal is a write error of code 4 or 5. -/
def execFarEndAcknowledgement (ctx : Nat) (id : Nat) (s : State) : Out :=
  let moved := !(allStrms.any fun st => (s.strm ctx st).outR.any fun o => o.id == id)
  let code := Config.remoteCode id
  let back := fun (x : StreamSt) =>
    { x with
      werr := x.werr ++ (if code = 4 ∨ code = 5 then (x.outR.filter fun o => o.id == id).map fun o => WErr.mk o.cls code o.va else [])
      outR := x.outR.filter fun o => o.id != id }
  .next ((if moved then s.upStreams back else s.upCtx ctx fun c => allStrms.foldl (fun c st => c.upStrm st back) c).epochLeft id)

/-! ### Homes (Table 7-3) -/

/-- Whether a line is FREE. -/
def State.lineFree (s : State) (line : Nat) : Bool := !s.ord.held.has line

/-- The live compute dies a home still awaits from a list: those that are live and have not answered (R182). -/
def State.awaited (s : State) (line : Nat) (dies : List Nat) (p : UpMsg → Bool) : List Nat :=
  dies.filter fun d => s.isLive d && !(s.ord.up.any fun u => u.die == d && u.line == line && p u.msg)

/-- Takes the first matching answer of each die off its channel. -/
def State.takeAnswers (s : State) (line : Nat) (dies : List Nat) (p : UpMsg → Bool) : State :=
  dies.foldl (fun s d => match s.ord.up.find? (fun u => u.die == d && u.line == line && p u.msg) with
    | some u => s.takeUp u
    | none => s) s

/-- The waiting message of one kind at a head, at a line that is FREE, with its home: an error completion instead where the home table
or stage 2 refuses it (R33, R35, R49). In sealed mode a memory die takes requests only of the slot's owners (R60); best-effort requests wait
for a slot of the die's rate (R74). -/
def State.atHome (s : State) (die line : Nat) (p : UpMsg → Bool) (go : State → Up → Nat → Nat → State) : State :=
  match s.upHead die line with
  | none => s
  | some u =>
    if !p u.msg || !s.lineFree line then s
    else match s.homeAt u with
      | .err c => (s.takeUp u).sendDn die line (u.failed c)
      | .at_ m addr => if s.slotOpen (Config.memDie m) u.vf && s.admits m u.vf then go s u m addr else s
      | _ => s

/-- `H1_PLACE_EARLY`: a FREE line takes an early store into the coherence order (R171). A write to a migrating granule is held (R41). -/
def execH1PlaceEarly (die line : Nat) (s : State) : Out :=
  .next (s.atHome die line (fun m => match m with | .e .. => true | _ => false) fun s u m addr =>
    match u.msg with
    | .e id bs =>
      if s.migrating line then s
      else
        let s := s.takeUp u
        let (s, ok) := s.homeWriteBytes addr bs
        if !ok then s.sendDn die line (u.failed 1)
        else
          let others := s.liveCompute.filter (· ≠ die)
          let s := (s.appendCo bs id).sendDn die line (.c id)
          let s := others.foldl (fun s d => s.sendDn d line (.u id bs)) s
          { s with ord := { s.ord with ua := s.ord.ua ++ [(line, id, die, others)] } }.served m (line * 64 / 2 ^ 21) u.vf die
    | _ => s)

/-- `H2_PROPAGATE`: every awaited UA has arrived, and P goes to every live compute die (R171, R182), in a slot of the partition (R60). -/
def execH2Propagate (line id : Nat) (s : State) : Out :=
  let isUa := fun (m : UpMsg) => match m with | .ua i => i == id | _ => false
  .next (match s.ord.ua.find? (fun u => u.1 == line && u.2.1 == id) with
    | none => s
    | some (l, i, d, dies) =>
      if !(s.awaited line dies isUa).isEmpty || !s.slotOpen (Config.memDie (s.lineHome line)) (s.lineVf line) then s
      else
        let s := s.takeAnswers line dies isUa
        let s := { s with ord := { s.ord with ua := s.ord.ua.erase (l, i, d, dies), propd := id :: s.ord.propd } }
        s.liveCompute.foldl (fun s d => s.sendDn d line (.p id)) s)

/-- `H3_HOLD`: a FREE line is held by a global store or atomic, and I goes to every live compute die (R171). -/
def execH3Hold (die line : Nat) (s : State) : Out :=
  .next (s.atHome die line (fun m => match m with | .g .. => true | _ => false) fun s u _ _ =>
    match u.msg with
    | .g id who kind bs =>
      if s.migrating line then s
      else
        let s := s.takeUp u
        let dies := s.liveCompute
        let s := { s with ord := { s.ord with held := s.ord.held.set line ⟨id, who, die, u.vf, kind, bs, dies⟩ } }
        dies.foldl (fun s d => s.sendDn d line (.i id)) s
    | _ => s)

/-- Plants the check bits of a diagnostic store in an HBM word of 8 bytes (R314). -/
def State.plantHbm (s : State) (addr : Nat) (bs : List (Nat × Byte)) (check : BitVec 8) : State :=
  match bs with
  | [] => s
  | (loc, _) :: _ =>
    let a := addr + loc % 2 ^ 21
    let s := bs.foldl (fun s b => s.hbmRaw (addr + b.1 % 2 ^ 21) [b.2]) s
    let d := s.hbmWord (a / 8)
    let t := s.mem.hbmCheck
    let t := if check.toNat = eccCode 64 7 d then t.del (a / 8) else t.set (a / 8) check
    { s with mem := { s.mem with hbmCheck := t } }

/-- `H4_PERFORM`: every awaited IA has arrived; the access is appended to the coherence order, an atomic computes from the old value, GA
goes to the issuer's die and the line is FREE (R171, R182). A write to a migrating granule is held (R42). An uncorrectable word completes
with code 1 (R434). -/
def execH4Perform (line : Nat) (s : State) : Out :=
  .next (match s.ord.held.find? (fun h => h.1 == line) with
    | none => s
    | some (_, h) =>
      let isIa := fun (m : UpMsg) => match m with | .ia i => i == h.id | _ => false
      if !(s.awaited line h.wait isIa).isEmpty || s.migrating line || !s.slotOpen (Config.memDie (s.lineHome line)) h.vf then s
      else
        let s := s.takeAnswers line h.wait isIa
        let s := { s with ord := { s.ord with held := s.ord.held.del line } }
        let slot := line * 64 / 2 ^ 21
        match s.homeOf h.die h.vf slot with
        | .at_ m addr =>
          let s := s.served m slot h.vf h.die
          let a0 := match h.bytes with | b :: _ => b.1 % 2 ^ 21 | [] => 0
          let (s, old) := if h.kind.readsHome then s.hbmRead (addr + a0) h.bytes.length else (s, some [])
          (match old with
            | none => s.sendDn h.die line (.err h.id false false 1)
            | some old =>
              let (s, ok) := match h.kind, newBytes h.kind h.bytes old with
                | .dstc check, _ => ((s.plantHbm addr h.bytes check).appendCo h.bytes h.id, true)
                | _, some nb => (let (s, ok) := s.homeWriteBytes addr nb
                    (if ok then s.appendCo nb h.id else s, ok))
                | _, none => (s, true)
              if ok then { s with ord := { s.ord with propd := h.id :: s.ord.propd } }.sendDn h.die line (.ga h.id old)
              else s.sendDn h.die line (.err h.id false false 1))
        | .err c => s.sendDn h.die line (.err h.id false false c)
        | _ => s.sendDn h.die line (.err h.id false false 5))

/-- Reads a line at its home: each byte with its writer, and the bytes of uncorrectable words. -/
def State.lineAt (s : State) (addr line w : Nat) : State × List (Nat × Byte × Nat × Bool) × List Nat :=
  match w with
  | 0 => (s, [], [])
  | n + 1 =>
    let (s, bs, bad) := s.lineAt addr line n
    let locs := (List.range 8).map (64 * line + 8 * n + ·)
    let (s, d) := s.hbmReadWord ((addr + (64 * line + 8 * n) % 2 ^ 21) / 8)
    match d with
    | none => (s, bs, bad ++ locs)
    | some d =>
      (s, bs ++ locs.map (fun l =>
        let wr := s.lastWriter l
        (l, byteOf d (l % 8), wr, decide (wr = 0) || s.ord.propd.contains wr)), bad)

/-- `H5_SERVE_FILL`: a FREE line answers a fill with each byte's last value, its writer and whether that is propagated (R171). -/
def execH5ServeFill (die line : Nat) (s : State) : Out :=
  .next (s.atHome die line (fun m => match m with | .f => true | _ => false) fun s u m addr =>
    let s := s.takeUp u
    let (s, bs, bad) := s.lineAt addr line 8
    (s.sendDn die line (.fr bs bad)).served m (line * 64 / 2 ^ 21) u.vf die)

/-! ### Die views (Table 7-4, R199) -/

/-- Whether a die awaits a KR for a line. -/
def State.kHeld (s : State) (die line : Nat) : Bool := s.ord.kHold.any fun h => h.die == die && h.line == line

/-- Records a U or an I of a line for every KR that is awaited. -/
def State.record (s : State) (die line : Nat) (m : DnMsg) : State :=
  { s with ord := { s.ord with kHold := s.ord.kHold.map fun h =>
      if h.die = die ∧ h.line = line then { h with recd := h.recd ++ [m] } else h } }

/-- `V1_UPDATE`: bytes with no pending identifier take the store's value, and UA is sent (R172). -/
def execV1Update (die line : Nat) (s : State) : Out :=
  .next (match s.dnHead die line with
    | some ⟨d, l, .u id bs, esc, at_⟩ =>
      let s := s.takeDn ⟨d, l, .u id bs, esc, at_⟩
      let s := if s.kHeld die line then s.record die line (.u id bs) else s
      (s.dvTake die (bs.map fun b => (b.1, b.2, id))).sendUp die line 0 (.ua id)
    | _ => s)

/-- `V2_CONFIRM`: pending identifiers that equal the store's are cleared (R172). -/
def execV2Confirm (die line : Nat) (s : State) : Out :=
  .next (match s.dnHead die line with
    | some ⟨d, l, .c id, esc, at_⟩ => (s.takeDn ⟨d, l, .c id, esc, at_⟩).confirm die line id
    | _ => s)

/-- `V3_INVALIDATE`: bytes of the line with no pending identifier become INVALID, and IA is sent (R172). -/
def execV3Invalidate (die line : Nat) (s : State) : Out :=
  .next (match s.dnHead die line with
    | some ⟨d, l, .i id, esc, at_⟩ =>
      let s := s.takeDn ⟨d, l, .i id, esc, at_⟩
      let s := if s.kHeld die line then s.record die line (.i id) else s
      (s.dvDrop die (lineLocs line)).sendUp die line 0 (.ia id)
    | _ => s)

/-- The reads at class heads of a die that need a byte of `locs` which the view cannot give: they complete with an error code. -/
def State.failReads (s : State) (die : Nat) (locs : List Nat) (code : Nat) : State :=
  ((dieCtxs s die).flatMap fun k => allStrms.flatMap fun st => (List.range 16).map fun cls => (k, st, cls)).foldl
    (fun s h => match (s.strm h.1 h.2.1).classHead h.2.2 with
      | some a =>
        (match a.kind, a.parts with
          | .read, p :: _ | .prefetch, p :: _ =>
            if p.bytes.any fun b => locs.contains b.1 && !(s.dvByte die b.1).readable then s.readFailed h.1 h.2.1 a code else s
          | _, _ => s)
      | none => s) s

/-- Those that wait for a line of a die outside its class queues (fetches, touches, walkers) are told that its bytes could not be filled. -/
def State.tellWaiters (s : State) (die line : Nat) (locs : List Nat) (code : Nat) : State :=
  let mine := fun (w : Nat × Nat) => w.2 == line && (w.1 == 1024 + die || (decide (w.1 < 1024) && dieOf w.1 == die))
  if s.mem.waiters.isEmpty then s
  else { s with mem := { s.mem with
    waiters := s.mem.waiters.filter fun w => !mine w
    fillBad := if locs.isEmpty then s.mem.fillBad else s.mem.fillBad ++ (s.mem.waiters.filter mine).map fun w => ⟨w.1, locs, code⟩ } }

/-- The fill of a line is answered. -/
def State.fillDone (s : State) (die line : Nat) : State :=
  { s with ord := { s.ord with fills := s.ord.fills.filter fun f => decide (f ≠ (die, line)) } }

/-- `V4_FILL_REPLY`: bytes that are INVALID and not pending become VALID as carried; writers marked propagated are so at this die (R172,
R438). A read that waits for an uncorrectable byte completes with code 1 (R121). -/
def execV4FillReply (die line : Nat) (s : State) : Out :=
  .next (match s.dnHead die line with
    | some ⟨d, l, .fr bs bad, esc, at_⟩ =>
      let s := (s.takeDn ⟨d, l, .fr bs bad, esc, at_⟩).fillDone die line
      let bs := bs.filter fun b => !(s.dvByte die b.1).readable
      let s := s.dvTake die (bs.map fun b => (b.1, b.2.1, b.2.2.1))
      let s := ((bs.filter fun b => b.2.2.2).map fun b => b.2.2.1).eraseDups.foldl
        (fun s w => if w = 0 then s else s.propagate die w) s
      (s.allocWay die line (s.lineVf line)).failReads die bad 1 |>.tellWaiters die line bad 1
    | _ => s)

/-- `V5_PROPAGATED`: the store leaves the observed sets of the die (R172, R438). -/
def execV5Propagated (die line : Nat) (s : State) : Out :=
  .next (match s.dnHead die line with
    | some ⟨d, l, .p id, esc, at_⟩ => (s.takeDn ⟨d, l, .p id, esc, at_⟩).propagate die id
    | _ => s)

/-- Writers of a line in the coherence order. -/
def State.inOrder (s : State) (line : Nat) : List Nat :=
  ((s.ord.co.filter fun w => w.loc / 64 == line).map CoWrite.writer).eraseDups

/-- `K_MESSAGE`: the home takes K in any line state and answers with the stores that are in the coherence order and those whose P has
been sent (R199). -/
def execKMessage (die line : Nat) (s : State) : Out :=
  .next (match s.ord.up.find? (fun u => u.die == die && u.line == line && decide (u.msg = UpMsg.k)) with
    | none => s
    | some u =>
      let ids := s.inOrder line
      (s.takeUp u).sendDn die line (.kr ids (ids.filter s.ord.propd.contains)))

/-- A recorded U or I applies to the bytes of a store that is in the coherence order. -/
def State.applyRecorded (s : State) (die : Nat) (locs : List Nat) (m : DnMsg) : State :=
  match m with
  | .u id bs => s.dvTake die ((bs.filter fun b => locs.contains b.1).map fun b => (b.1, b.2, id))
  | .i _ => s.dvDrop die locs
  | _ => s

/-- `KR_MESSAGE`: stores in the coherence order are confirmed and their recorded messages apply, the other records are dropped, and
stores whose P was sent are propagated (R199). -/
def execKrMessage (die line : Nat) (s : State) : Out :=
  .next (match s.dnHead die line with
    | some ⟨d, l, .kr inCo sentP, esc, at_⟩ =>
      let s := s.takeDn ⟨d, l, .kr inCo sentP, esc, at_⟩
      let recd := match s.ord.kHold.find? (fun h => h.die == die && h.line == line) with | some h => h.recd | none => []
      let locs := s.pendLocs die line inCo.contains
      let s := locs.foldl (fun s l => s.setDv die l { s.dvByte die l with pend := none }) s
      let s := recd.foldl (fun s m => s.applyRecorded die locs m) s
      let s := sentP.foldl (fun s id => s.propagate die id) s
      { s with ord := { s.ord with kHold := s.ord.kHold.eraseP fun h => h.die == die && h.line == line } }
    | _ => s)

/-! ### Error completions (R49, R50, R436) -/

/-- `ERROR_COMPLETION`: a fill or a global access completes with an error code: reads that wait for the line fault at once, a write at
its stream's next fence, acquire or `end` (R49, R50, R180). -/
def execErrorCompletion (die line : Nat) (s : State) : Out :=
  .next (match s.dnHead die line with
    | some ⟨d, l, .err id fill false code, esc, at_⟩ =>
      let s := s.takeDn ⟨d, l, .err id fill false code, esc, at_⟩
      if fill then ((s.fillDone die line).failReads die (lineLocs line) code).tellWaiters die line (lineLocs line) code
      else (match s.awaiting die id line with
        | none => s
        | some (k, st, a) =>
          let b := { a with err := if a.err = 0 then code else a.err }
          (s.upAccess k st a b).partBack k st b line [])
    | _ => s)

/-- `EARLY_STORE_ERROR`: the pending bytes of an early store that completed with an error become INVALID, it leaves the observed sets of
its die, and its stream has a write error (R436, R50). -/
def execEarlyStoreError (die line : Nat) (s : State) : Out :=
  .next (match s.dnHead die line with
    | some ⟨d, l, .err id fill true code, esc, at_⟩ =>
      let s := s.takeDn ⟨d, l, .err id fill true code, esc, at_⟩
      let locs := s.pendLocs die line (· == id)
      let s := locs.foldl (fun s l => s.setDv die l { s.dvByte die l with pend := none, valid := false }) s
      let s := (s.dvForget die locs).upDie die fun x => { x with obs := x.obs.filter fun o => o.1 ≠ id }
      (s.upStreams fun x => { x with
          werr := x.werr ++ (x.outE.filter fun o => o.id == id && o.die == die).map fun o => WErr.mk o.cls code o.va
          outE := x.outE.filter fun o => !(o.id == id && o.die == die) }).epochLeft id
    | _ => s)

end Sys2Proof.Machine
end

