-- ==== Sys2Proof/Machine/Home.lean ====
section
/-!
DEFINITION. Sys2Proof/Machine/Home.lean: the events of memory dies and translation (02_package_memory.md): home-table and free-frame-map
writes, counters, migration, first touch, pulls, admission rates, stage-1 walks and TLBINV.
-/

namespace Sys2Proof.Machine

/-! ### Home table and free-frame maps (R34, R35) -/

/-- The home-table entry of L0's master copy. -/
def State.masterHome (s : State) (slot : Nat) : BitVec 32 := s.mem.home.get slot 0

/-- L0 takes the oldest home-table write that waits and sends it to every live die, unless one is under way or its granule is migrating
(R34). -/
def State.nextHomeWrite (s : State) : State :=
  match s.mem.homeWrite, s.mem.homeWait with
  | none, (slot, w) :: rest =>
    if s.migrating (slot * 2 ^ 15) then s
    else
      let s := s.setHome slot w
      { s with mem := { s.mem with homeWrite := some (slot, w), homeWait := rest } }
  | _, _ => s

/-- `HOME_TABLE_WRITE`: the physical function's write of an entry goes to every live die; it waits while another is under way or the
granule is migrating (R34). -/
def execHomeTableWrite (slot v : Nat) (s : State) : Out :=
  .next (if Config.slots ≤ slot then s
    else ({ s with mem := { s.mem with homeWait := s.mem.homeWait ++ [(slot, BitVec.ofNat 32 v &&& 0xBC0001FF)] } }).nextHomeWrite)

/-- `HOME_TABLE_WRITE_COMPLETE`: the last live die has acknowledged, the host's write completes, and L0 takes the next one (R34). -/
def execHomeTableWriteComplete (s : State) : Out := .next ({ s with mem := { s.mem with homeWrite := none } }).nextHomeWrite

/-- A word of a free-frame map; all ones after cold reset (R35). -/
def State.ffWord (s : State) (m w : Nat) : BitVec 32 := s.mem.ffmap.get (m * 2 ^ 11 + w) 0xFFFFFFFF

/-- Writes a word of a free-frame map. -/
def State.setFfWord (s : State) (m w : Nat) (v : BitVec 32) : State :=
  { s with mem := { s.mem with ffmap := s.mem.ffmap.set (m * 2 ^ 11 + w) v } }

/-- `FFMAP_WRITE`: a word of a free-frame map is replaced at once (R35). -/
def execFfmapWrite (m w v : Nat) (s : State) : Out :=
  .next (if 4 ≤ m ∨ 2 ^ 11 ≤ w then s else s.setFfWord m w (BitVec.ofNat 32 v))

/-- The lowest free frame of a memory die. -/
def State.lowestFree (s : State) (m : Nat) : Option Nat :=
  ((List.range (2 ^ 11)).find? fun w => decide (s.ffWord m w ≠ 0)).bind fun w =>
    ((List.range 32).find? fun b => (s.ffWord m w).getLsbD b).map fun b => 32 * w + b

/-- Marks a frame free or taken. -/
def State.setFrame (s : State) (m f : Nat) (free : Bool) : State :=
  let w := s.ffWord m (f / 32)
  let b := BitVec.ofNat 32 (2 ^ (f % 32))
  s.setFfWord m (f / 32) (if free then w ||| b else w &&& ~~~b)

/-- HBM address of a frame. -/
def frameAddr (m f : Nat) : Nat := m * hbmSpan + f * 2 ^ 21

/-- The bytes of a frame that differ from the power-on byte, as (offset, byte). -/
def State.frameCells (s : State) (addr : Nat) : List Host.Cell :=
  (s.mem.hbm.filter fun c => decide (addr ≤ c.1) && decide (c.1 < addr + 2 ^ 21)).map fun c => (c.1 - addr, c.2)

/-- Replaces the bytes of a frame: those listed by offset, zero elsewhere, with fresh check bits. -/
def State.fillFrame (s : State) (addr : Nat) (cells : List Host.Cell) : State :=
  let inside := fun a => decide (addr ≤ a) && decide (a < addr + 2 ^ 21)
  let hbm := s.mem.hbm.filter fun c => !inside c.1
  let hbm := cells.foldl (fun m c => memPut Config.powerOnByte m (addr + c.1 % 2 ^ 21) c.2) hbm
  { s with mem := { s.mem with hbm := hbm, hbmCheck := s.mem.hbmCheck.filter fun e => !inside (8 * e.1) } }

/-- Copies a frame with the stored check bits of its words. -/
def State.copyFrame (s : State) (src dst : Nat) : State :=
  let chk := (s.mem.hbmCheck.filter fun e => decide (src ≤ 8 * e.1) && decide (8 * e.1 < src + 2 ^ 21)).map fun e =>
    ((8 * e.1 - src + dst) / 8, e.2)
  let s := s.fillFrame dst (s.frameCells src)
  { s with mem := { s.mem with hbmCheck := chk ++ s.mem.hbmCheck } }

/-! ### Counters and migration (R40 to R42) -/

/-- A stage-2 entry with its counters halved. -/
def halveCounts (t : Nat) : Nat :=
  fld t 0 32 + ((List.range 4).map fun q => fld t (32 + 8 * q) 8 / 2 * 2 ^ (32 + 8 * q)).foldl (· + ·) 0

/-- `COUNTER_HALVING`: a memory die that has served 2^20 requests halves every counter it holds (R40). -/
def execCounterHalving (m : Nat) (s : State) : Out :=
  .next (if s.mem.served.get m 0 < 2 ^ 20 then s
    else { s with mem := { s.mem with
      served := s.mem.served.set m (s.mem.served.get m 0 - 2 ^ 20)
      stage2 := s.mem.stage2.map fun e => if e.1 / Config.slots = m then (e.1, BitVec.ofNat 64 (halveCounts e.2.toNat)) else e } })

/-- The migration engine of a memory die. -/
def State.migOf (s : State) (m : Nat) : MigSt := s.mem.mig.get m {}

/-- Replaces a migration engine. -/
def State.setMig (s : State) (m : Nat) (g : MigSt) : State := { s with mem := { s.mem with mig := s.mem.mig.set m g } }

/-- `MIGRATION_START`: while migration is enabled, an idle engine takes its oldest candidate: MIG is set in every copy of the entry, or the
counters are halved when the target has no free frame (R41, Table 2-7). -/
def execMigrationStart (m : Nat) (s : State) : Out :=
  let g := s.migOf m
  .next (if !s.pf.migEn then s else match g.phase, g.cand with
    | 0, (slot, q) :: rest =>
      let h := (s.masterHome slot).toNat
      let s := s.setMig m { g with cand := rest }
      if !bit h 31 ∨ bit h 30 ∨ fld h 26 2 ≠ m ∨ !bit (s.stage2 m slot) 31 then s
      else if (s.lowestFree q).isNone then s.setStage2 m slot (BitVec.ofNat 64 (halveCounts (s.stage2 m slot)))
      else (s.setHome slot (BitVec.ofNat 32 h ||| 0x40000000)).setMig m
        { cand := rest, phase := 1, slot := slot, dest := q, oldFrame := fld (s.stage2 m slot) 0 16 }
    | _, _ => s)

/-- `MIGRATION_COPY_DONE`: the granule stands in the lowest free frame of its new home, whose stage-2 entry is written, and HOME := new and
MIG := 0 are written to every die (R41). Writes stay held until the acknowledgements are in; every die has the new entry at once, so the old
home gets no request to forward (notes/assumptions/38.md). -/
def execMigrationCopyDone (m : Nat) (s : State) : Out :=
  let g := s.migOf m
  .next (match g.phase, s.lowestFree g.dest with
    | 1, some f =>
      let s := (s.copyFrame (frameAddr m g.oldFrame) (frameAddr g.dest f)).setFrame g.dest f false
      let s := s.setStage2 g.dest g.slot (BitVec.ofNat 64 (2 ^ 31 + f))
      let h := (s.masterHome g.slot).toNat
      (s.setHome g.slot (BitVec.ofNat 32 (h - fld h 26 2 * 2 ^ 26 + g.dest * 2 ^ 26) &&& 0xBFFFFFFF)).setMig m { g with phase := 2 }
    | _, _ => s)

/-- `MIGRATION_ACKS_COMPLETE`: every die has acknowledged; the held writes go to the new home in their order, and the old frame is free (R41). -/
def execMigrationAcksComplete (m : Nat) (s : State) : Out :=
  let g := s.migOf m
  .next (if g.phase ≠ 2 then s
    else
      let t := s.stage2 m g.slot
      let s := (s.setStage2 m g.slot (BitVec.ofNat 64 (t - (if bit t 31 then 2 ^ 31 else 0)))).setFrame m g.oldFrame true
      (s.setMig m { g with phase := 0 }).nextHomeWrite)

/-! ### First touch and pulls (R43, R44) -/

/-- Binds a slot to the lowest free frame of the first memory die from quadrant q on that has one, filled with the bytes given; none
when no die has one (R43). -/
def State.bindSlot (s : State) (slot q : Nat) (cells : List Host.Cell) : Option State :=
  match (((List.range 4).map fun j => (q + j) % 4).filter fun m => s.isLive (Config.memDie m)).find? fun m => (s.lowestFree m).isSome with
  | none => none
  | some m =>
    match s.lowestFree m with
    | none => none
    | some f =>
      let s := ((s.fillFrame (frameAddr m f) cells).setFrame m f false).setStage2 m slot (BitVec.ofNat 64 (2 ^ 31 + f))
      let h := (s.masterHome slot).toNat
      some (s.setHome slot (BitVec.ofNat 32 (fld h 0 26 + m * 2 ^ 26 + fld h 28 1 * 2 ^ 28 + 2 ^ 31)))

/-- Slot of a message's line. -/
def Up.slot (u : Up) : Nat := u.line * 64 / 2 ^ 21

/-- Answers every message that waits for a slot with an error completion. -/
def State.failTouches (s : State) (p : Up → Bool) (code : Nat) : State :=
  (s.ord.up.filter fun u => u.msg.waits && p u).foldl (fun s u => (s.takeUp u).sendDn u.die u.line (u.failed code)) s

/-- The touches of an unbacked slot that wait to be bound, from some dies. -/
def State.touches (s : State) (slot : Nat) (dies : List Nat) : List Up :=
  s.ord.up.filter fun u => u.msg.waits && u.slot == slot && dies.contains u.die && decide (s.homeAt u = .bind)

/-- Of the touches of an unbacked slot with FT = 1 that reach L0 in one cycle, named by their dies, that of the lowest
die index binds it to a zero-filled frame, or completes with code 5 (R43). -/
def State.bindTouch (s : State) (slot : Nat) (dies : List Nat) : State :=
  match leastBy Up.die (s.touches slot dies) with
    | none => s
    | some u =>
      match s.bindSlot u.slot (quadOf u.die) [] with
      | some s => s
      | none => (s.takeUp u).sendDn u.die u.line (u.failed 5)

/-- `FIRST_TOUCH_BIND`: L0 serves the touches that the plan names, by their slot and dies (R43); where it names none, those of every die of
the slot that was touched first. -/
def execFirstTouchBind (s : State) : Out :=
  .next (match s.pick with
    | slot :: dies => s.bindTouch slot dies
    | [] => match s.ord.up.find? (fun u => u.msg.waits && decide (s.homeAt u = .bind)) with
      | none => s
      | some u => s.bindTouch u.slot (List.range 16))

/-- `PULL_FETCH`: a touch of a slot with PULL = 1 starts the fetch of its granule; other touches wait on the same fetch (R44). -/
def execPullFetch (s : State) : Out :=
  .next (match s.ord.up.find? (fun u => u.msg.waits && decide (s.homeAt u = .pull) && !s.mem.pulling.contains u.slot) with
    | none => s
    | some u => { s with mem := { s.mem with pulling := s.mem.pulling ++ [u.slot] } })

/-- `PULL_FETCH_DONE`: the granule is bound and filled with the fetched bytes, and PULL is cleared (R44). Bound as in R43, from the quadrant
of the oldest touch that waits; when no touch waits any more (its die has left), from quadrant 0 on (DESIGN CHOICE, notes/assumptions/103.md). -/
def execPullFetchDone (bytes : List Host.Cell) (s : State) : Out :=
  .next (match s.mem.pulling with
    | [] => s
    | slot :: rest =>
      let q := match s.ord.up.find? (fun u => u.msg.waits && u.slot == slot) with | some u => quadOf u.die | none => 0
      match s.bindSlot slot q bytes with
      | some s => { s with mem := { s.mem with pulling := rest } }
      | none => ({ s with mem := { s.mem with pulling := rest } }).failTouches (fun u => u.slot == slot) 5)

/-- `PULL_FAILED`: every waiting touch, L0's own (`linkWho`) among them, completes with code 6; the slot keeps V = 0 and PULL = 1 (R44). -/
def execPullFailed (s : State) : Out :=
  .next (match s.mem.pulling with
    | [] => s
    | slot :: rest =>
      let bad := if s.mem.waiters.contains (2048, slot) then [FillBad.mk 2048 [slot] 6] else []
      ({ s with mem := { s.mem with pulling := rest, fillBad := s.mem.fillBad ++ bad } }).failTouches (fun u => u.slot == slot) 6)

/-! ### Admission rates (R74) -/

/-- `MISS_SIGNAL`: a missed-window signal lowers a memory die's best-effort rate by 1, to no less than 1 (R74). -/
def execMissSignal (m : Nat) (s : State) : Out :=
  .next (if s.mem.missSig.get m 0 = 0 then s
    else { s with mem := { s.mem with
      missSig := s.mem.missSig.set m (s.mem.missSig.get m 0 - 1)
      rate := s.mem.rate.set m (Nat.max 1 (s.mem.rate.get m 16 - 1))
      since := s.mem.since.set m 0 } })

/-- `ADMISSION_RATE_RISE`: after 2^16 requests since the last signal the rate rises by 1, to no more than 16 (R74). -/
def execAdmissionRateRise (m : Nat) (s : State) : Out :=
  .next (if s.mem.since.get m 0 < 2 ^ 16 then s
    else { s with mem := { s.mem with rate := s.mem.rate.set m (Nat.min 16 (s.mem.rate.get m 16 + 1)), since := s.mem.since.set m 0 } })

/-! ### Stage-1 walks (R36 to R38) -/

/-- What a table read, or a whole walk, gives. -/
inductive Walk where
  | page (gpa size : Nat) (rd w x : Bool)
  | bad (tkind level : Nat)
  | err (code : Nat)
  /-- a first touch or a pull must come first: its line -/
  | wait (line : Nat)
deriving DecidableEq, Repr

/-- The 64-bit table entry at a guest-physical address as a die reads it: a compute die from its view, which fills the line first (R36), L0
from the home's memory. -/
def State.tableEntry (s : State) (die vf gpa : Nat) : Walk × Nat :=
  match s.locate die vf gpa with
  | (_, e + 1) => (.err (e + 1), 0)
  | (loc, 0) =>
    let locs := (List.range 8).map (loc + ·)
    if die < 16 then
      (if locs.all fun l => (s.dvByte die l).readable then
        (match locs.mapM (s.dvVal die) with
          | some bs => (.page 0 0 true true true, leNat bs)
          | none => (.err 1, 0))
      else match locs.findSome? (s.badFill (1024 + die)) with
        | some c => (.err c, 0)
        | none => (.wait (loc / 64), 0))
    else match s.homeOf die vf (loc / 2 ^ 21) with
      | .at_ _ a =>
        (match (s.hbmRead (a + loc % 2 ^ 21) 8).2 with
          | some bs => (.page 0 0 true true true, leNat bs)
          | none => (.err 1, 0))
      | .err c => (.err c, 0)
      | _ => (.wait (loc / 64), 0)

/-- Lowest VA bit, index bits and size of the next table of a level (Table 2-4). -/
def walkShape (level : Nat) : Nat × Nat × Nat :=
  match level with
  | 0 => (43, 13, 16)
  | 1 => (30, 13, 12)
  | 2 => (21, 9, 8)
  | _ => (16, 5, 8)

/-- A stage-1 walk from the table at `base` of a level on (R36, R37). -/
def State.walkFrom (s : State) (die vf va base level fuel : Nat) : Walk :=
  match fuel with
  | 0 => .bad 1 3
  | fuel + 1 =>
    let (lo, n, nextAlign) := walkShape level
    match s.tableEntry die vf (base + 8 * fld va lo n) with
    | (.page .., e) =>
      let leaf := bit e 1
      let addr := fld e 8 40 * 2 ^ 8
      if !bit e 0 then .bad 0 level
      else if fld e 48 16 ≠ 0 ∨ fld e 5 3 ≠ 0 ∨ (leaf ∧ level = 0) ∨ (!leaf ∧ level = 3) ∨
          addr % 2 ^ (if leaf then lo else nextAlign) ≠ 0 then .bad 1 level
      else if leaf then .page addr lo (bit e 2) (bit e 3) (bit e 4)
      else s.walkFrom die vf va addr (level + 1) fuel
    | (r, _) => r

/-- A whole walk for an identifier of a partition: an address-space entry that is not the partition's own valid one gives a fault of kind
not valid at level 0 (R59). -/
def State.walk (s : State) (die vf asid va : Nat) : Walk :=
  let e := s.pf.ase.get asid {}
  if !e.w0.getLsbD 31 ∨ fld e.w0.toNat 0 9 ≠ vf then .bad 0 0
  else s.walkFrom die vf va (e.w1.toNat * 2 ^ 16) 0 4

/-- The locations of the table entries that a walk reads from the table at `base` of a level on. -/
def State.walkLocs (s : State) (die vf va base level fuel : Nat) : List Nat :=
  match fuel with
  | 0 => []
  | fuel + 1 =>
    let (lo, n, _) := walkShape level
    let gpa := base + 8 * fld va lo n
    let loc := (s.locate die vf gpa).1
    (List.range 8).map (loc + ·) ++ match s.tableEntry die vf gpa with
      | (.page .., e) => if bit e 0 && !bit e 1 then s.walkLocs die vf va (fld e 8 40 * 2 ^ 8) (level + 1) fuel else []
      | _ => []

/-- Room in a die's translation cache for one more entry: the oldest goes when it is full; a sealed partition keeps to 512 entries (R38, R60). -/
def State.cacheEntry (s : State) (die : Nat) (e : TlbEntry) : State :=
  let es := s.mem.tlb.get die []
  let cap := if s.isSealed e.vf then 512 else Config.tlbEntries - 512 * s.sealedVfs.length
  let mine := fun (x : TlbEntry) => if s.isSealed e.vf then x.vf == e.vf else !s.isSealed x.vf
  let es := if cap ≤ (es.filter mine).length then (match es.find? mine with | some x => es.erase x | none => es) else es
  { s with mem := { s.mem with tlb := s.mem.tlb.set die (es ++ [e]) } }

/-- The misses that a die's 16 walkers work on, the oldest ones, each with its walk (R38). -/
def State.walks (s : State) (die : Nat) : List (Miss × Walk) :=
  ((s.mem.missq.get die []).take 16).map fun q => (q, s.walk die q.vf q.asid q.va)

/-- The walk of a miss has ended: its page enters the translation cache and the accesses that wait for the page go on, or the walk's fault
waits for its access (R37, R38). Corrections of table words it read are logged (R121). -/
def State.walkDone (s : State) (die : Nat) (q : Miss) (w : Walk) : State :=
  let e := s.pf.ase.get q.asid {}
  let s := if die < 16 ∧ !(s.ord.dvCheck.get die []).isEmpty
    then s.dvNoteOnce die (s.walkLocs die q.vf q.va (e.w1.toNat * 2 ^ 16) 0 4) else s
  let drop := fun (s : State) (size : Nat) =>
    let left := (s.mem.missq.get die []).filter fun e => !(e.vf == q.vf && e.asid == q.asid && e.va / 2 ^ size == q.va / 2 ^ size)
    { s with mem := { s.mem with missq := s.mem.missq.set die left } }
  match w with
  | .page gpa size rd w x => (drop s size).cacheEntry die ⟨q.asid, q.vf, size, q.va / 2 ^ size, gpa, rd, w, x⟩
  | .wait _ => s
  | r =>
    let (kind, level) := match r with | .bad k l => (k, l) | .err c => (8 + c, 0) | _ => (0, 0)
    let s := drop (match r with | .err _ => s.dropBadFill (1024 + die) | _ => s) 16
    s.setWalkBad die (s.mem.walkBad.get die [] ++ [⟨q.asid, q.vf, q.va / 2 ^ 16, kind, level⟩])

/-- `TRANSLATION_WALK_DONE`: of the walks under way the oldest that waits for no table line ends; the others ask for theirs (R36 to R38). -/
def execTranslationWalkDone (die : Nat) (s : State) : Out :=
  let ws := s.walks die
  let s := ws.foldl (fun s qw => match qw.2 with | .wait line => s.waitFill (1024 + die) die line qw.1.vf | _ => s) s
  .next (match ws.find? (fun qw => match qw.2 with | .wait _ => false | _ => true) with
    | some (q, w) => s.walkDone die q w
    | none => s)

/-! ### TLBINV (R39, Table 2-6) -/

/-- Whether TLBINV of a context names a cached translation: by SCOPE, one page, an identifier, or the partition. -/
def State.tlbinvHits (s : State) (k : Nat) (e : TlbEntry) : Bool :=
  let t := (s.ctx k).tlbinv.toNat
  match fld t 61 2 with
  | 0 => e.asid == fld t 52 9 && e.vpage == fld t 0 40 * 2 ^ 16 / 2 ^ e.size
  | 1 => e.asid == fld t 52 9
  | 2 => e.vf == (s.ctx k).vf
  | _ => false

/-- Whether TLBINV of a context names a walk that has failed and whose fault no access has taken yet. -/
def State.tlbinvStale (s : State) (k : Nat) (w : WalkBad) : Bool := s.tlbinvHits k ⟨w.asid, w.vf, 16, w.page, 0, false, false, false⟩

/-- TLBINV of a context with BUSY = 1 and this SCOPE invalidates on every compute die: cached translations, and failed walks of the old
tables. -/
def State.tlbinvNow (s : State) (k scope : Nat) : State :=
  let t := (s.ctx k).tlbinv
  if !t.getLsbD 63 ∨ fld t.toNat 61 2 ≠ scope then s
  else { s with mem := { s.mem with
    tlb := s.mem.tlb.map fun d => (d.1, d.2.filter fun e => !s.tlbinvHits k e)
    walkBad := s.mem.walkBad.map fun d => (d.1, d.2.filter fun w => !s.tlbinvStale k w) } }

/-- `TLBINV_PAGE`: one page of one identifier (R39). -/
def execTlbinvPage (ctx : Nat) (s : State) : Out := .next (s.tlbinvNow ctx 0)

/-- `TLBINV_ASID`: every translation of one identifier (R39). -/
def execTlbinvAsid (ctx : Nat) (s : State) : Out := .next (s.tlbinvNow ctx 1)

/-- `TLBINV_PARTITION`: every identifier of the partition (R39). -/
def execTlbinvPartition (ctx : Nat) (s : State) : Out := .next (s.tlbinvNow ctx 2)

/-- `TLBINV_DONE`: every live compute die has invalidated, and BUSY clears (R39). -/
def execTlbinvDone (ctx : Nat) (s : State) : Out :=
  .next (if (s.ctx ctx).tlbinv.getLsbD 63 && s.mem.tlb.all (fun d => !s.isLive d.1 || d.2.all fun e => !s.tlbinvHits ctx e) &&
      s.mem.walkBad.all (fun d => !s.isLive d.1 || d.2.all fun w => !s.tlbinvStale ctx w)
    then s.upCtx ctx fun c => { c with tlbinv := c.tlbinv &&& 0x7FFFFFFFFFFFFFFF } else s)

end Sys2Proof.Machine
end

