-- ==== Sys2Proof/Machine/Quiesce.lean ====
section
/-!
DEFINITION. Sys2Proof/Machine/Quiesce.lean: dies and links that leave and rejoin (R14, R45 to R48, R117, R182, R198, R199) and machine
checks (R255).
-/

namespace Sys2Proof.Machine

/-! ### Links and routes (R12, R45) -/

/-- A link as the pair of its dies, the lower index first. -/
def linkOf (a b : Nat) : Nat × Nat := (Nat.min a b, Nat.max a b)

/-- Whether two dies are joined by a link (Table 1-2). -/
def isLink (a b : Nat) : Bool :=
  let l := linkOf a b
  if l.2 < 16 then
    (decide (l.1 / 4 = l.2 / 4) && decide (l.2 = l.1 + 1)) || decide (l.2 = l.1 + 4)
  else if l.2 < 32 then decide (l.2 = l.1 + 16)
  else [(0, 32), (4, 32), (3, 33), (7, 33), (8, 34), (12, 34), (11, 35), (15, 35), (1, 36), (2, 36)].contains l

/-- Whether the link between two dies is up. -/
def State.linkUp (s : State) (a b : Nat) : Bool := isLink a b && !s.fab.linksDown.contains (linkOf a b)

/-- Compute dies reachable in up to `n` more hops over live compute dies and links from a set of them (R45). -/
def State.reach (s : State) (from_ : List Nat) (n : Nat) : List Nat :=
  match n with
  | 0 => from_
  | n + 1 =>
    let more := s.liveCompute.filter fun d => !from_.contains d && from_.any fun a => s.linkUp a d
    if more.isEmpty then from_ else s.reach (from_ ++ more) n

/-- Whether a live path joins a compute die to another die. -/
def State.joined (s : State) (die tgt : Nat) : Bool :=
  (s.fab.linksDown.isEmpty && s.pf.left.isEmpty) || (s.reach [die] 16).any fun d => d == tgt || s.linkUp d tgt

/-- Live compute dies that no live path joins to L0 (R182). -/
def State.stranded (s : State) : List Nat :=
  let r := s.reach (s.liveCompute.filter fun d => s.linkUp d Config.linkDie) 16
  s.liveCompute.filter fun d => !r.contains d

/-- L0 quiesces the live dies that no live path reaches, as if by DRST.GO (R47, R182). -/
def State.quiesceStranded (s : State) : State :=
  { s with pf := { s.pf with quiesceQ := s.pf.quiesceQ ++ s.stranded.filter fun d =>
      !s.pf.quiesceQ.contains d && !(decide (s.pf.phase ≠ 0) && s.pf.leaving == d) } }

/-- Whether the installed table lets traffic cross a die, and use a link (R45, R47). -/
def State.tabDie (s : State) (d : Nat) : Bool := s.isLive d && !s.fab.tabDies.contains d

/-- See `State.tabDie`. -/
def State.tabLink (s : State) (a b : Nat) : Bool := isLink a b && !s.fab.tabLinks.contains (linkOf a b)

/-- Numbers from next to `x` to `y`. -/
def numsTo (x y : Nat) : List Nat := if x < y then (List.range (y - x)).map (x + 1 + ·) else (List.range (x - y)).map (x - 1 - ·)

/-- The dimension-ordered route between compute dies: along the row to the target's column, then along the column (R45). -/
def orderedRoute (a b : Nat) : List Nat :=
  (numsTo (a % 4) (b % 4)).map (a / 4 * 4 + ·) ++ (numsTo (a / 4) (b / 4)).map fun r => 4 * r + b % 4

/-- Whether a route from die `a` uses live links and crosses no die that the table avoids. -/
def State.routeOk (s : State) (a : Nat) (route : List Nat) : Bool :=
  match route with
  | [] => true
  | [b] => s.tabLink a b && s.isLive b
  | b :: rest => s.tabLink a b && s.tabDie b && s.routeOk b rest

/-- Hops to a target of the dies from which it can be reached, found in rounds (R45); `src` may itself be on its way out. -/
def State.distances (s : State) (src : Nat) (known : AMap Nat) (k n : Nat) : AMap Nat :=
  match n with
  | 0 => known
  | n + 1 =>
    let more := (List.range 16).filter fun d => !known.has d && (d == src || s.tabDie d) && known.any fun e => e.2 == k && s.tabLink d e.1
    if more.isEmpty then known else s.distances src (known ++ more.map fun d => (d, k + 1)) (k + 1) n

/-- A shortest route by distances to its target: a tie at any hop goes to the neighbour of lower die index (R45). -/
def State.downhill (s : State) (dist : AMap Nat) (a n : Nat) : List Nat :=
  match n with
  | 0 => []
  | n + 1 =>
    match (List.range 16).find? (fun d => s.tabLink a d && dist.has d && decide (dist.get d 0 + 1 = dist.get a 0)) with
    | some d => d :: s.downhill dist d n
    | none => []

/-- The route between two compute dies: the dies after the first (R45); none when no live path joins them. -/
def State.route (s : State) (a b : Nat) : Option (List Nat) :=
  let r := orderedRoute a b
  if s.routeOk a r then some r
  else
    let dist := s.distances a [(b, 0)] 0 16
    if dist.has a then some (s.downhill dist a (dist.get a 0)) else none

/-- The way from a die up the breadth-first tree of the live compute dies to its root, C01, or C02 when C01 is not live (R46). -/
def State.climb (s : State) (a : Nat) : List Nat :=
  let root := if s.isLive 1 then 1 else 2
  let dist := s.distances root [(root, 0)] 0 16
  if dist.has a then s.downhill dist a (dist.get a 0) else []

/-- The up/down route of the escape channel: it climbs to the lowest die of the tree above both, and then descends (R46). -/
def State.escapeRoute (s : State) (a b : Nat) : Option (List Nat) :=
  let ua := a :: s.climb a
  let ub := b :: s.climb b
  match ua.find? ub.contains with
  | none => none
  | some top => some ((ua.drop 1).take (ua.idxOf top) ++ (ub.take (ub.idxOf top)).reverse)

/-- A dovetail entry that cannot be delivered goes, and its pushing stream has a write error of a code (R49, R159). -/
def State.undeliver (s : State) (t : Transit) (code : Nat) : State :=
  let s := { s with fab := { s.fab with
    transit := s.fab.transit.filter fun e => e.pkt.id != t.pkt.id
    railWait := s.fab.railWait.filter fun b => b.pkt != t.pkt.id
    beats := s.fab.beats.filter fun b => b.pkt != t.pkt.id } }
  s.upStrm t.fromCtx (if t.fromReg / 2 = 0 then .m else if t.fromReg / 2 = 1 then .v else .y) fun y => { y with werr := y.werr ++ [⟨0, code, 0⟩] }

/-- Dovetail entries that satisfy `p` complete with an error code. -/
def State.undeliverAll (s : State) (p : Transit → Bool) (code : Nat) : State :=
  (s.fab.transit.filter p).foldl (fun s t => s.undeliver t code) s

/-- A packet takes a new route from the die it stands in, where its old one is broken; none when no live path is left. -/
def State.reroutePkt (s : State) (p : Packet) : Option Packet :=
  match p.dies.getLast? with
  | none => some p
  | some tgt =>
    if s.routeOk p.die p.dies || s.fab.tabDies.contains tgt then some p
    else match (if p.esc then s.escapeRoute p.die tgt else s.route p.die tgt) with
      | none => none
      | some r => some { p with dies := r, leg := if p.leg = .link then .start else p.leg }

/-- L0 recomputes the route table: it avoids the dies that have left or are leaving and the links that have failed (R45, R47). Packets on
their way take it; one that no live path can bring to its target completes with code 4 (R46). -/
def State.reroute (s : State) : State :=
  let s := { s with fab := { s.fab with
    tabDies := s.pf.left ++ (if s.pf.phase ≠ 0 ∧ s.pf.phase ≠ 6 ∧ !s.pf.left.contains s.pf.leaving then [s.pf.leaving] else [])
    tabLinks := s.fab.linksDown } }
  let s := s.undeliverAll (fun t => (s.reroutePkt t.pkt).isNone) 4
  { s with fab := { s.fab with transit := s.fab.transit.map fun t => { t with pkt := (s.reroutePkt t.pkt).getD t.pkt } } }

/-! ### Copies and instances on a die that leaves (R117, R255) -/

/-- A copy's unreleased words and records are forgotten; where it held a role the votes it took part in return to the compare of two copies
(R117). -/
def State.dropCopyWords (s : State) (i : Inst) (copy : Nat) (role : Bool) : State :=
  let mine := fun (key : Nat) => s.prot.keys.any fun e => e.key == key && e.inst == i.id
  let eps := s.prot.epochs.map fun (p : Epoch) =>
    if mine p.key && decide (p.stat ≠ EStat.release) then
      let p := { p with words := p.words.del copy, recs := p.recs.del copy }
      if role then { p with stat := if p.words.isEmpty then EStat.open_ else EStat.half, voters := [] } else p
    else p
  { s with prot := { s.prot with epochs := eps } }

/-- Released records that a lost copy's streams had not sent yet are to be performed by the copy that takes its place (R113, R117; DEDUCED,
notes/assumptions/97.md). -/
def State.returnRecords (s : State) (i : Inst) (ts : List Placed) : State :=
  let cqs := (ts.flatMap Placed.ctxs).flatMap fun k => allStrms.flatMap fun st => (s.strm k st).cq
  let eps := s.prot.epochs.map fun (p : Epoch) =>
    if !(s.prot.keys.any fun e => e.key == p.key && e.inst == i.id) || decide (p.stat ≠ EStat.release) then p
    else
      let back := cqs.filter fun a => p.out.contains a.id && a.sent.isNone
      { p with out := p.out.filter fun n => !(cqs.any fun a => a.id == n)
               recs := match p.recs with
                 | (c, rs) :: rest => (c, back.map (fun a => HeldRec.store a a.va) ++ rs) :: rest
                 | [] => if back.isEmpty then [] else [(i.primary, back.map fun a => HeldRec.store a a.va)] }
  { s with prot := { s.prot with epochs := eps } }

/-- A copy of a class 2 grid point is lost (R117). The survivor takes the primary role, and a tie-break copy that stands, else one that is due,
the secondary role as the replacement; a lost tie-break copy is placed anew. When no other copy stands the task ends with status 8
(DESIGN CHOICE, notes/assumptions/97.md). -/
def State.loseCopy (s : State) (i : Inst) (copy : Nat) : State :=
  let role := copy == i.primary || copy == i.secondary
  let other := if copy = i.primary then i.secondary else i.primary
  let s := s.dropCopyWords i copy role
  let s := s.upInst i.id fun i => { i with teams := i.teams.filter fun t => t.copy != copy }
  if role then
    if !(i.teams.any fun t => t.copy == other) then s.unresolved i
    else s.upInst i.id fun i =>
      match i.tie with
      | some t => { i with primary := other, secondary := t, tie := none, replaced := true }
      | none => { i with primary := other, secondary := i.copyNext, replaced := true, tieDue := true }
  else if i.tie = some copy then s.upInst i.id fun i => { i with tie := none, tieDue := true }
  else s

/-- Every context of the teams of a copy is cleared. -/
def State.clearTeams (s : State) (ts : List Placed) : State :=
  (ts.flatMap Placed.ctxs).foldl (fun s k => s.setCtx k {}) s

/-- Instances with a team on a die that leaves: a class 2 grid point loses the copies that stand there, any other instance ends its task
with status 6 and the code (R117, R255). -/
def State.loseInstances (s : State) (die code : Nat) : State :=
  let on := s.sched.insts.filter fun i => decide (i.stat = .running) && i.teams.any fun t => t.die == die
  on.foldl (fun s i =>
    let pclass := match s.sched.tasks.find? (fun t => t.seq == i.seq) with | some t => t.card.pclass | none => 0
    if pclass ≠ 2 then s.endTask i.seq 6 code 0
    else
      ((i.teams.filter fun t => t.die == die).map Placed.copy).eraseDups.foldl (fun s c =>
        match s.sched.insts.find? (fun j => j.id == i.id) with
        | none => s
        | some j =>
          let mine := j.teams.filter fun t => t.copy == c
          let used := (mine.map s.teamUsage).foldl (· + ·) 0
          (((s.returnRecords j mine).clearTeams mine).upTask j.seq fun t => { t with cyc := t.cyc + used }).loseCopy j c) s) s

/-- Every request addressed to a die that leaves, held anywhere, completes with code 2 (R47). -/
def State.completeTo (s : State) (x : Nat) : State := s.undeliverAll (fun t => dieOf t.toCtx == x && dieOf t.fromCtx != x) 2

/-- A die resets: its streams, views, caches and what travels to it or stands in it are gone, no home awaits its answers, and its counter
reads zero (R30, R47, R167, R182). -/
def State.resetDie (s : State) (x : Nat) : State :=
  let s := s.withdrawOn fun i => i.teams.any fun t => t.die == x
  let s := if x < 16 then s.loseInstances x 2 else s
  let mine := fun k => decide (k / 64 = x)
  let s := s.upStreams fun y => { y with outE := y.outE.filter fun o => o.die != x }
  let tiles := s.tiles.filter fun t => !((t.1.level == 0 && mine t.1.owner) ||
    (t.1.level == 1 && s.sched.insts.any fun i => i.teams.any fun p => p.team == t.1.owner && p.die == x))
  { s with
    cyc := s.cyc.set x (- BitVec.ofNat 64 s.now)
    ctxs := if x < 16 then s.ctxs.filter fun c => !mine c.1 else s.ctxs
    tiles := if x < 16 then tiles else s.tiles
    ord := { s.ord with
      dv := s.ord.dv.del x, dvCheck := s.ord.dvCheck.del x, propAt := s.ord.propAt.del x, ways := s.ord.ways.del x
      held := s.ord.held.map fun h => (h.1, { h.2 with wait := h.2.wait.filter (· ≠ x) })
      ua := s.ord.ua.map fun u => (u.1, u.2.1, u.2.2.1, u.2.2.2.filter (· ≠ x))
      fills := s.ord.fills.filter fun f => f.1 != x
      kHold := s.ord.kHold.filter fun h => h.die != x
      up := s.ord.up.filter fun u => u.die != x
      dn := s.ord.dn.filter fun d => d.die != x }
    mem := { s.mem with
      tlb := s.mem.tlb.del x, missq := s.mem.missq.del x, walkBad := s.mem.walkBad.del x
      window := s.mem.window.filter fun w => w.1 / 512 != x
      waiters := s.mem.waiters.filter fun w => w.1 != 1024 + x && !(decide (w.1 < 1024) && mine w.1)
      fillBad := s.mem.fillBad.filter fun w => w.who != 1024 + x && !(decide (w.who < 1024) && mine w.who) }
    fab := { s.fab with
      transit := s.fab.transit.filter fun t => dieOf t.toCtx != x && dieOf t.fromCtx != x && t.pkt.die != x
      slices := s.fab.slices.filter fun p => p.die != x
      railWait := s.fab.railWait.filter fun b => b.die != x
      beats := s.fab.beats.filter fun b => b.die != x
      routers := s.fab.routers.filter fun r => r.1 / 80 != x }
    pf := { s.pf with left := if s.pf.left.contains x then s.pf.left else s.pf.left ++ [x] } }

/-! ### Quiescing a die (R47) -/

/-- L0 begins to quiesce a die with phase 1: tables are installed with no transit through it. -/
def State.beginQuiesce (s : State) (die : Nat) : State :=
  ({ s with pf := { s.pf with phase := 1, tmo := false, leaving := die } }).reroute

/-- `DRST_GO`: a PF write of GO while PHASE = 0 starts quiescing a live compute or weight die; values above 31 are ignored (R47), and so
is a die that has left already (DESIGN CHOICE, notes/assumptions/61.md). -/
def execDrstGo (die : Nat) (s : State) : Out :=
  .next (let s := { s with pf := { s.pf with drstDie := die % 64 } }
    if s.pf.phase ≠ 0 ∨ 31 < die ∨ !s.isLive die then s else s.beginQuiesce die)

/-- `QUIESCE_START`: a quiesce that L0 starts itself begins once no other runs, in the order of the causes (R47). -/
def execQuiesceStart (s : State) : Out :=
  .next (match s.pf.phase, s.pf.quiesceQ with
    | 0, die :: rest =>
      let s := { s with pf := { s.pf with quiesceQ := rest } }
      if s.isLive die then s.beginQuiesce die else s
    | _, _ => s)

/-- The next phase of a quiesce, or the end of a rejoin (R47): 2 drain begins; 3 the neighbours send the die nothing more and it is no longer
live; 4 what is addressed to it completes with code 2; 5 it resets; 0 all is done, with the tables without it, and dies that no live path
reaches any more are quiesced in turn (R182). A rejoin ends with the home table loaded and the tables with the die. -/
def State.nextPhase (s : State) : State :=
  let x := s.pf.leaving
  let to_ := fun (s : State) (n : Nat) => { s with pf := { s.pf with phase := n } }
  match s.pf.phase with
  | 1 => to_ { s with pf := { s.pf with drainFrom := (s.cycle x).toNat } } 2
  | 2 => to_ { s with pf := { s.pf with left := if s.pf.left.contains x then s.pf.left else s.pf.left ++ [x] } } 3
  | 3 => to_ (s.completeTo x) 4
  | 4 => to_ (s.resetDie x) 5
  | 5 => (to_ s 0).reroute.quiesceStranded
  | 6 => (to_ { s with
      mem := { s.mem with homeCopy := s.mem.homeCopy.set x s.mem.home }
      pf := { s.pf with left := s.pf.left.filter (· ≠ x) } } 0).reroute
  | _ => s

/-- Dovetail entries in the transit buffers of a die: neither its own nor addressed to it. -/
def Transit.crosses (x : Nat) (t : Transit) : Bool := t.pkt.die == x && dieOf t.fromCtx != x && dieOf t.toCtx != x

/-- `QUIESCE_DRAIN_DONE`: the quiesce sequencer goes on to the next phase; from the drain only when the leaving die's transit buffers are
empty (R47). -/
def execQuiesceDrainDone (s : State) : Out :=
  .next (if s.pf.phase = 2 ∧ s.fab.transit.any (Transit.crosses s.pf.leaving) = true then s else s.nextPhase)

/-- What becomes of up-channel messages that are flushed with a code: an E, G or F completes with it, except that E and F of a failed
link, and every other message, are sent again (Table 8-6, R47). -/
def State.flushUps (s : State) (us : List Up) (code : Nat) (resendE : Bool) : State :=
  us.foldl (fun s u => match u.msg with
    | .g .. => (s.takeUp u).sendDn u.die u.line (u.failed code)
    | .e .. | .f => if resendE then s else (s.takeUp u).sendDn u.die u.line (u.failed code)
    | _ => s) s

/-- What becomes of down-channel messages that are flushed: GA is not sent again, nor C and P when a pending check recovers them; the
others are (Table 8-6, R182). -/
def State.flushDns (s : State) (ds : List Dn) (dropCp : Bool) : State :=
  ds.foldl (fun s d => match d.msg with
    | .ga .. => s.takeDn d
    | .c _ | .p _ => if dropCp then s.takeDn d else s
    | _ => s) s

/-- Messages by their places in a channel list. -/
def pickAt {α : Type} (l : List α) (is : List Nat) : List α := is.filterMap fun i => l[i]?

/-- `DRAIN_TIMEOUT`: after 65,536 cycles the packets that are left in the die's transit buffers (channel messages named by their places,
and dovetail entries) complete with code 7, TMO is set, and the quiesce goes on (R47). -/
def execDrainTimeout (ups dns : List Nat) (s : State) : Out :=
  .next (if s.pf.phase ≠ 2 ∨ (s.cycle s.pf.leaving).toNat < s.pf.drainFrom + 65536 then s
    else
      let us := pickAt s.ord.up ups
      let ds := pickAt s.ord.dn dns
      let s := ((s.flushUps us 7 false).flushDns ds false).undeliverAll (Transit.crosses s.pf.leaving) 7
      ({ s with pf := { s.pf with tmo := true } }).nextPhase)

/-- `DRST_JOIN`: a die that has left begins to rejoin with phase 6 (R47). -/
def execDrstJoin (die : Nat) (s : State) : Out :=
  .next (if s.pf.phase ≠ 0 ∨ 31 < die ∨ s.isLive die then s
    else { s with pf := { s.pf with phase := 6, leaving := die, drstDie := die } })

/-! ### Machine checks (R255) -/

/-- Logs a machine check, unless one is logged, and signals the PF's vector 0. -/
def State.logCheck (s : State) (kind die src : Nat) : State :=
  let s := if s.pf.mcstat.valid then s else { s with pf := { s.pf with mcstat := ⟨true, kind, die, src⟩ } }
  s.sendMsix .pf 0

/-- A module check is in force: the scheduler admits, places and completes nothing more. -/
def State.moduleDown (s : State) (die src : Nat) : State :=
  { s.logCheck 2 die src with pf := { (s.logCheck 2 die src).pf with modCheck := true } }

/-- `MODULE_CHECK` (R255). -/
def execModuleCheck (die src : Nat) (s : State) : Out := .next (s.moduleDown die src)

/-- `DIE_CHECK`: the die is reset as by DRST.GO, class 2 copies on it are lost, and every other instance with a team on it ends with
status 6, ERR 1 (R255). -/
def execDieCheck (die src : Nat) (s : State) : Out :=
  .next (if 16 ≤ die ∨ !s.isLive die then s
    else
      let s := (s.logCheck 1 die src).loseInstances die 1
      { s with pf := { s.pf with quiesceQ := s.pf.quiesceQ ++ [die] } })

/-- `MCSTAT_CLEAR`: a write of 1 to VALID clears the log (R255). -/
def execMcstatClear (s : State) : Out := .next { s with pf := { s.pf with mcstat := { s.pf.mcstat with valid := false } } }

/-- Dies of a voltage domain that L0 quiesces: compute dies, then weight dies, ascending (R14, R47). -/
def domainDies (dom : Nat) : List Nat :=
  let q := (List.range 16).filter fun d => quadOf d == dom
  q ++ q.map (16 + ·)

/-- `CONVERTER_FAULT`: the domain's dies leave, one quiesce after another; a memory die or L0 that would leave is a module check (R14, R255). -/
def execConverterFault (dom : Nat) (s : State) : Out :=
  .next (if dom < 4 then
      let s := { s with pf := { s.pf with quiesceQ := s.pf.quiesceQ ++ (domainDies dom).filter s.isLive } }
      s.moduleDown (Config.memDie dom) 6
    else if dom = 4 then s.moduleDown Config.linkDie 6
    else s)

/-! ### Links (R45, R46, R48) -/

/-- Lines written by a store that is in the coherence order, on its way to its home, or in the die's view. -/
def State.linesOf (s : State) (die id : Nat) : List Nat :=
  let a := (s.ord.co.filter fun (w : CoWrite) => w.writer == id).map fun (w : CoWrite) => w.loc / 64
  let b := s.ord.up.filterMap fun (u : Up) => match u.msg with | .e i _ => if i = id then some u.line else none | _ => none
  let c := (s.ord.dv.get die []).filterMap fun (b : Nat × DvByte) => if b.2.writer = id then some (b.1 / 64) else none
  (a ++ b ++ c).eraseDups

/-- The pending check of one die: K for every line with a pending identifier, and for every line written by an observed store; reads
of pending bytes of those lines wait for KR (R199). -/
def State.pendingCheck (s : State) (die : Nat) : State :=
  let pend := (s.ord.dv.get die []).filterMap fun b => if b.2.pend.isSome then some (b.1 / 64) else none
  let seen := ((dieCtxs s die).flatMap fun k => allStrms.flatMap fun st => (s.strm k st).obs.map Prod.fst).eraseDups
  ((pend ++ seen.flatMap (s.linesOf die)).eraseDups).foldl (fun s line =>
    { s with ord := { s.ord with kHold := s.ord.kHold ++ [KHold.mk die line []] } }.sendUp die line 0 .k) s

/-- Whether a packet waits for, or crosses, a link. -/
def Packet.onLink (p : Packet) (a b : Nat) : Bool :=
  decide (p.leg = .link) && match p.dies with | n :: _ => decide (linkOf p.die n = linkOf a b) | [] => false

/-- `LINK_FAILURE`: the packets that wait for the link (channel messages named by their places, and dovetail entries) are flushed with
code 3, with the weight-die queries on it, the tables are reinstalled, dies that no live path reaches are quiesced, and every live compute
die makes its pending check (R48, R159, R182, R198, R199). -/
def execLinkFailure (a b : Nat) (ups dns : List Nat) (s : State) : Out :=
  .next (if !s.linkUp a b then s
    else
      let us := pickAt s.ord.up ups
      let ds := pickAt s.ord.dn dns
      let s := ((s.flushUps us 3 true).flushDns ds true).undeliverAll (fun t => t.pkt.onLink a b) 3
      let s := ({ s with fab := { s.fab with linksDown := s.fab.linksDown ++ [linkOf a b] } }).reroute
      let s := if b = 16 + a then s.flushQueries a else s
      s.liveCompute.foldl State.pendingCheck s.quiesceStranded)

/-- `LINK_REJOIN`: a failed link retrains, and the table is recomputed with it (R45). -/
def execLinkRejoin (a b : Nat) (s : State) : Out :=
  .next ({ s with fab := { s.fab with linksDown := s.fab.linksDown.filter fun l => decide (l ≠ linkOf a b) } }).reroute

/-- Cycles that a packet waits at one hop for a credit before it moves to the escape channel (R46). -/
def escapeWait : Nat := 64

/-- `ESCAPE_CHANNEL_SWITCH`: a packet that has waited 64 cycles for a credit moves to the escape channel and stays on it; one that no live
path can bring to its target completes with code 4 (R46). Packets are messages of the up channels (kind 0) and of the down channels (1),
which carry no place on their way (notes/assumptions/62.md), and dovetail entries (2). -/
def execEscapeChannelSwitch (kind idx : Nat) (s : State) : Out :=
  .next (match kind with
    | 0 =>
      (match s.ord.up[idx]? with
        | none => s
        | some u =>
          let far := match s.homeAt u with | .at_ m _ => !s.joined u.die (Config.memDie m) | _ => false
          if far && u.msg.waits then (s.takeUp u).sendDn u.die u.line (u.failed 4)
          else if s.now < u.at_ + escapeWait then s
          else { s with ord := { s.ord with up := s.ord.up.set idx { u with esc := true } } })
    | 1 =>
      (match s.ord.dn[idx]? with
        | none => s
        | some d =>
          if !s.joined d.die (Config.memDie (s.lineHome d.line)) then s.takeDn d
          else if s.now < d.at_ + escapeWait then s
          else { s with ord := { s.ord with dn := s.ord.dn.set idx { d with esc := true } } })
    | _ =>
      (match s.fab.transit[idx]? with
        | none => s
        | some t =>
          let p := t.pkt
          match p.dies.getLast? with
          | none => s
          | some tgt =>
            if decide (p.leg ≠ .link) || p.esc || decide ((s.cycle p.die).toNat < p.since + escapeWait) then s
            else match s.escapeRoute p.die tgt with
              | none => s.undeliver t 4
              | some r => { s with fab := { s.fab with transit := s.fab.transit.set idx { t with pkt := { p with esc := true, dies := r } } } }))

end Sys2Proof.Machine
end

