-- ==== Sys2Proof/Machine/Registers.lean ====
section
/-!
DEFINITION. Sys2Proof/Machine/Registers.lean: the host's writes of the management and function windows (R7, R8, R52, R54): ownership,
partitions, weight windows, plain registers, command queues, and the fetch of task cards (R55 to R63, R68 to R71).
-/

namespace Sys2Proof.Machine

/-! ### Ownership and partitions (R55 to R58) -/

/-- Whether a partition owns an engine of every kind in ENG on a core. -/
def State.ownsAll (s : State) (vf core eng : Nat) : Bool := (List.range 3).all fun kind => !eng.testBit kind || s.ownsEngine vf core kind

/-- ENG of a task. -/
def State.engOf (s : State) (seq : Nat) : Nat :=
  match s.sched.tasks.find? (fun t => t.seq == seq) with
  | some t => t.card.eng
  | none => 0

/-- The first of a list at or above `turn`, else the first (a rotation by ascending number). -/
def nextTurn (turn : Nat) (l : List Nat) : Option Nat :=
  match l.find? (fun n => decide (turn ≤ n)) with
  | some n => some n
  | none => l.head?

/-- Whether a partition has work on an engine of a core: a placed grid point whose card needs that kind there. -/
def State.workOn (s : State) (vf core kind : Nat) : Bool :=
  s.sched.insts.any fun i => i.vf == vf && decide (i.stat = .running) && (s.engOf i.seq).testBit kind && i.ctxs.any fun k => k / 4 == core

/-- Members of the pool that an engine belongs to, ascending; none for an engine that is in no pool (R55, R58). -/
def State.members (s : State) (core kind : Nat) : List Nat :=
  let e := (s.pf.own.get (3 * core + kind) 0).toNat
  if fld e 30 2 ≠ 2 then []
  else sortBy id ((s.pf.pctl.map Prod.fst).eraseDups.filter fun vf => s.entryFor vf e)

/-- Members of an engine's pool that have work placed on it, ascending. -/
def State.busyMembers (s : State) (core kind : Nat) : List Nat := (s.members core kind).filter fun vf => s.workOn vf core kind

/-- The member that a pool engine serves (R58). -/
def State.serves (s : State) (core kind : Nat) : Option Nat :=
  (s.pf.poolNow.get (3 * core + kind) none).filter fun vf => (s.busyMembers core kind).contains vf

/-- The slice of a pool engine's next member begins: the one in turn, past those with no work placed on it; none when no member has (R58). -/
def State.nextMember (s : State) (key : Nat) : State :=
  match nextTurn (s.pf.poolTurn.get key 0) (s.busyMembers (key / 3) (key % 3)) with
  | none => if (s.pf.poolNow.get key none).isNone then s else { s with pf := { s.pf with poolNow := s.pf.poolNow.set key none } }
  | some vf => { s with pf := { s.pf with
      poolNow := s.pf.poolNow.set key (some vf)
      poolTurn := s.pf.poolTurn.set key (vf + 1)
      poolFrom := s.pf.poolFrom.set key (s.cycle (key / 48)).toNat } }

/-- Every pool engine that serves no member with work takes the next one (R58). -/
def State.turnPools (s : State) : State :=
  ((s.pf.own.filter fun e => fld e.2.toNat 30 2 = 2).map Prod.fst).foldl
    (fun s key => if (s.serves (key / 3) (key % 3)).isSome then s else s.nextMember key) s

/-- Whether a grid point stands on a core without owning every engine kind its card needs there. -/
def State.unowned (s : State) (i : Inst) : Bool := i.ctxs.any fun k => !s.ownsAll i.vf (k / 4) (s.engOf i.seq)

/-- A change of ownership of engines of some cores: contexts are assigned anew, every preload on these cores is withdrawn, and running grid
points that lost an engine are to be pre-empted as at a time-slice end (R56, Table 4-6). -/
def State.ownerChanged (s : State) (cores : List Nat) : State :=
  let s := cores.foldl State.assignCtxs s
  let s := s.withdrawOn fun i => i.ctxs.any fun k => cores.contains (k / 4)
  ((s.sched.insts.filter fun i => decide (i.stat = .running) && s.unowned i).foldl (fun s i => s.preemptDue i.id) s).turnPools

/-- `OWNERSHIP_WRITE`: MODE 3 is ignored, and so is a write that would let five partitions use a core (R55, R56). -/
def execOwnershipWrite (idx v : Nat) (s : State) : Out :=
  let w := BitVec.ofNat 32 v &&& 0xC0001FFF
  let s' := { s with pf := { s.pf with own := s.pf.own.set idx w } }
  .next (if 768 ≤ idx ∨ fld w.toNat 30 2 = 3 ∨ s'.overused then s
    else if s.pf.own.get idx 0 = w then s' else s'.ownerChanged [idx / 3])

/-- The WAYS of the other sealed partitions, ORed. -/
def State.otherWays (s : State) (vf : Nat) : Nat :=
  ((s.sealedVfs.filter (· ≠ vf)).map s.waysOf).foldl (fun a w => a ||| w) 0

/-- The SLOTS of the other sealed partitions, ORed. -/
def State.otherSlots (s : State) (vf : Nat) : Nat :=
  ((s.sealedVfs.filter (· ≠ vf)).map s.slotsOf).foldl (fun a w => a ||| w) 0

/-- Whether WAYS may stand in a sealed partition (R57, R60). -/
def State.waysFit (s : State) (vf ways : Nat) : Bool :=
  decide (ways ≠ 0) && decide (ways &&& s.otherWays vf = 0) && decide (ways ||| s.otherWays vf ≠ 0xFFFF)

/-- Whether a write of PCTL.word0 is ignored (R57). The eight sealed partitions are counted without the one that is written: a write that
keeps SEAL = 1 of one of eight is taken (DESIGN CHOICE, notes/assumptions/91.md). -/
def State.pctl0Ignored (s : State) (vf w : Nat) : Bool :=
  let slots := fld w 0 16
  let sealing := bit w 30
  (sealing && (decide (slots = 0) || bit w 28 || decide (8 ≤ (s.sealedVfs.filter (· ≠ vf)).length) || !s.waysFit vf (s.waysOf vf))) ||
    decide (slots &&& s.otherSlots vf ≠ 0) || decide (s.waysOf vf &&& s.otherWays vf ≠ 0)

/-- MSI-X vectors that the physical function and every partition hold, with `n` for partition `vf` (R69). -/
def State.vectorSum (s : State) (vf n : Nat) : Nat :=
  16 + ((List.range 512).map fun f => if f = vf then n else s.vecn f).foldl (· + ·) 0

/-- Replaces a partition's PCTL. -/
def State.setPctl (s : State) (vf : Nat) (p : Pctl) : State := { s with pf := { s.pf with pctl := s.pf.pctl.set vf p } }

/-- `PCTL_WRITE`: one word of a partition's PCTL, ignored as a whole where R56, R57 or R69 says so; PCT and WIN are expert fields (R54). -/
def execPctlWrite (vf word v : Nat) (s : State) : Out :=
  let p := s.pctl vf
  .next (if 512 ≤ vf then s
    else match word with
    | 0 =>
      let w := BitVec.ofNat 32 v &&& 0xFF00FFFF
      let s' := s.setPctl vf { p with w0 := w }
      if s.pctl0Ignored vf w.toNat ∨ s'.overused then s
      else if p.w0 &&& 0x1F000000 = w &&& 0x1F000000 then s'
      else s'.ownerChanged (((s.pf.own.filter fun o => s.entryFor vf o.2.toNat != s'.entryFor vf o.2.toNat).map fun o => o.1 / 3).eraseDups)
    | 1 =>
      let w := BitVec.ofNat 32 v &&& 0x00000FFF
      if 16 < w.toNat ∨ 2048 < s.vectorSum vf w.toNat then s else s.setPctl vf { p with w1 := w }
    | 2 =>
      let w := BitVec.ofNat 32 v
      s.setPctl vf { p with w2 := if s.pf.expert then w &&& 0xFF00FFFF else (p.w2 &&& 0x7F000000) ||| (w &&& 0x8000FFFF) }
    | 3 =>
      let w := BitVec.ofNat 32 v &&& 0x0000FFFF
      if s.isSealed vf && !s.waysFit vf w.toNat then s else s.setPctl vf { p with w3 := w }
    | _ => s)

/-! ### Weight windows (R398) -/

/-- A weight window as base and size in units of 64 KiB. -/
def Two.units (w : Two) : Nat × Nat := (fld w.w0.toNat 0 12, fld w.w1.toNat 0 13)

/-- Whether two weight windows overlap. -/
def windowsMeet (a b : Nat × Nat) : Bool := decide (0 < a.2) && decide (0 < b.2) && decide (a.1 < b.1 + b.2) && decide (b.1 < a.1 + a.2)

/-- `WWIN_WRITE`: one word of a partition's weight window, ignored when windows would overlap or pass 4,096 units (R398). -/
def execWwinWrite (vf word v : Nat) (s : State) : Out :=
  let w := s.pf.wwin.get vf {}
  let w' : Two := if word = 0 then { w with w0 := BitVec.ofNat 32 v &&& 0xFFF } else { w with w1 := BitVec.ofNat 32 v &&& 0x1FFF }
  .next (if 512 ≤ vf ∨ 1 < word ∨ 4096 < w'.units.1 + w'.units.2 ∨
      (s.pf.wwin.any fun o => decide (o.1 ≠ vf) && windowsMeet o.2.units w'.units) then s
    else { s with pf := { s.pf with wwin := s.pf.wwin.set vf w' } })

/-! ### Plain registers (R7, R8, R52, R54) -/

/-- Changes a partition's function window. -/
def State.upVf (s : State) (vf : Nat) (f : VfSt → VfSt) : State := { s with vfs := s.vfs.set vf (f (s.vfs.get vf {})) }

/-- A queue of a partition. -/
def State.queue (s : State) (vf q : Nat) : Queue := (s.vfs.get vf {}).queues.get q {}

/-- Replaces a queue. -/
def State.setQueue (s : State) (vf q : Nat) (x : Queue) : State := s.upVf vf fun v => { v with queues := v.queues.set q x }

/-- EXPERT of a function; clearing it returns every expert field of the function to its reset value at once (R54). -/
def State.setExpert (s : State) (fn : Fn) (flag : Bool) : State :=
  match fn with
  | .pf =>
    if flag then { s with pf := { s.pf with expert := true } }
    else { s with pf := { s.pf with
      expert := false
      slice := []
      pctl := s.pf.pctl.map fun e => (e.1, { e.2 with w2 := (e.2.w2 &&& 0x8000FFFF) ||| 0x4E000000 })
      susp := s.pf.susp.map fun e => (e.1, { e.2 with score := 0 }) } }
  | .vf n =>
    if flag then s.upVf n fun v => { v with expert := true }
    else s.upVf n fun v => { v with expert := false, queues := v.queues.map fun q => (q.1, { q.2 with nopre := false }) }

/-- One word of a two-word register. -/
def Two.put (t : Two) (word : Nat) (v m0 m1 : BitVec 32) : Two :=
  match word with
  | 0 => { t with w0 := v &&& m0 }
  | 1 => { t with w1 := v &&& m1 }
  | _ => t

/-- A write of the management window to a register without behaviour of its own, by offset (Table 3-2). No offset of it reaches a stage-2
entry, whose V and FRAME are RW but to which the spec gives no region (DESIGN CHOICE, notes/assumptions/93.md). -/
def State.pfWrite (s : State) (off : Nat) (v : BitVec 32) : State :=
  let pf := s.pf
  if off = 0x100 then s.setExpert .pf (v.getLsbD 0)
  else if off = 0x4000 then { s with pf := { pf with migEn := v.getLsbD 31, migThr := fld v.toNat 0 8 } }
  else if off = 0x4100 then { s with pf := { pf with drstDie := fld v.toNat 0 6 } }
  else if 0x4300 ≤ off ∧ off < 0x4300 + 16 * 37 then
    let die := (off - 0x4300) / 16
    let e := pf.ecc.get die {}
    match (off - 0x4300) % 16 with
    | 0 => { s with pf := { pf with ecc := pf.ecc.set die { e with cecnt := v } } }
    | 4 => { s with pf := { pf with ecc := pf.ecc.set die { e with uecnt := v } } }
    | _ => s
  else if off = 0x4600 then { s with pf := { pf with fwAddr := (pf.fwAddr &&& 0xFFFFFFFF00000000) ||| v.zeroExtend 64 } }
  else if off = 0x4604 then { s with pf := { pf with fwAddr := (pf.fwAddr &&& 0xFFFFFFFF) ||| (v.zeroExtend 64 <<< 32) } }
  else if off = 0x4608 then { s with pf := { pf with fwLen := v } }
  else if 0x4700 ≤ off ∧ off < 0x4710 ∧ off % 4 = 0 then
    { s with pf := { pf with savewin := pf.savewin.set ((off - 0x4700) / 4) (v &&& 0x8000FFFF) } }
  else if 0x8000 ≤ off ∧ off < 0x8100 then s.msixWrite .pf off v
  else if 0x10000 ≤ off ∧ off < 0x10000 + 8 * 512 ∧ off % 4 = 0 then
    let n := (off - 0x10000) / 8
    { s with pf := { pf with htwin := pf.htwin.set n ((pf.htwin.get n {}).put (off % 8 / 4) v 0x3FFFF 0x3FFFF) } }
  else if 0x20000 ≤ off ∧ off < 0x20000 + 16 * 512 ∧ off % 4 = 0 then
    let n := (off - 0x20000) / 16
    { s with pf := { pf with ase := pf.ase.set n ((pf.ase.get n {}).put (off % 16 / 4) v 0x800001FF 0xFFFFFFFF) } }
  else if 0x50000 ≤ off ∧ off < 0x50000 + 4 * 16 ∧ off % 4 = 0 then
    (if pf.expert then { s with pf := { pf with slice := pf.slice.set ((off - 0x50000) / 4) (fld v.toNat 0 5) } } else s)
  else s

/-- One word of a remote connection entry (Table 17-5). -/
def Conn17.put (c : Conn17) (word : Nat) (v : BitVec 32) : Conn17 :=
  match word with
  | 0 => { c with w0 := v &&& 0xF0FFFFFF }
  | 5 => { c with rkey := v }
  | 6 | 7 => c
  | w =>
    let sh := 32 * (w - 1)
    { c with gid := (c.gid &&& ~~~(BitVec.ofNat 128 0xFFFFFFFF <<< sh)) ||| (v.zeroExtend 128 <<< sh) }

/-- Replaces one 32-bit half of a 64-bit register: the low half at a multiple of 8, else the high one. -/
def putHalf (x : Word) (off v : Nat) : Word :=
  if off % 8 = 0 then (x &&& 0xFFFFFFFF00000000) ||| BitVec.ofNat 64 (v % 2 ^ 32)
  else (x &&& 0xFFFFFFFF) ||| (BitVec.ofNat 64 (v % 2 ^ 32) <<< 32)

/-- A write of a function window to a register without behaviour of its own, by offset (R52, R127, Table 3-7, Table 17-5). A write is of
32 bits; a 64-bit register takes two (notes/assumptions/34.md). -/
def State.vfWrite (s : State) (vf off v : Nat) : State :=
  if off = 0x100 then s.setExpert (.vf vf) (bit v 0)
  else if off = 0x200 ∨ off = 0x204 then s.upVf vf fun x => { x with ckbase := putHalf x.ckbase off v }
  else if off = 0x208 ∨ off = 0x20C then s.upVf vf fun x => { x with cklen := putHalf x.cklen off v }
  else if off = 0x210 then s.upVf vf fun x => { x with rst := bit v 30, pullok := bit v 29 }
  else if 0x1000 ≤ off ∧ off < 0x1400 then
    let x := s.queue vf (off % 0x1000 / 0x100)
    if x.stat ≠ 0 ∨ x.infl ≠ 0 then s
    else if off % 0x100 = 0 ∨ off % 0x100 = 4 then s.setQueue vf (off % 0x1000 / 0x100) { x with qbase := putHalf x.qbase off v }
    else if off % 0x100 = 0x18 ∨ off % 0x100 = 0x1C then s.setQueue vf (off % 0x1000 / 0x100) { x with cbase := putHalf x.cbase off v }
    else s
  else if 0x4000 ≤ off ∧ off < 0x6000 ∧ off % 4 = 0 then
    let n := (off - 0x4000) / 32
    s.upVf vf fun x => { x with conns := x.conns.set n ((x.conns.get n {}).put (off % 32 / 4) (BitVec.ofNat 32 v)) }
  else if 0x8000 ≤ off ∧ off < 0x8100 then s.msixWrite (.vf vf) off (BitVec.ofNat 32 v)
  else s

/-- `REGISTER_WRITE`: RW fields take the value; RO and Reserved fields, and offsets in no region, ignore it (R7, R8, R52). -/
def execRegisterWrite (fn : Fn) (off v : Nat) (s : State) : Out :=
  .next (match fn with
    | .pf => s.pfWrite off (BitVec.ofNat 32 v)
    | .vf n => if 512 ≤ n then s else s.vfWrite n off v)

/-- `EXPERT_CLEAR`: a write that clears CTLLVL.EXPERT (R54). -/
def execExpertClear (fn : Fn) (s : State) : Out := .next (s.setExpert fn false)

/-! ### Command queues (R62, R63, R70) -/

/-- A queue faults: STATE 3 with a cause, and its vector is sent (R62, R63, R69). -/
def State.queueFaults (s : State) (vf q cause : Nat) : State :=
  (s.setQueue vf q { s.queue vf q with stat := 3, cause := cause }).sendMsix (.vf vf) (s.queue vf q).vec

/-- Cards between the producer's index and the next one to fetch (R63). -/
def Queue.waiting (x : Queue) : Nat := (x.pidx - x.cidx).toNat

/-- Whether a queue's configuration passes R62. -/
def State.queueFits (s : State) (vf : Nat) (x : Queue) : Bool :=
  decide (4 ≤ x.qlog) && decide (x.qlog ≤ 16) && decide (4 ≤ x.clog) && decide (x.clog ≤ 16) && decide (x.qbase.toNat % 512 = 0) &&
    decide (x.cbase.toNat % 32 = 0) && decide (x.vec < s.vecn vf)

/-- Setting EN: the configuration and the overrun are checked, and fetching begins (R62, R63). Ignored while STATE = 2. -/
def State.enable (s : State) (vf q : Nat) : State :=
  let x := s.queue vf q
  if x.en ∨ x.stat = 2 then s
  else
    let s := s.setQueue vf q { x with en := true, stat := 1, cause := 0 }
    if !s.queueFits vf x then s.queueFaults vf q 3
    else if 2 ^ x.qlog < x.waiting then s.queueFaults vf q 2
    else s

/-- STATE 2 ends when no admitted task remains (R70). -/
def State.drainedQueue (s : State) (vf q : Nat) : State :=
  let x := s.queue vf q
  if x.stat = 2 ∧ x.infl = 0 then s.setQueue vf q { x with stat := 0 } else s

/-- Clearing EN: a card whose fetch has begun is dropped; the queue drains, aborts its tasks, or from STATE 3 is off at once (R70). -/
def State.disable (s : State) (vf q : Nat) : State :=
  let x := s.queue vf q
  if !x.en then s
  else
    let s := { s with sched := { s.sched with
      fetching := if s.sched.fetching = some (vf, q) then none else s.sched.fetching
      fetched := s.sched.fetched.filter fun c => !(c.1 == vf && c.2.1 == q) } }
    if x.abort then
      let s := s.setQueue vf q { x with en := false, stat := 2, cause := 0 }
      let mine := s.sched.tasks.filter fun t => t.vf == vf && t.q == q && decide (t.stat ≠ .ended)
      (mine.foldl (fun s t => s.endTask t.seq 7 0 0) s).drainedQueue vf q
    else if x.stat = 3 then s.setQueue vf q { x with en := false, stat := 0, cause := 0 }
    else (s.setQueue vf q { x with en := false, stat := 2 }).drainedQueue vf q

/-- A write of QCFG (Table 3-7): while STATE ≠ 0 or INFL ≠ 0 only EN and ABORT are taken; NOPRE is an expert field. -/
def State.writeQcfg (s : State) (vf q v : Nat) : State :=
  let x := s.queue vf q
  let y : Queue :=
    if x.stat ≠ 0 ∨ x.infl ≠ 0 then { x with abort := bit v 30 }
    else { x with
      abort := bit v 30, vec := fld v 16 4, clog := fld v 8 5, qlog := fld v 0 5
      nopre := if (s.vfs.get vf {}).expert then bit v 29 else x.nopre }
  let s := s.setQueue vf q y
  if bit v 31 then s.enable vf q else s.disable vf q

/-- `QUEUE_ENABLE`: a write of QCFG that sets EN (R62). -/
def execQueueEnable (vf q v : Nat) (s : State) : Out := .next (if 512 ≤ vf ∨ 4 ≤ q then s else s.writeQcfg vf q (v % 2 ^ 31 + 2 ^ 31))

/-- `QUEUE_DRAIN`: a write of QCFG with EN = 0 and ABORT = 0 (R70). -/
def execQueueDrain (vf q v : Nat) (s : State) : Out := .next (if 512 ≤ vf ∨ 4 ≤ q then s else s.writeQcfg vf q (v % 2 ^ 30))

/-- `QUEUE_ABORT`: a write of QCFG with EN = 0 and ABORT = 1 (R70). -/
def execQueueAbort (vf q v : Nat) (s : State) : Out := .next (if 512 ≤ vf ∨ 4 ≤ q then s else s.writeQcfg vf q (v % 2 ^ 30 + 2 ^ 30))

/-- `PIDX_WRITE`: the producer index is stored, and while STATE = 1 the overrun is checked (R63). -/
def execPidxWrite (vf q v : Nat) (s : State) : Out :=
  .next (if 512 ≤ vf ∨ 4 ≤ q then s
    else
      let x := { s.queue vf q with pidx := BitVec.ofNat 32 v }
      let s := s.setQueue vf q x
      if x.stat = 1 ∧ 2 ^ x.qlog < x.waiting then s.queueFaults vf q 2 else s)

/-! ### Completion records (R66 to R69) -/

/-- The four quadwords of a completion record with its phase bit (Table 3-10). -/
def Record.quads (r : Record) (ph : Nat) : List Nat :=
  [r.status % 256 * 2 ^ 8 + ph * 2 ^ 24 + r.err % 16 * 2 ^ 28 + r.tag % 2 ^ 32 * 2 ^ 32, r.cyc % 2 ^ 48, r.seq % 2 ^ 48, r.fva % 2 ^ 64]

/-- Whether a queue's completion ring is full (R68); one that holds more records than its present CLOG allows, lowered while the queue was
off, is full too (DESIGN CHOICE, notes/assumptions/92.md). -/
def Queue.full (x : Queue) : Bool := decide (2 ^ x.clog ≤ (x.ctail - x.chead).toNat)

/-- Writes a record at index CTAIL (R63, R66). -/
def State.writeRecord (s : State) (vf q : Nat) (r : Record) : State :=
  let x := s.queue vf q
  let j := x.ctail.toNat
  let ph := 1 - j / 2 ^ x.clog % 2
  let at_ := (x.cbase.toNat + 32 * (j % 2 ^ x.clog)) % 2 ^ 64
  let s := ((List.range 4).zip (r.quads ph)).foldl (fun s p => s.hostWrite (at_ + 8 * p.1) 8 p.2) s
  s.setQueue vf q { x with ctail := x.ctail + 1 }

/-- A record of a task or a rejected card: written, or held in order while the ring is full (R66, R68). -/
def State.putRecord (s : State) (vf q : Nat) (r : Record) : State :=
  let x := s.queue vf q
  if x.full ∨ x.heldRecs ≠ [] then s.setQueue vf q { x with heldRecs := x.heldRecs ++ [r] } else s.writeRecord vf q r

/-- Held records are written while the ring has room. -/
def State.flushRecords (s : State) (vf q : Nat) (rs : List Record) : State :=
  match rs with
  | [] => s.setQueue vf q { s.queue vf q with heldRecs := [] }
  | r :: rest =>
    if (s.queue vf q).full then s.setQueue vf q { s.queue vf q with heldRecs := r :: rest }
    else (s.writeRecord vf q r).flushRecords vf q rest

/-- `CHEAD_WRITE`: taken only within the records written; held records are written as room allows, with one message (R68, R69). -/
def execCheadWrite (vf q v : Nat) (s : State) : Out :=
  let x := s.queue vf q
  let w := BitVec.ofNat 32 v
  .next (if 512 ≤ vf ∨ 4 ≤ q ∨ (x.ctail - x.chead).toNat < (w - x.chead).toNat then s
    else
      let s := s.setQueue vf q { x with chead := w }
      if s.pf.modCheck ∨ x.heldRecs = [] then s
      else
        let s' := s.flushRecords vf q x.heldRecs
        if (s'.queue vf q).ctail = x.ctail then s' else s'.sendMsix (.vf vf) x.vec)

/-! ### Card fetch (R63, R64, R71) -/

/-- Whether a checkpoint of a partition is in progress: nothing of it is fetched, admitted or placed (R130). -/
def State.frozen (s : State) (vf : Nat) : Bool := decide ((s.vfs.get vf {}).ckstatus = 1)

/-- Queues of a partition with a card to fetch. -/
def State.fetchable (s : State) (vf : Nat) : List Nat :=
  (List.range 4).filter fun q => decide ((s.queue vf q).stat = 1) && decide ((s.queue vf q).waiting ≠ 0)

/-- `CARD_FETCH`: the fetch of card CIDX of the next running queue in rotation begins (R63). -/
def execCardFetch (s : State) : Out :=
  let vfs := (List.range 512).filter fun vf => s.vfs.has vf && !s.frozen vf && !(s.fetchable vf).isEmpty
  .next (if s.pf.modCheck ∨ s.sched.fetching.isSome then s
    else match nextTurn s.sched.vfTurn vfs with
    | none => s
    | some vf =>
      match nextTurn (s.sched.qTurn.get vf 0) (s.fetchable vf) with
      | none => s
      | some q => { s with sched := { s.sched with
        vfTurn := vf + 1, qTurn := s.sched.qTurn.set vf (q + 1), fetching := some (vf, q) } })

/-- A region of a card or an overflow list from its two quadwords, and whether its must-be-zero bits are zero. -/
def regionOf (q0 q1 : Nat) : Region × Bool := (⟨fld q0 0 56, fld q1 0 40, fld q1 40 2⟩, fld q0 56 8 == 0 && fld q1 42 22 == 0)

/-- The card in 64 quadwords (Table 3-8). -/
def cardOf (q : Nat → Nat) : Card :=
  let q0 := q 0
  let q1 := q 1
  let q6 := q 6
  let nstage := fld q0 16 4
  let succn := fld q6 24 4
  let fpn := fld q6 16 5
  let stage := fun s => q (8 + s)
  let succ := fun i => fld (q (16 + i / 2)) (32 * (i % 2)) 32
  let region := fun n => regionOf (q (32 + 2 * n)) (q (33 + 2 * n))
  let mbz := fld q0 25 7 == 0 && fld q0 14 2 == 0 && fld q1 57 7 == 0 && fld (q 3) 56 8 == 0 && fld (q 4) 56 8 == 0 && fld (q 5) 56 8 == 0 &&
    fld q6 45 19 == 0 && fld q6 28 4 == 0 && fld q6 21 3 == 0 && q 7 == 0 &&
    ((List.range 8).all fun s => if s < nstage then fld (stage s) 40 24 == 0 else stage s == 0) &&
    ((List.range 8).all fun i => decide (i < succn) || succ i == 0) &&
    ((List.range 4).all fun i => q (28 + i) == 0) &&
    ((List.range 16).all fun n => if n < fpn then (region n).2 else q (32 + 2 * n) == 0 && q (33 + 2 * n) == 0)
  { tag := fld q0 32 32, mbz := mbz, eng := fld q0 22 3, team := fld q0 20 2, nstage := nstage, shrink := bit q0 13
    pclass := fld q0 11 2, prio := fld q0 8 3, version := fld q0 0 8, asid := fld q1 48 9
    gz := fld q1 32 16, gy := fld q1 16 16, gx := fld q1 0 16, wait := fld (q 2) 48 16, budget := fld (q 2) 0 48
    code := fld (q 3) 0 56, ttab := fld (q 4) 0 56, ttabn := fld q6 32 13, ovf := fld (q 5) 0 56, ovfn := fld q6 0 16
    stages := (List.range (Nat.min nstage 8)).map fun s => (fld (stage s) 32 8, fld (stage s) 0 32)
    succ := (List.range (Nat.min succn 8)).map succ
    args := (List.range 8).map fun j => BitVec.ofNat 64 (q (20 + j))
    regions := (List.range (Nat.min fpn 16)).map fun n => (region n).1 }

/-- SUCCN and FPN within their ranges, which the card's lists no longer show. -/
def countsFit (q : Nat → Nat) : Bool := decide (fld (q 6) 24 4 ≤ 8) && decide (fld (q 6) 16 5 ≤ 16)

/-- `CARD_FETCH_DONE`: all 512 bytes of card CIDX are read, and CIDX is incremented (R63). -/
def execCardFetchDone (s : State) : Out :=
  .next (match s.sched.fetching with
    | none => s
    | some (vf, q) =>
      let x := s.queue vf q
      let base := x.qbase.toNat + 512 * (x.cidx.toNat % 2 ^ x.qlog)
      let quad := fun n => s.hostNat ((base + 8 * n) % 2 ^ 64) 8
      let c := cardOf quad
      let c := { c with mbz := c.mbz && countsFit quad }
      { s.setQueue vf q { x with cidx := x.cidx + 1 } with
        sched := { s.sched with fetching := none, fetched := s.sched.fetched ++ [(vf, q, c)] } })

/-- `CARD_FETCH_FAULT`: a host-memory fault leaves the card unadmitted; STATE 3 and CAUSE 1, and CIDX stays (R71). -/
def execCardFetchFault (s : State) : Out :=
  .next (match s.sched.fetching with
    | none => s
    | some (vf, q) => { s with sched := { s.sched with fetching := none } }.queueFaults vf q 1)

end Sys2Proof.Machine
end

