-- ==== Sys2Proof/Machine/Endings.lean ====
section
/-!
DEFINITION. Sys2Proof/Machine/Endings.lean: streams at rest (R183, R246), contexts and grid points that are over, and phase 1 of a scheduler
step: decrements, cancels and completion records (R66, R78 to R84, R342).
-/

namespace Sys2Proof.Machine

/-! ### Streams at rest (R183, R246) -/

/-- Whether an access is a fence that may be withdrawn and issued again (R183). -/
def Access.isFence (a : Access) : Bool :=
  match a.kind with
  | .fence .. => decide (a.sink = .none)
  | _ => false

/-- Whether R183 holds for a stream: its accesses have left, OBS is empty, and no line is held for it. -/
def State.left183 (s : State) (k : Nat) (st : Strm) : Bool :=
  let x := s.strm k st
  x.cq.all Access.isFence && x.obs.isEmpty && (s.ord.held.all fun h => h.2.who != 4 * k + strmIx st) &&
    x.rob.all fun r => r.done || (x.cq.any fun a => a.rob == r.id) ||
      (decide (st = .m ∨ st = .y) && ((s.ctx k).queue st).any fun q => q.id == r.id)

/-- Whether an entry of a stopped engine may be saved as it stands: it is long-running or has not begun, or it is a drain that waits to
report its fault behind an older entry (Table 11-3, R239). -/
def QEntry.restful (q : QEntry) (oldest : Nat) : Bool :=
  !q.begun || longRunning q.instr || (match q.instr with | .mdrain .. => decide (q.id ≠ oldest) | _ => false)

/-- Whether the engine of a stopped stream has reached its boundary (Table 11-3). -/
def Ctx.engineRests (c : Ctx) (st : Strm) : Bool :=
  match st with
  | .c => true
  | .v => c.sv.faulted || (c.vec.sign.isEmpty && if c.vec.exposed then c.vec.landing.all fun l => l.ready else c.vec.landing.isEmpty)
  | _ => (c.queue st).all fun q => q.done || (decide (q.perf = 0) && ((c.strm st).faulted ||
      q.restful (match (c.strm st).rob with | r :: _ => r.id | [] => 0)))

/-- Whether a stream has reached its boundary with R183 satisfied. -/
def State.atRest (s : State) (k : Nat) (st : Strm) : Bool := s.left183 k st && (s.ctx k).engineRests st

/-- Whether every stream of a context is at rest, with no dovetail entry on its way from or to it. -/
def State.ctxRests (s : State) (k : Nat) : Bool :=
  (allStrms.all fun st => s.atRest k st) && s.fab.transit.all fun t => t.fromCtx != k && t.toCtx != k

/-! ### Contexts that are over -/

/-- Frees contexts and the level-0 and level-1 tiles of their teams; the cores' contexts are assigned anew (R134). -/
def State.freeTeams (s : State) (ts : List Placed) : State :=
  let ks := ts.flatMap Placed.ctxs
  let teams := ts.map Placed.team
  let s := { s with
    ctxs := s.ctxs.filter fun e => !ks.contains e.1
    tiles := s.tiles.filter fun t => !((t.1.level == 0 && ks.contains t.1.owner) || (t.1.level == 1 && teams.contains t.1.owner)) }
  ((ks.map fun k => k / 4).eraseDups).foldl State.assignCtxs s

/-- Contexts whose early stores and remote writes are not all performed at system scope are parked until they are (Table 4-3). -/
def State.park (s : State) (seq : Nat) (ks : List Nat) : State :=
  let busy := (ks.map s.ctx).filter fun c => allStrms.any fun st => !(c.strm st).outE.isEmpty || !(c.strm st).outR.isEmpty
  { s with sched := { s.sched with parked := s.sched.parked ++ busy.map fun c => (seq, c) } }

/-- Teams of a grid point leave their cores: their usage counts for the task, and their contexts are parked and freed (R66, R93). -/
def State.leaveCores (s : State) (i : Inst) (ts : List Placed) : State :=
  let used := (ts.map s.teamUsage).foldl (· + ·) 0
  let keep := i.teams.filter fun t => !ts.contains t
  (((s.park i.seq (ts.flatMap Placed.ctxs)).upTask i.seq fun t => { t with cyc := t.cyc + used }).freeTeams ts).upInst i.id
    fun i => { i with teams := keep }

/-- Whether a parked store of a task is still on its way. -/
def State.quiet (s : State) (seq : Nat) : Bool :=
  s.sched.parked.all fun p => p.1 != seq || allStrms.all fun st => (p.2.strm st).outE.isEmpty && (p.2.strm st).outR.isEmpty

/-- Protection class of a grid point's task. -/
def State.pclassOf (s : State) (i : Inst) : Nat :=
  match s.sched.tasks.find? (fun t => t.seq == i.seq) with | some t => t.card.pclass | none => 0

/-- Whether a grid point is DONE: every stream of every team has reached `end`; in class 2 every epoch is released besides (R84, R109). -/
def State.instDone (s : State) (i : Inst) : Bool :=
  decide (i.stat = .running) && (i.ctxs.all fun k => decide ((s.ctx k).sc.stat = .ended)) &&
    if s.pclassOf i ≠ 2 then true
    else !i.tieDue && i.tie.isNone &&
      s.prot.epochs.all fun p => !(s.prot.keys.any fun e => e.key == p.key && e.inst == i.id)

/-- The stopped copies of a class 2 grid point that hold no role leave once they are at rest (R115). -/
def State.freeLosers (s : State) (i : Inst) : State :=
  if s.pclassOf i ≠ 2 then s
  else
    let ts := i.teams.filter fun t => !i.hasRole t.copy && t.ctxs.all s.ctxRests
    if ts.isEmpty then s else s.leaveCores i ts

/-- A finished grid point gives its cores up (R84). -/
def State.finishInst (s : State) (i : Inst) : State :=
  if s.instDone i then
    (s.leaveCores i i.teams).upInst i.id fun i => { i with stat := .done, waitArea := false, prioStop := false, due := false }
  else s

/-! ### Decrements and cancels (R79 to R82) -/

/-- All instances of a task are queued; one that is preloaded stays so (R83, R91). -/
def State.activate (s : State) (seq : Nat) : State :=
  match s.sched.tasks.find? (fun t => t.seq == seq) with
  | none => s
  | some t =>
    let c := t.card
    let have_ := s.sched.insts.filter fun i => i.seq == seq
    let points := (List.range (c.gx * c.gy * c.gz)).map fun n => (n % c.gx, n / c.gx % c.gy, n / (c.gx * c.gy))
    let points := points.filter fun p => !(have_.any fun i => i.x == p.1 && i.y == p.2.1 && i.z == p.2.2)
    let news := ((List.range points.length).zip points).map fun p => newInst (s.sched.instNext + p.1) t p.2
    { s.upTask seq fun t => { t with stat := .active } with
      sched := { (s.upTask seq fun t => { t with stat := .active }).sched with
        insts := s.sched.insts ++ news, instNext := s.sched.instNext + points.length } }
where
  /-- A QUEUED grid point. -/
  newInst (id : Nat) (t : Task) (p : Nat × Nat × Nat) : Inst :=
    { id := id, seq := t.seq, vf := t.vf, x := p.1, y := p.2.1, z := p.2.2, stat := .queued, eprio := t.card.prio, age := 0
      repls := t.card.stages.map Prod.fst, teams := [], stopping := false, waitArea := false, prioStop := false, areas := [], primary := 0
      secondary := 1, tieDue := false, tie := none, replaced := false, copyNext := 2, buffer := 4, onto := none }

/-- Whether nothing of a task is placed any more: it is marked for underflow, or its ending is asked for (R78, R82). -/
def Task.deaf (t : Task) : Bool := t.underflow || t.ending.isSome

/-- Whether decrements and cancels that name a task reach it: it is in flight and not marked for underflow (R76, R78, R82). -/
def Task.hears (t : Task) : Bool := decide (t.stat ≠ .ended) && !t.underflow

/-- Whether a sequence number names a task that hears. -/
def State.hearing (s : State) (seq : Nat) : Bool := s.sched.tasks.any fun t => t.seq == seq && t.hears

/-- A task is ENDED with a status: it is in flight no more, what it holds that does not run is freed (preloads, save areas, unreleased
records), and its streams are asked to stop (R70, R81, R82, Table 4-3). Early stores of saved contexts are still awaited (R66). -/
def State.endWith (s : State) (seq : Nat) (e : Nat × Nat × Nat) : State :=
  let still := fun (i : Inst) => i.seq != seq || decide (i.stat = .running)
  let gone := ((s.sched.insts.filter fun i => !still i).map Inst.id)
  let keys := (s.prot.keys.filter fun k => gone.contains k.inst).map EKey.key
  let saved := (s.sched.areas.filter fun a => a.2.seq == seq).map fun a => (seq, a.2.ctx)
  let s := s.upTask seq fun t => { t with stat := .ended, ending := some e, edges := [], retry := [], card := { t.card with succ := [] } }
  ({ s with
    prot := {
      keys := s.prot.keys.filter fun k => !gone.contains k.inst
      epochs := s.prot.epochs.filter fun p => !keys.contains p.key
      logs := s.prot.logs.filter fun l => !keys.contains l.1 }
    sched := { s.sched with
      insts := (s.sched.insts.filter still).map fun (i : Inst) =>
        if i.seq = seq then { i with stopping := false, waitArea := false, prioStop := false, due := false, tieDue := false, areas := [] } else i
      areas := s.sched.areas.filter fun a => a.2.seq != seq
      parked := s.sched.parked ++ saved } }).stopTask seq

/-- Ends tasks with their statuses, in ascending sequence number, and cancels, within the step, everything they lead to (R82). -/
def State.cancelFrom (s : State) (work : List (Nat × Nat × Nat × Nat)) (fuel : Nat) : State :=
  match fuel with
  | 0 => s
  | fuel + 1 =>
    match leastBy Prod.fst work with
    | none => s
    | some w =>
      let rest := work.filter fun x => x.1 != w.1
      match s.sched.tasks.find? (fun t => t.seq == w.1 && decide (t.stat ≠ .ended)) with
      | none => s.cancelFrom rest fuel
      | some t =>
        let s := s.endWith t.seq w.2
        let tags := if t.retry.isEmpty then t.card.succ else t.retry
        let next := (t.edges ++ tags.filterMap fun tag => (s.tagged t.vf tag).map Task.seq).filter fun n => s.hearing n && !(rest.any fun x => x.1 == n)
        s.cancelFrom (rest ++ next.eraseDups.map fun n => (n, 7, 0, 0)) fuel

/-- Ends some tasks with their statuses, and what they lead to. -/
def State.endTasks (s : State) (work : List (Nat × Nat × Nat × Nat)) : State := s.cancelFrom work (s.sched.tasks.length + work.length + 1)

/-- A decrement of a task: to 0 makes it ACTIVE, one that finds 0 asks for status 9; false when it finds 0 (R80, R81). -/
def State.decrement (s : State) (seq : Nat) : State × Bool :=
  match s.sched.tasks.find? (fun t => t.seq == seq) with
  | none => (s, true)
  | some t =>
    if !t.hears then (s, true)
    else if t.count = 0 then (s, false)
    else
      let s := s.upTask seq fun t => { t with count := t.count - 1 }
      (if t.count = 1 then s.activate seq else s, true)

/-- Adds to the early-decrement entry of a tag; none when it needs a new entry and the table is full (R79). -/
def State.addEarly (s : State) (vf tag : Nat) : Option State :=
  let es := s.sched.early
  if es.any (fun e => e.1 == vf && e.2.1 == tag) then
    some { s with sched := { s.sched with
      early := es.map fun e => if e.1 = vf ∧ e.2.1 = tag then (e.1, e.2.1, e.2.2 + 1) else e } }
  else if es.length < Config.earlyEntries then some { s with sched := { s.sched with early := es ++ [(vf, tag, 1)] } }
  else none

/-- Decrements by tag, in order: what is left when one needs an entry the table cannot give, and the tasks that underflow (R79, R81). -/
def State.decTags (s : State) (vf : Nat) (tags : List Nat) (under : List Nat) : State × List Nat × List Nat :=
  match tags with
  | [] => (s, [], under)
  | tag :: rest =>
    match s.tagged vf tag with
    | some t =>
      let (s, ok) := s.decrement t.seq
      s.decTags vf rest (if ok then under else under ++ [t.seq])
    | none =>
      match s.addEarly vf tag with
      | some s => s.decTags vf rest under
      | none => (s, tag :: rest, under)

/-- Ends the tasks whose count a decrement found at zero: status 9, with their cancels (R81, R82). -/
def State.underflowed (s : State) (seqs : List Nat) : State := s.endTasks (seqs.eraseDups.map fun n => (n, 9, 0, 0))

/-! ### The ending of a task (R66, R79 to R83) -/

/-- Everything a task held is freed: grid points, save areas, epochs, level-2 tiles, parked contexts. -/
def State.dropTask (s : State) (seq : Nat) : State :=
  let ids := (s.sched.insts.filter fun i => i.seq == seq).map Inst.id
  let keys := (s.prot.keys.filter fun e => ids.contains e.inst).map EKey.key
  { s with
    tiles := s.tiles.filter fun t => !(t.1.level == 2 && t.1.owner / 1024 == seq)
    prot := {
      keys := s.prot.keys.filter fun e => !ids.contains e.inst
      epochs := s.prot.epochs.filter fun p => !keys.contains p.key
      logs := s.prot.logs.filter fun l => !keys.contains l.1 }
    sched := { s.sched with
      tasks := s.sched.tasks.filter fun t => t.seq != seq
      insts := s.sched.insts.filter fun i => i.seq != seq
      areas := s.sched.areas.filter fun a => a.2.seq != seq
      parked := s.sched.parked.filter fun p => p.1 != seq } }

/-- A task is out of flight: INFL falls, and a draining queue is off at 0 (R70). -/
def State.outOfFlight (s : State) (t : Task) : State :=
  let x := s.queue t.vf t.q
  (s.setQueue t.vf t.q { x with infl := x.infl - 1 }).drainedQueue t.vf t.q

/-- A record of this step that waits for its turn: VF, queue, record. -/
structure Due where
  vf : Nat
  q : Nat
  r : Record
deriving DecidableEq, Repr

/-- A task ends with status 0: its decrements along its edges, then by tag; while they are made it is in flight no more for its own tags
(DESIGN CHOICE, notes/assumptions/90.md). One that finds the early table full stays in phase 1 (R79, R80). -/
def State.endZero (s : State) (t : Task) : State :=
  let s := s.upTask t.seq fun t => { t with stat := .ended, edges := [] }
  let (s, under) := (sortBy id t.edges).foldl (fun (r : State × List Nat) n =>
    let (s, ok) := r.1.decrement n
    (s, if ok then r.2 else r.2 ++ [n])) (s, [])
  let (s, rest, under) := s.decTags t.vf (if t.retry.isEmpty then t.card.succ else t.retry) under
  let s := if rest.isEmpty then s.endWith t.seq (0, 0, 0) else s.upTask t.seq fun t => { t with stat := .closing, retry := rest }
  s.underflowed under

/-- Whether a task ends in this step: an ending is asked for, it is marked for underflow, or it is CLOSING with its stores performed. -/
def State.endsNow (s : State) (t : Task) : Bool :=
  decide (t.stat ≠ .ended) && (t.ending.isSome || t.underflow || (decide (t.stat = .closing) && s.quiet t.seq))

/-- Tasks end in ascending sequence number; `tried` are those whose turn has been (R75, R79 to R82). -/
def State.endings (s : State) (tried : List Nat) (fuel : Nat) : State :=
  match fuel with
  | 0 => s
  | fuel + 1 =>
    match leastBy Task.seq (s.sched.tasks.filter fun t => !tried.contains t.seq && s.endsNow t) with
    | none => s
    | some t =>
      let s := match t.ending with
        | some e => s.endTasks [(t.seq, e)]
        | none => if t.underflow then s.endTasks [(t.seq, 9, 0, 0)] else s.endZero t
      s.endings (t.seq :: tried) fuel

/-- Signals that L0 accepted are applied after the step's endings, by issuing sequence number, then arrival (R342). -/
def State.applySignals (s : State) : State :=
  (sortBy Prod.fst s.sched.tsigs).foldl (fun s g =>
    let (s, rest, under) := s.decTags g.2.1 [g.2.2] []
    let s := s.underflowed under
    if rest.isEmpty then s else { s with sched := { s.sched with tsigs := s.sched.tsigs ++ [g] } })
    { s with sched := { s.sched with tsigs := [] } }

/-- The records of the tasks that have ended, hold no core and have all their stores performed, in ascending sequence number; these tasks
are forgotten (R66). -/
def State.settledTasks (s : State) : State × List Due :=
  (sortBy Task.seq (s.sched.tasks.filter fun t => decide (t.stat = .ended))).foldl (fun (r : State × List Due) t =>
    let e := t.ending.getD (0, 0, 0)
    if r.1.quiet t.seq && (r.1.sched.insts.all fun i => i.seq != t.seq || i.teams.isEmpty) then
      ((r.1.dropTask t.seq).outOfFlight t,
        r.2 ++ [Due.mk t.vf t.q ⟨t.card.tag, if e.1 = 6 then e.2.1 else 0, e.1, t.cyc, t.seq, if e.1 = 6 then e.2.2 else 0⟩])
    else r) (s, [])

/-- A tie-break copy that has faulted in an epoch on which the copies in the roles agreed leaves; a new one is due while votes wait (R115,
R245). -/
def State.dropFaultyTie (s : State) (i : Inst) : State :=
  let mine := fun (key : Nat) => s.prot.keys.any fun e => e.key == key && e.inst == i.id
  match i.tie with
  | none => s
  | some t =>
    let faulty := (i.teams.filter fun p => p.copy == t).any fun p => p.ctxs.any fun k => allStrms.any fun st =>
      (s.strm k st).faulted && (s.strm k st).stopReq && !i.stopping
    let votes := s.prot.epochs.filter fun p => mine p.key && decide (p.stat = EStat.vote)
    if faulty && votes.all fun p => !p.words.has t then
      s.upInst i.id fun i => { i with tie := none, tieDue := !votes.isEmpty }
    else s

/-- The compare engine takes up what has changed since: roles taken after votes and losses, and faults of copies (R112, R115, R117, R245). -/
def State.settleVotes (s : State) : State :=
  let s := s.sched.insts.foldl State.dropFaultyTie s
  s.prot.keys.foldl State.judgeKey s

/-- Grid points and tasks move on: stopped copies leave, ending tasks' unreleased records are discarded and their contexts are freed when
all are at rest and released records are performed, finished grid points are
DONE, and a task whose grid points are all DONE is CLOSING (R83, R84). -/
def State.settleInsts (s : State) : State :=
  let s := s.sched.insts.foldl (fun s i0 =>
    match s.sched.insts.find? (fun i => i.id == i0.id) with
    | none => s
    | some i =>
      let ending := s.sched.tasks.any fun t => t.seq == i.seq && t.ending.isSome
      if ending then
        (if decide (i.stat ≠ .running) || i.teams.isEmpty then s
         else
           let s := i.ctxs.foldl (fun s k => (s.pump k .m).pump k .y) s
           let mine := fun (key : Nat) => s.prot.keys.any fun e => e.key == key && e.inst == i.id
           let s := { s with prot := { s.prot with epochs := s.prot.epochs.filter fun p => !mine p.key || decide (p.stat = EStat.release) } }
           if (i.ctxs.all s.ctxRests) && (s.prot.epochs.all fun p => !mine p.key) then s.leaveCores i i.teams else s)
      else
        let s := s.freeLosers i
        match s.sched.insts.find? (fun j => j.id == i.id) with
        | some i => s.finishInst i
        | none => s) s
  s.sched.tasks.foldl (fun s t =>
    if t.stat = .active ∧ (s.sched.insts.all fun i => i.seq != t.seq || decide (i.stat = .done)) then
      s.upTask t.seq fun t => { t with stat := .closing } else s) s

/-- Phase 1: endings, then signals; the records of the step in ascending sequence number (R66, Table 4-1). -/
def State.phase1 (s : State) : State × List Due :=
  let s := s.settleVotes.settleInsts
  ((s.endings [] (s.sched.tasks.length + 1)).applySignals).settleInsts.settledTasks

end Sys2Proof.Machine
end

