-- ==== Sys2Proof/Machine/Digest.lean ====
section
/-!
DEFINITION. Sys2Proof/Machine/Digest.lean: the CRC-64 of a sparse area (R107, Table 11-6) and the SHA-256 digest of a shard (R128, R129).
-/

namespace Sys2Proof.Machine

/-! ### CRC-64 over bytes that are mostly zero (R107) -/

/-- A polynomial of degree below 64 over GF(2), times x, modulo the polynomial of R107. -/
def gfStep (a : Nat) : Nat := if a < 2 ^ 63 then 2 * a else (2 * a % 2 ^ 64) ^^^ 0x42F0E1EBA9EA3693

/-- Product of two such polynomials. -/
def gfMul (a b : Nat) : Nat := (List.range 64).foldl (fun acc i => gfStep acc ^^^ (if b.testBit (63 - i) then a else 0)) 0

/-- x to the power of n, n below 2^25. -/
def gfPow (n : Nat) : Nat :=
  (List.range 25).foldl (fun acc i => let sq := gfMul acc acc; if n.testBit (24 - i) then gfStep sq else sq) 1

/-- n zero bytes into a CRC: it is multiplied by x^(8n). -/
def crcSkip (c : BitVec 64) (n : Nat) : BitVec 64 := if n = 0 then c else BitVec.ofNat 64 (gfMul c.toNat (gfPow (8 * n)))

/-- CRC of the bytes from `pos` to `stop` of an area of which `cells` lists those that are not zero. -/
def crcCells (c : BitVec 64) (pos stop : Nat) (cells : Memory) : BitVec 64 :=
  match cells with
  | [] => crcSkip c (stop - pos)
  | (a, b) :: rest => crcCells (crcByte (crcSkip c (a - pos)) b) (a + 1) stop rest

/-- The n bytes from `pos` on of a list of cells in rising order, zero where none is listed. -/
def denseCells (pos n : Nat) (cells : Memory) : List Byte :=
  match n, cells with
  | 0, _ => []
  | n, [] => List.replicate n 0
  | n + 1, (a, b) :: rest => if a = pos then b :: denseCells (pos + 1) n rest else 0 :: denseCells (pos + 1) n ((a, b) :: rest)

/-- Cells of bytes from `pos` on: those that are not zero. -/
def cellsOf (pos : Nat) (bs : List Byte) : List Host.Cell :=
  match bs with
  | [] => []
  | b :: rest => if b = 0 then cellsOf (pos + 1) rest else (pos, b) :: cellsOf (pos + 1) rest

/-! ### SHA-256 -/

/-- Round constants of SHA-256. -/
def shaK : List (BitVec 32) :=
  [0x428A2F98, 0x71374491, 0xB5C0FBCF, 0xE9B5DBA5, 0x3956C25B, 0x59F111F1, 0x923F82A4, 0xAB1C5ED5,
   0xD807AA98, 0x12835B01, 0x243185BE, 0x550C7DC3, 0x72BE5D74, 0x80DEB1FE, 0x9BDC06A7, 0xC19BF174,
   0xE49B69C1, 0xEFBE4786, 0x0FC19DC6, 0x240CA1CC, 0x2DE92C6F, 0x4A7484AA, 0x5CB0A9DC, 0x76F988DA,
   0x983E5152, 0xA831C66D, 0xB00327C8, 0xBF597FC7, 0xC6E00BF3, 0xD5A79147, 0x06CA6351, 0x14292967,
   0x27B70A85, 0x2E1B2138, 0x4D2C6DFC, 0x53380D13, 0x650A7354, 0x766A0ABB, 0x81C2C92E, 0x92722C85,
   0xA2BFE8A1, 0xA81A664B, 0xC24B8B70, 0xC76C51A3, 0xD192E819, 0xD6990624, 0xF40E3585, 0x106AA070,
   0x19A4C116, 0x1E376C08, 0x2748774C, 0x34B0BCB5, 0x391C0CB3, 0x4ED8AA4A, 0x5B9CCA4F, 0x682E6FF3,
   0x748F82EE, 0x78A5636F, 0x84C87814, 0x8CC70208, 0x90BEFFFA, 0xA4506CEB, 0xBEF9A3F7, 0xC67178F2]

/-- Initial hash value of SHA-256. -/
def shaInit : List (BitVec 32) := [0x6A09E667, 0xBB67AE85, 0x3C6EF372, 0xA54FF53A, 0x510E527F, 0x9B05688C, 0x1F83D9AB, 0x5BE0CD19]

/-- The next word of a message schedule, from those before it, the latest first. -/
def shaNext (w : List (BitVec 32)) : BitVec 32 :=
  let s0 := let x := w.getD 14 0; x.rotateRight 7 ^^^ x.rotateRight 18 ^^^ (x >>> 3)
  let s1 := let x := w.getD 1 0; x.rotateRight 17 ^^^ x.rotateRight 19 ^^^ (x >>> 10)
  w.getD 15 0 + s0 + w.getD 6 0 + s1

/-- The message schedule of a block, the latest word first. -/
def shaSchedule (block : List (BitVec 32)) : List (BitVec 32) :=
  (List.range 48).foldl (fun w _ => shaNext w :: w) block.reverse

/-- One round on the eight working values. -/
def shaRound (v : List (BitVec 32)) (kw : BitVec 32) : List (BitVec 32) :=
  match v with
  | [a, b, c, d, e, f, g, h] =>
    let t1 := h + (e.rotateRight 6 ^^^ e.rotateRight 11 ^^^ e.rotateRight 25) + ((e &&& f) ^^^ (~~~e &&& g)) + kw
    let t2 := (a.rotateRight 2 ^^^ a.rotateRight 13 ^^^ a.rotateRight 22) + ((a &&& b) ^^^ (a &&& c) ^^^ (b &&& c))
    [t1 + t2, a, b, c, d + t1, e, f, g]
  | v => v

/-- One block into a hash value. -/
def shaBlock (h : List (BitVec 32)) (block : List (BitVec 32)) : List (BitVec 32) :=
  let v := ((shaK.zip (shaSchedule block).reverse).map fun p => p.1 + p.2).foldl shaRound h
  (h.zip v).map fun p => p.1 + p.2

/-- Big-endian 32-bit words of bytes. -/
def beWords (bs : List Byte) : List (BitVec 32) :=
  match bs with
  | a :: b :: c :: d :: rest => BitVec.ofNat 32 (leNat [d, c, b, a]) :: beWords rest
  | _ => []

/-- SHA-256 of whole blocks of words. -/
def shaWords (fuel : Nat) (h : List (BitVec 32)) (ws : List (BitVec 32)) : List (BitVec 32) :=
  match fuel with
  | 0 => h
  | fuel + 1 => match ws with | [] => h | _ => shaWords fuel (shaBlock h (ws.take 16)) (ws.drop 16)

/-- SHA-256 of a list of bytes. -/
def sha256 (bs : List Byte) : List Byte :=
  let n := bs.length
  let padded := bs ++ [0x80] ++ List.replicate ((119 - n % 64) % 64) 0 ++ (bytesOf (8 * n) 8).reverse
  (shaWords (n / 64 + 2) shaInit (beWords padded)).flatMap fun w => (bytesOf w.toNat 4).reverse

end Sys2Proof.Machine
end

