-- ==== Sys2Proof/Machine/Image.lean ====
section
/-!
DEFINITION. Sys2Proof/Machine/Image.lean: save areas in HBM (R248, R250, R251): the bytes of a saved context, region by region, their header
and sum, and reading an area back through its code (R253). Where Table 11-5 does not place an item inside its region, the place is the
model's (DESIGN CHOICE, notes/assumptions/7.md).
-/

namespace Sys2Proof.Machine

/-- Bytes from an offset of a save area on. -/
abbrev Field := Nat × List Byte

/-! ### Streams, boundaries, queue images (R246, R250) -/

/-- An open block: its header's VA, the repetitions that remain, zeros. -/
def Block.image (b : Block) : List Byte := bytesOf b.hdr 8 ++ bytesOf b.rem 8

/-- A stream's next VA, its open blocks from the outermost on; zero unless the stream runs. -/
def StreamSt.fetchImage (x : StreamSt) : List Byte :=
  if x.stat = .run then bytesOf x.pc 8 ++ bytesOf x.blocks.length 8 ++ x.blocks.reverse.flatMap Block.image else []

/-- The marks of a boundary instruction: [0] tokens taken, [1] guard undecided (R246). -/
def marksOf (p : Option Pfx) : Nat :=
  match p with
  | some p => (if p.taken then 1 else 0) + (if p.gen && !p.decided then 2 else 0)
  | none => 0

/-- Repeat state: 1 and the iterations, the next iteration, the sampled order plus 1. -/
def repeatImage (r : Option Rpt) : List Byte :=
  match r with
  | some r => bytesOf 1 2 ++ bytesOf r.n 2 ++ bytesOf r.iter 4 ++ bytesOf (match r.k with | some k => k + 1 | none => 0) 4
  | none => []

/-- LOST flags and the oldest unraised errors of a stream (R183), at most seven of each kind. -/
def StreamSt.errImage (x : StreamSt) : List Byte :=
  let one := fun (e : WErr) => bytesOf e.cls 1 ++ bytesOf e.code 1 ++ bytesOf 0 6 ++ bytesOf e.va 8
  bytesOf x.lost.toNat 2 ++ bytesOf (Nat.min x.werr.length 7) 2 ++ bytesOf (Nat.min x.lostVa.length 7) 2 ++ bytesOf 0 10 ++
    (x.werr.take 7).flatMap one ++ List.replicate (16 * (7 - x.werr.length)) 0 ++ (x.lostVa.take 7).flatMap one

/-- The words of an instruction with its prefixes (R278, R250). -/
def QEntry.words (q : QEntry) : List Byte :=
  (match q.pfx with | some p => encode (.syncPrefix p.push p.wset p.gen p.slot p.sense) | none => []) ++
  (match q.rpt with | some r => encode (.rpt r.g r.step r.mask (r.n - 1)) | none => []) ++ encode q.instr

/-- Whether the instruction of an entry has begun: a unit of it has its whole effect or has been read (Table 6-4). -/
def QEntry.flags (q : QEntry) : Nat :=
  (if q.begun then 1 else 0) + (if q.sigOut then 2 else 0) + (match q.pfx with
    | some p => (if p.gen && !p.decided then 4 else 0) + (if p.taken then 8 else 0)
    | none => 0) + (if q.entered then 16 else 0)

/-- A queue image entry at an offset (R250). -/
def QEntry.image (q : QEntry) (st : Strm) (off : Nat) : List Field :=
  let n := (shapeRegs (q.cur st)).length
  let d := fun (i : Nat) (x : BitVec 512) => if i < n then [(off + 16 + 64 * i, bytesOf x.toNat 64)] else []
  let e := fun (i : Nat) (x : BitVec 256) => if i < n then [(off + 208 + 32 * i, bytesOf x.toNat 32)] else []
  [(off, q.words)] ++ d 0 q.d1 ++ d 1 q.d2 ++ d 2 q.d3 ++ e 0 q.x1 ++ e 1 q.x2 ++
    [(off + 272, q.offs.flatMap fun o => bytesOf o.toNat 4), (off + 288, bytesOf q.cpos 4 ++ bytesOf q.iter 4 ++ bytesOf q.flags 4)]

/-! ### Regions (Table 11-5) -/

/-- The header without its sum (Table 11-6). -/
def SaveArea.header (a : SaveArea) : Field :=
  let c := a.ctx
  let on := fun (s : SStat) => (if c.sm.stat = s then 1 else 0) + (if c.sv.stat = s then 2 else 0) + (if c.sy.stat = s then 4 else 0)
  (0, bytesOf ((if c.vec.exposed then 128 else 0) + on .arrived * 2 ^ 8 + on .run * 2 ^ 12 + 2 ^ 16 + 0x42395341 * 2 ^ 32) 8 ++
    bytesOf (a.seq % 2 ^ 48) 8 ++
    bytesOf (Nat.min a.copy 2 * 2 ^ 40 + a.tidx % 4 * 2 ^ 42 + a.repl % 256 * 2 ^ 44 + a.stage % 8 * 2 ^ 52 + a.vf % 512 * 2 ^ 55) 8 ++
    bytesOf (a.x % 65536 * 2 ^ 16 + a.y % 65536 * 2 ^ 32 + a.z % 65536 * 2 ^ 48) 8)

/-- The control region. -/
def Ctx.controlImage (c : Ctx) : List Field :=
  let x := c.sc
  [(0x1008, (List.range 31).flatMap fun r => bytesOf (c.readG (r + 1)).toNat 8),
    (0x1100, bytesOf c.hvec.toNat 8 ++ bytesOf (c.hpc.toNat * 256 + (if c.hmode then 1 else 0)) 8 ++
      bytesOf c.sel 4 ++ (List.range 4).flatMap (fun i => bytesOf (c.act.get i 0) 1) ++ bytesOf c.tlbinv.toNat 8),
    (0x1120, (List.range 8).flatMap fun i => bytesOf (match c.readGuard i with | .unresolved => 0 | .isFalse => 1 | .isTrue => 2) 1),
    (0x1130, (List.range 16).flatMap fun i => bytesOf (c.tok.get i 0) 1),
    (0x1140, (List.range 6).flatMap fun i => bytesOf (c.dvb.get i 0).toNat 8),
    (0x1170, (List.range 6).flatMap fun i => bytesOf (c.dvbWait.get i 0).toNat 8),
    (0x11A0, (List.range 12).flatMap fun i => bytesOf (c.deal.get i 0) 4),
    (0x11D0, bytesOf (marksOf x.pfx) 1 ++ bytesOf (if x.discard then 1 else 0) 1 ++ bytesOf x.mpos 4 ++ bytesOf x.waitN 8),
    (0x11E0, repeatImage x.rpt), (0x1200, x.fetchImage),
    (0x1280, match c.hsave with
      | some h => bytesOf h.pc 8 ++ bytesOf h.blocks.length 8 ++ h.blocks.reverse.flatMap Block.image ++ bytesOf (marksOf h.pfx) 8
      | none => [])] ++
  allStrms.map fun st => (0x1400 + 256 * strmIx st, (c.strm st).errImage)

/-- Shape registers, the shadow stack, fault records, and the matrix and copy state. -/
def Ctx.midImage (c : Ctx) : List Field :=
  c.d.map (fun d => (0x2000 + 64 * d.1, bytesOf d.2.toNat 64)) ++ c.dext.map (fun d => (0x2400 + 32 * d.1, bytesOf d.2.toNat 32)) ++
  [(0x3000, c.shadow.flatMap fun w => bytesOf w.toNat 8),
    (0x4000, (List.range 4).flatMap fun i => (List.range 4).flatMap fun n => bytesOf ((c.frec.get i {}).quad n) 8),
    (0x4100, ((List.range 16).flatMap fun r => bytesOf (c.readO .m r).toNat 4) ++ bytesOf c.mat.astat.toNat 4),
    (0x4200, ((List.range 16).flatMap fun r => bytesOf (c.readO .y r).toNat 4) ++ (List.range 8).flatMap fun b => bytesOf (c.cpy.bar.get b 0).toNat 4),
    (0x4300, c.sm.fetchImage), (0x4380, c.sv.fetchImage), (0x4400, c.sy.fetchImage)]

/-- Bytes that a landing record writes, its register (v 0 to 63, k from 64, p from 80, the scatter list 88, none for a guard) and guard. -/
def VWrite.image (w : VWrite) : List Byte × Nat × Nat :=
  match w with
  | .v r mask val => (bytesOf (val &&& mask).toNat ((((List.range 2048).filter fun b => fld mask.toNat (8 * b) 8 ≠ 0).foldl Nat.max 0) + 1), r, 0)
  | .k r val => (bytesOf val.toNat 4, 64 + r, 0)
  | .p r count width => (bytesOf count 2 ++ bytesOf width 2, 80 + r, 0)
  | .g slot val => ([], 255, slot + (if val then 0x100 else 0))
  | .scatter l => (l.flatMap fun p => bytesOf (p.2.1 % 2048 + p.1 % 64 * 2 ^ 11 + p.2.2 % 8 * 2 ^ 17) 4, 88, 0)

/-- Landing record i: register, slots remaining, value length, guard slot and value, flags; and its value. -/
def Landing.image (l : Landing) (slot i : Nat) : List Field :=
  let w := match l.writes with | w :: _ => w.image | [] => ([], 255, 0)
  [(0x11000 + 16 * i, bytesOf w.2.1 2 ++ bytesOf (l.slot.getD slot - slot) 2 ++ bytesOf w.1.length 2 ++ bytesOf w.2.2 2 ++ bytesOf l.flags.toNat 4),
    (0x12000 + 2048 * i, w.1)]

/-- An entry of the deferral queue (R383). -/
def Defer.image (d : Defer) : List Byte :=
  bytesOf (d.e % 2048 + d.b % 64 * 2 ^ 11 + d.tag % 256 * 2 ^ 17 + d.words.length % 8 * 2 ^ 25) 8 ++
    (d.words.flatMap fun w => bytesOf w.toNat 4) ++ List.replicate (24 - 4 * d.words.length) 0

/-- A list with the number of each element. -/
def numbered {α : Type} (l : List α) : List (Nat × α) := (List.range l.length).zip l

/-- The vector regions: control state, deferral queue, landing records, registers. -/
def Ctx.vectorImage (c : Ctx) : List Field :=
  let x := c.vec
  [(0x8000, [x.vshape, x.vctl, x.jord, x.jflag, x.vview, BitVec.ofNat 32 x.dphase].flatMap fun w => bytesOf w.toNat 4),
    (0x8020, (List.range 8).flatMap fun r => bytesOf (c.readP r).1 2 ++ bytesOf (c.readP r).2 2),
    (0x8040, (List.range 16).flatMap fun r => bytesOf (c.readK r).toNat 4),
    (0x8080, repeatImage c.sv.rpt), (0x8090, bytesOf (marksOf c.sv.pfx) 1 ++ bytesOf (if c.sv.discard then 1 else 0) 1 ++ bytesOf c.sv.mpos 4),
    (0x87FC, bytesOf x.scatter.length 4 ++ (VWrite.scatter x.scatter).image.1),
    (0x9000, x.defer.flatMap Defer.image)] ++
  (numbered x.landing).flatMap (fun l => l.2.image x.slot l.1) ++
  x.v.map fun v => (0x22000 + 2048 * v.1, bytesOf v.2.toNat 2048)

/-- Accumulators, the dovetail queues with their lengths, and the engine queue images. -/
def Ctx.engineImage (c : Ctx) : List Field :=
  let q := fun (e n : Nat) => if n < 2 then c.rq.get (2 * e + n) [] else c.oq.get (2 * e + (n - 2)) []
  c.mat.acc.map (fun a => (0x42000 + 32768 * a.1, bytesOf a.2.toNat 32768)) ++
  ((List.range 12).flatMap fun n => (numbered (q (n / 4) (n % 4))).flatMap fun e =>
    [(0x62000 + 2048 * (8 * n + e.1), bytesOf e.2.data.toNat 2048), (0x92000 + 4 * (8 * n + e.1), bytesOf e.2.len 4)]) ++
  (numbered c.mat.queue).flatMap (fun e => e.2.image .m (0x1F8000 + 512 * e.1)) ++
  (numbered c.cpy.queue).flatMap fun e => e.2.image .y (0x1FA000 + 512 * e.1)

/-- The tile directory and the tile region: level-0 tiles, and of level-1 tiles of a team of n the units of team core index j (R251). -/
def tileImage (n j : Nat) (ts : List (TileKey × Tile)) : List Field :=
  (ts.foldl (fun (r : Nat × List Field) t =>
    let units := tileUnits t.1.level t.2.rows t.2.rb
    let size := 4096 * (if t.1.level = 1 then shareUnits units n j else units)
    let at_ := fun (a : Nat) => 0x94000 + r.1 + (if t.1.level = 1 then a / 4096 / n * 4096 + a % 4096 else a)
    let dir := (0x93000 + 16 * t.1.h, bytesOf (t.1.level + 128) 4 ++ bytesOf t.2.rows 4 ++ bytesOf t.2.rb 4 ++ bytesOf r.1 4)
    (r.1 + size, r.2 ++ dir :: t.2.bytes.map fun b => (at_ b.1, [b.2]))) (0, [])).2

/-- The bytes of a save area that are not zero, but for its sum. -/
def SaveArea.image (a : SaveArea) : List Host.Cell :=
  let c := a.ctx
  (a.header :: c.controlImage ++ c.midImage ++ c.vectorImage ++ c.engineImage ++ tileImage c.team.tsize a.tidx a.tiles).flatMap fun f =>
    cellsOf f.1 f.2

/-! ### Areas in HBM (R248, R253) -/

/-- HBM address of save area n. -/
def State.areaAddr (s : State) (n : Nat) : Nat :=
  frameAddr (n / 256) ((fld (s.pf.savewin.get (n / 256) 0).toNat 0 16 + n % 256) % 2 ^ 16)

/-- The sum of an area, of its bytes from 0x28 on (Table 11-6). -/
def areaSum (cells : Memory) : BitVec 64 := crcCells 0 0x28 (2 ^ 21) (cells.filter fun c => decide (0x28 ≤ c.1))

/-- Writes bytes as save area n, with their sum. -/
def State.writeArea (s : State) (n : Nat) (cells : List Host.Cell) : State :=
  let s := s.fillFrame (s.areaAddr n) cells
  s.hbmRaw (s.areaAddr n + 0x20) (bytesOf (areaSum (s.frameCells (s.areaAddr n))).toNat 8)

/-- Reads a frame through the code of HBM: its bytes that are not zero; none when a word is uncorrectable (R121, R253). -/
def State.readFrame (s : State) (addr : Nat) : State × Option (List Host.Cell) :=
  let ws := (s.mem.hbmCheck.map Prod.fst).filter fun w => decide (addr ≤ 8 * w) && decide (8 * w < addr + 2 ^ 21)
  let (s, t) := ws.foldl (fun (r : State × Option State) w =>
    match r.1.hbmReadWord w with
    | (s, none) => (s, none)
    | (s, some d) => (s, r.2.map fun t => t.hbmRaw (8 * w) (bytesOf d 8))) (s, some s)
  (s, t.map fun t => t.frameCells addr)

/-- Quadword q of the bytes of an area. -/
def areaQuad (cells : Memory) (q : Nat) : Nat := leNat (memGetList 0 cells (8 * q) 8)

/-- The checks of R253 on the bytes of an area: MAGIC, VERSION, SUM, and the identity of the context that is to be resumed. -/
def areaPasses (cells : Memory) (seq vf stage repl tidx copy : Nat) : Bool :=
  decide (areaQuad cells 0 / 2 ^ 16 = 0x42395341 * 2 ^ 16 + 1) && decide (areaQuad cells 4 = (areaSum cells).toNat) &&
    decide (areaQuad cells 1 % 2 ^ 48 = seq % 2 ^ 48) && decide (areaQuad cells 2 / 2 ^ 40 =
      Nat.min copy 2 + tidx % 4 * 2 ^ 2 + repl % 256 * 2 ^ 4 + stage % 8 * 2 ^ 12 + vf % 512 * 2 ^ 15)

/-- The bytes of an area with another SEQ and VF in its header (R131, R253). -/
def areaRewritten (cells : Memory) (seq vf : Nat) : Memory :=
  let q2 := areaQuad cells 2
  memPutList 0 (memPutList 0 cells 8 (bytesOf (seq % 2 ^ 48) 8)) 16 (bytesOf (q2 % 2 ^ 55 + vf % 512 * 2 ^ 55) 8)

end Sys2Proof.Machine
end

