-- ==== Sys2Proof/Machine/Placement.lean ====
section
/-!
DEFINITION. Sys2Proof/Machine/Placement.lean: where the scheduler places teams (R85 to R90, R110, R115, R120, R152, R251), how they start and
resume (R137, R252, R253), and preloads (R91, R92).
-/

namespace Sys2Proof.Machine

/-! ### Cores and dies (R86) -/

/-- Hops of the grid between two compute dies. -/
def hops (a b : Nat) : Nat :=
  let d := fun (x y : Nat) => (x - y) + (y - x)
  d (a / 4) (b / 4) + d (a % 4) (b % 4)

/-- The sequencer context that a partition holds on a core (R134). -/
def State.ctxOf (s : State) (vf core : Nat) : Option Nat :=
  ((List.range 4).map fun c => 4 * core + c).find? fun k => s.pf.coreCtx.any fun e => e.1 == k && e.2 == vf

/-- Whether a core carries a RUNNING or PRELOADED team of a partition. -/
def State.coreTaken (s : State) (vf core : Nat) : Bool :=
  s.sched.insts.any fun i => i.vf == vf && decide (i.stat = .running ∨ i.stat = .preloaded) && i.ctxs.any fun k => k / 4 == core

/-- Whether a core is free for a partition and a set of engine kinds (R86). -/
def State.coreFree (s : State) (vf eng core : Nat) : Bool :=
  s.ownsAll vf core eng && !s.coreTaken vf core &&
    match s.ctxOf vf core with
    | some k => !(s.ctx k).live
    | none => false

/-- Whether a die takes placements at all (R26, R47, R119). -/
def State.dieOpen (s : State) (die : Nat) : Bool :=
  s.isLive die && !(s.pf.susp.get die {}).ret && !(s.pf.power.get die {}).unavail

/-- Cores of a list of teams. -/
def coresOf (ts : List Placed) : List Nat := ts.flatMap fun t => t.ctxs.map (· / 4)

/-- Whether a preload of a partition stands on a core. -/
def State.preloadedOn (s : State) (vf core : Nat) : Bool :=
  s.sched.insts.any fun i => i.vf == vf && decide (i.stat = .preloaded) && i.ctxs.any fun k => k / 4 == core

/-- The free cores of every open die for a partition: `now` those of R86, else every core on which it uses the engines (R88); those of the
teams `freed` count as free besides, where no preload stands on them (R94). -/
def State.freeCores (s : State) (vf eng : Nat) (now : Bool) (freed : List Placed) (die : Nat) : List Nat :=
  if !s.dieOpen die then []
  else ((List.range Config.coresPerDie).map fun c => 16 * die + c).filter fun core =>
    if now then s.coreFree vf eng core || ((coresOf freed).contains core && s.ownsAll vf core eng && !s.preloadedOn vf core)
    else s.ownsAll vf core eng

/-- A team that is to be placed: copy, stage, replica, die and cores. -/
structure Plan where
  copy : Nat
  stage : Nat
  replica : Nat
  die : Nat
  cores : List Nat
deriving DecidableEq, Repr

/-- Stage and replica of every team, in ascending stage, then replica. -/
def teamList (repls : List Nat) : List (Nat × Nat) :=
  ((List.range repls.length).zip repls).flatMap fun p => (List.range p.2).map fun r => (p.1, r)

/-- Places teams one after another: the first on the eligible die of lowest index, each later one on the nearest to the die before it, ties
to the lower index; a team takes the free columns of lowest number (R86). -/
def planTeams (free : Nat → List Nat) (dies : List Nat) (size copy : Nat) (teams : List (Nat × Nat)) (prev : Option Nat) (taken : List Nat) :
    Option (List Plan) :=
  match teams with
  | [] => some []
  | (stage, r) :: rest =>
    let left := fun d => (free d).filter fun c => !taken.contains c
    let ok := dies.filter fun d => decide (size ≤ (left d).length)
    match leastBy (fun d => match prev with | some p => 64 * hops p d + d | none => d) ok with
    | none => none
    | some d =>
      let cores := (left d).take size
      (planTeams free dies size copy rest (some d) (cores ++ taken)).map fun ps => ⟨copy, stage, r, d, cores⟩ :: ps

/-- Compute dies of a quadrant. -/
def quadDies (q : Nat) : List Nat := (List.range 16).filter fun d => quadOf d == q

/-- Places both copies of a class 2 grid point: the primary in the lowest quadrant that allows a secondary in a higher one, with a third
quadrant that holds an eligible die (R87). -/
def planPair (free : Nat → List Nat) (size : Nat) (copies : Nat × Nat) (teams : List (Nat × Nat)) : Option (List Plan) :=
  [(0, 1), (0, 2), (0, 3), (1, 2), (1, 3), (2, 3)].findSome? fun pq =>
    match planTeams free (quadDies pq.1) size copies.1 teams none [], planTeams free (quadDies pq.2) size copies.2 teams none [] with
    | some a, some b =>
      if (List.range 16).any fun d => decide (quadOf d ≠ pq.1) && decide (quadOf d ≠ pq.2) && decide (size ≤ (free d).length) then some (a ++ b)
      else none
    | _, _ => none

/-! ### Whether a grid point fits (R88, R89, R110, R152, R251) -/

/-- The task of a grid point. -/
def State.taskOf (s : State) (i : Inst) : Option Task := s.sched.tasks.find? fun t => t.seq == i.seq

/-- Whether adjacent stages keep R89. -/
def replsFit (repls : List Nat) : Bool :=
  (repls.zip (repls.drop 1)).all fun p => decide (p.1 = p.2) || decide (p.1 = 1) || decide (p.2 = 1)

/-- Save share of team core index j from the declared tiles of a code image (R251). -/
def State.declShare (s : State) (code n j : Nat) : Nat :=
  (s.sched.decl.map fun d =>
    if d.1 ≠ code then 0
    else match tileLevel d.2.1 with
      | 0 => tileUnits 0 d.2.2.1 d.2.2.2 * 4096
      | 1 => shareUnits (tileUnits 1 d.2.2.1 d.2.2.2) n j * 4096
      | _ => 0).foldl (· + ·) 0

/-- The plan of a grid point of a card: `now` with the cores free now, else with every core of the partition free. -/
def State.planFor (s : State) (c : Card) (vf : Nat) (i : Inst) (repls : List Nat) (now : Bool) (freed : List Placed) : Option (List Plan) :=
  let free := s.freeCores vf c.eng now freed
  let size := c.team + 1
  let teams := teamList repls
  if c.pclass ≠ 2 then planTeams free (List.range 16) size 0 teams none []
  else match planPair free size (i.primary, i.secondary) teams, i.tie with
    | some ps, none => some (if i.replaced && i.tieDue then ps.filter fun p => p.copy == i.primary else ps)
    | some ps, some t =>
      if i.stat ≠ .saved then some ps
      else
        let used := ps.map fun p => quadOf p.die
        (match (List.range 4).find? (fun q => !used.contains q) with
          | some q => (planTeams free (quadDies q) size t teams none []).map fun qs => ps ++ qs
          | none => none)
    | r, _ => r

/-- Whether a grid point could be placed if every core of the partition were free, with these replica counts (R88). -/
def State.passes88 (s : State) (c : Card) (vf : Nat) (i : Inst) (repls : List Nat) : Bool :=
  replsFit repls && ((List.range (c.team + 1)).all fun j => decide (s.declShare c.code (c.team + 1) j ≤ Config.saveShare)) &&
    (s.planFor c vf i repls false []).isSome

/-- Replica counts halved until the grid point passes R88; none when it fails with every count 1 (R120). -/
def State.halved (s : State) (c : Card) (vf : Nat) (i : Inst) (repls : List Nat) (fuel : Nat) : Option (List Nat) :=
  match fuel with
  | 0 => none
  | fuel + 1 =>
    if s.passes88 c vf i repls then some repls
    else if repls.all (· ≤ 1) then none
    else s.halved c vf i (repls.map fun n => Nat.max 1 (n / 2)) fuel

/-- Containment a class 2 grid point reserves: five slots of 2,048 records of 64 bytes for each of the four streams of a core (R110). -/
def reservation (cores : Nat) : Nat := cores * 4 * 5 * Config.epochRecords * 64

/-- Cores of one copy of a grid point. -/
def Inst.copyCores (i : Inst) (size : Nat) : Nat := (i.repls.foldl (· + ·) 0) * size

/-- Whether the containment buffer of a memory die has room for one more grid point (R110). -/
def State.bufferRoom (s : State) (m cores : Nat) : Bool :=
  let used := ((s.sched.insts.filter fun i => decide (i.buffer = m) && decide (i.stat ≠ .done) && decide (s.pclassOf i = 2)).map fun i =>
    reservation (i.copyCores (match s.taskOf i with | some t => t.card.team + 1 | none => 1))).foldl (· + ·) 0
  decide (used + reservation cores ≤ Config.containBytes)

/-- Bytes that each context of a planned team brings at level 0, and the team at level 1: those of the code image, or of save areas. -/
def State.bringBytes (s : State) (i : Inst) (code : Nat) (p : Plan) (j : Nat) : Nat × Nat :=
  match i.areas.filterMap (fun a => (s.sched.areas.find? fun e => e.1 == a.1).map Prod.snd) with
  | [] => (s.declBytes code 0, if j = 0 then s.declBytes code 1 else 0)
  | as_ =>
    match as_.find? (fun a => a.copy == p.copy && a.stage == p.stage && a.repl == p.replica && a.tidx == j) with
    | none => (s.declBytes code 0, if j = 0 then s.declBytes code 1 else 0)
    | some a =>
      let sum := fun lv => (a.tiles.map fun t => if t.1.level = lv then tileUnits lv t.2.rows t.2.rb * unitBytes lv else 0).foldl (· + ·) 0
      (sum 0, sum 1)

/-- The task and class 2 copy that own the level-2 tiles of a team. -/
def level2Owner (seq : Nat) (c : Card) (copy : Nat) : Nat := 1024 * seq + (if c.pclass = 2 then copy else 0)

/-- The memory die of the level-2 tiles that a team's task, or copy, gets: of the quadrant of the task's first-placed team, or of the copy's
own (R153). -/
def State.level2For (s : State) (i : Inst) (c : Card) (die : Nat) : Nat :=
  if c.pclass = 2 then quadOf die
  else match s.taskOf i with
    | some t => t.first.getD (quadOf die)
    | none => quadOf die

/-- Memory dies on which a plan allocates declared level-2 tiles: one for each copy that has none yet (R152, R153). -/
def State.newLevel2 (s : State) (i : Inst) (c : Card) (ps : List Plan) : List Nat :=
  if s.declBytes c.code 2 = 0 then []
  else
    let firsts := ps.foldl (fun (a : List Plan) p => if a.any fun q => q.copy == p.copy then a else a ++ [p]) []
    (firsts.filter fun p => !(s.tiles.any fun t => t.1.level == 2 && t.1.owner == level2Owner i.seq c p.copy)).map fun p => s.level2For i c p.die

/-- Whether the tiles of a plan fit into its cores, dies and memory die (R152, Table 6-2). -/
def State.tilesFit (s : State) (i : Inst) (c : Card) (ps : List Plan) (freed : List Placed) : Bool :=
  let ks := freed.flatMap Placed.ctxs
  let gone := fun (core : Nat) => s.tileSum (fun t => t.level == 0 && t.owner / 4 == core && ks.contains t.owner)
  let goneOn := fun (die : Nat) => s.tileSum fun t => (t.level == 0 && t.owner / 64 == die && ks.contains t.owner) ||
    (t.level == 1 && freed.any fun p => p.team == t.owner && p.die == die)
  let each := ps.flatMap fun p => ((List.range p.cores.length).zip p.cores).map fun jc => (p, jc.2, s.bringBytes i c.code p jc.1)
  (each.all fun e => decide (s.coreBytes e.2.1 + e.2.2.1 ≤ Config.level0Bytes + gone e.2.1)) &&
    ((ps.map Plan.die).eraseDups.all fun d =>
      let need := ((each.filter fun e => e.1.die == d).map fun e => e.2.2.1 + e.2.2.2).foldl (· + ·) 0
      decide (s.dieBytes d + need ≤ Config.level1Bytes + goneOn d)) &&
    (s.newLevel2 i c ps).all fun m => decide (s.level2Sum m + s.declBytes c.code 2 ≤ Config.level2Bytes)

/-- The plan of a grid point that can be placed now, none where it cannot (R86, R110, R152). -/
def State.planNow (s : State) (i : Inst) (freed : List Placed) : Option (List Plan) :=
  match s.taskOf i with
  | none => none
  | some t =>
    match s.planFor t.card i.vf i i.repls true freed with
    | none => none
    | some ps =>
      let m := match ps with | p :: _ => quadOf p.die | [] => 0
      if s.tilesFit i t.card ps freed && (decide (t.card.pclass ≠ 2) || decide (i.buffer ≠ 4) || s.bufferRoom m (i.copyCores (t.card.team + 1)))
      then some ps else none

/-! ### Starting and resuming (R89, R90, R137, R252, R253) -/

/-- A binding that placement makes: V, LOCK, target stage, replica, core index, engine kind, queue 0 (Table 6-3). -/
def lockedDvb (stage repl tidx kind : Nat) : Word :=
  BitVec.ofNat 64 (2 ^ 63 + 2 ^ 62 + stage * 2 ^ 14 + repl * 2 ^ 6 + tidx * 2 ^ 4 + kind * 2 ^ 2)

/-- A context at its placement: team registers, arguments, bindings of RQ0, and the control stream in RUN at its entry (R89, R90, R137). -/
def freshCtx (i : Inst) (c : Card) (p : Plan) (team tidx now : Nat) : Ctx :=
  let nrepl := i.repls.getD p.stage 1
  let next := i.repls.getD (p.stage + 1) 1
  let pc := c.code + (match c.stages[p.stage]? with | some st => st.2 | none => 0)
  let dvb := if c.nstage ≤ p.stage + 1 then []
    else (List.range 3).map fun kind => (2 * kind, lockedDvb (p.stage + 1) (if nrepl = next then p.replica else 0) tidx kind)
  { live := true, vf := i.vf
    team := { inst := i.id, x := i.x, y := i.y, z := i.z, stage := p.stage, replica := p.replica, tidx := tidx, tsize := c.team + 1, copy := p.copy
              nrepl := nrepl, nstage := c.nstage, gx := c.gx, gy := c.gy, gz := c.gz, seq := i.seq, team := team, pclass := c.pclass
              asid := c.asid, code := c.code, ttab := c.ttab, ttabn := c.ttabn }
    g := ((List.range 8).zip c.args).map fun a => (a.1 + 1, a.2)
    dvb := dvb
    idleFrom := now
    sc := { stat := .run, pc := pc, fp := pc } }

/-- The tiles of a code image that a new team, and its context j, get (R152): all bytes zero; those of level 2 on a memory die. -/
def State.declTiles (s : State) (code lv owner mem : Nat) : List (TileKey × Tile) :=
  (s.sched.decl.filter fun d => d.1 == code && tileLevel d.2.1 == lv).map fun d =>
    (⟨lv, owner, d.2.1⟩, { rows := d.2.2.1, rb := d.2.2.2, mem := mem })

/-- The contexts that a planned team runs on. -/
def State.planCtxs (s : State) (vf : Nat) (p : Plan) : List Nat := p.cores.filterMap fun core => s.ctxOf vf core

/-- A team of a grid point has been placed. -/
def Inst.placed (i : Inst) (t : Placed) : Inst := { i with teams := i.teams ++ [t], homes := (t.copy, t.stage, t.replica, t.die) :: i.homes }

/-- Places one planned team anew. -/
def State.startTeam (s : State) (i : Inst) (c : Card) (p : Plan) : State :=
  let team := s.sched.teamNext
  let ks := s.planCtxs i.vf p
  let now := (s.cycle p.die).toNat
  let s := ((List.range ks.length).zip ks).foldl (fun s jk => s.setCtx jk.2 (freshCtx i c p team jk.1 now)) s
  let mem := s.level2For i c p.die
  let owner2 := level2Owner i.seq c p.copy
  let lv2 := if s.tiles.any fun t => t.1.level == 2 && t.1.owner == owner2 then [] else s.declTiles c.code 2 owner2 mem
  let s := { s with
    tiles := s.tiles ++ ks.flatMap (fun k => s.declTiles c.code 0 k 0) ++ s.declTiles c.code 1 team 0 ++ lv2
    sched := { s.sched with teamNext := team + 1 } }
  let s := s.upTask i.seq fun t => if t.first.isSome then t else { t with first := some (quadOf p.die) }
  s.upInst i.id fun i => i.placed (Placed.mk team p.copy p.stage p.replica p.die ks 0 now)

/-- New epoch keys of a class 2 grid point (R110, R112). -/
def State.makeKeys (s : State) (i : Inst) (size : Nat) : State :=
  let first := (s.prot.keys.map EKey.key).foldl Nat.max 0 + 1
  let all := (teamList i.repls).flatMap fun t => (List.range size).flatMap fun j => allStrms.map fun st => (t, j, st)
  let news := ((List.range all.length).zip all).map fun p => EKey.mk (first + p.1) i.id p.2.1.1 p.2.1.2 p.2.2.1 p.2.2.2
  { s with prot := { s.prot with keys := s.prot.keys ++ news } }

/-- A QUEUED grid point starts on a plan. -/
def State.startInst (s : State) (i : Inst) (c : Card) (ps : List Plan) : State :=
  let m := match ps with | p :: _ => quadOf p.die | [] => 0
  let s := s.upInst i.id fun i => { i with stat := .running, teams := [], onto := none, buffer := if i.buffer = 4 then m else i.buffer }
  let s := if c.pclass = 2 then s.makeKeys i (c.team + 1) else s
  ps.foldl (fun s p => s.startTeam i c p) s

/-- A restored context on its new core: cycle counts from now on, the replica count in force (R120, R252); a record that was saved VALID is
delivered before any instruction issues (R254). -/
def Ctx.resumed (c : Ctx) (team nrepl now : Nat) : Ctx :=
  let back := fun (st : Strm) (x : StreamSt) =>
    { x with stopReq := false, saved := false, waitN := if st = .v ∨ x.waitN = 0 then x.waitN else x.waitN + now }
  let c := allStrms.foldl (fun (c : Ctx) st => c.upStrm st (back st)) c
  { c with
    team := { c.team with team := team, nrepl := nrepl }, idleFrom := now - c.idleFrom
    mustDeliver := c.firstFault.isSome && !c.hmode }

/-- Whether a save area is the one of a planned context (R253). -/
def SaveArea.isFor (a : SaveArea) (i : Inst) (p : Plan) (j : Nat) : Bool :=
  a.seq == i.seq && a.vf == i.vf && a.stage == p.stage && a.repl == p.replica && a.tidx == j && Nat.min a.copy 2 == Nat.min p.copy 2 &&
    a.copy == p.copy && a.x == i.x && a.y == i.y && a.z == i.z

/-- The save area of a planned context, by its number. -/
def State.areaFor (s : State) (i : Inst) (p : Plan) (j : Nat) : Option (Nat × SaveArea) :=
  (i.areas.filterMap fun a => s.sched.areas.find? fun e => e.1 == a.1).find? fun a => a.2.isFor i p j

/-- Adds a saved tile: to a level-1 tile, the units of one more context (R251, R252). -/
def State.joinTile (s : State) (key : TileKey) (t : Tile) : State :=
  s.setTile key (match s.tile key with
    | some u => { u with bytes := u.bytes ++ t.bytes, check := u.check ++ t.check }
    | none => t)

/-- Resumes one planned team from its areas. -/
def State.resumeTeam (s : State) (i : Inst) (p : Plan) : State :=
  let team := s.sched.teamNext
  let ks := s.planCtxs i.vf p
  let now := (s.cycle p.die).toNat
  let s := ((List.range ks.length).zip ks).foldl (fun s jk =>
    match s.areaFor i p jk.1 with
    | none => s
    | some (_, a) =>
      a.tiles.foldl (fun s t => s.joinTile (TileKey.mk t.1.level (if t.1.level = 0 then jk.2 else team) t.1.h) t.2)
        (s.setCtx jk.2 (a.ctx.resumed team (i.repls.getD p.stage 1) now))) s
  ({ s with sched := { s.sched with teamNext := team + 1 } }).upInst i.id fun i => i.placed (Placed.mk team p.copy p.stage p.replica p.die ks 0 now)

/-- Reads and checks the save area of a planned context (R253): ERR of the SAVEBAD fault when it fails, 0 or the code with which its reading
completes. The fault is the context's, as a control-stream record (R240). -/
def State.checkArea (s : State) (i : Inst) (p : Plan) (j : Nat) : State × Option Nat :=
  match s.areaFor i p j with
  | none => (s, some 0)
  | some (n, a) =>
    let (s, cells) := s.readFrame (s.areaAddr n)
    let err := match cells with
      | none => some 1
      | some cells => if areaPasses cells i.seq i.vf p.stage p.replica j p.copy then none else some 0
    match err with
    | none => (s, none)
    | some e =>
      let c := a.ctx.upStrm .c fun x => { x with faulted := true }
      let c := { c with frec := c.frec.set 0 { valid := true, cause := cSAVEBAD, err := e, pc := c.sc.pc, since := s.now } }
      ({ s with sched := { s.sched with areas := s.sched.areas.set n { a with ctx := c } } }, some e)

/-- A SAVED grid point resumes on a plan, and its areas are freed; an area that fails the checks of R253, or whose reading completes with a
code, ends the task with status 6 (SAVEBAD). -/
def State.resumeInst (s : State) (i : Inst) (ps : List Plan) : State :=
  let each := ps.flatMap fun p => (List.range p.cores.length).map fun j => (p, j)
  match each.foldl (fun (r : State × Option Nat) pj => if r.2.isSome then r else r.1.checkArea i pj.1 pj.2) (s, none) with
  | (s, some err) => s.endTask i.seq 6 err 0
  | (s, none) =>
    let m := match ps with | p :: _ => quadOf p.die | [] => 0
    let s := s.upInst i.id fun i => { i with stat := .running, teams := [], buffer := if i.buffer = 4 then m else i.buffer }
    let s := ps.foldl (fun s p => s.resumeTeam i p) s
    let gone := i.areas.map Prod.fst
    ({ s with sched := { s.sched with areas := s.sched.areas.filter fun a => !gone.contains a.1 } }).upInst i.id fun i => { i with areas := [] }

/-! ### Tie-break copies (R115 to R117) -/

/-- Quadrants of the copies that hold the roles. -/
def Inst.roleQuads (i : Inst) : List Nat :=
  ((i.teams.filter fun t => t.copy == i.primary || t.copy == i.secondary).map fun t => quadOf t.die).eraseDups

/-- Places the tie-break or replacement copy that is due, from the grid point's start: whether it was placed; a task for which no quadrant
can hold it ends with status 8 (R115, R116). -/
def State.placeTie (s : State) (i : Inst) (c : Card) : State × Bool :=
  let size := c.team + 1
  let teams := teamList i.repls
  let plan := fun now q => planTeams (s.freeCores i.vf c.eng now []) (quadDies q) size i.copyNext teams none []
  match ((List.range 4).filter fun q => !i.roleQuads.contains q).find? fun q => (plan false q).isSome with
  | none => (s.unresolved i, false)
  | some q =>
    match plan true q with
    | none => (s, false)
    | some ps =>
      if !s.tilesFit { i with areas := [] } c ps [] then (s, false)
      else
        let s := s.upInst i.id fun i =>
          { i with tieDue := false, copyNext := i.copyNext + 1, tie := if i.replaced ∧ i.secondary = i.copyNext then none else some i.copyNext }
        (ps.foldl (fun s p => s.startTeam i c p) s, true)

/-! ### Preloads (R91, R92) -/

/-- Running teams of a partition that carry no preload, by die, then first column. -/
def State.hosts (s : State) (vf : Nat) : List (Inst × Placed) :=
  let loaded := (s.sched.insts.filter fun i => decide (i.stat = .preloaded)).flatMap fun i => i.teams.map Placed.team
  let ts := (s.sched.insts.filter fun i => i.vf == vf && decide (i.stat = .running)).flatMap fun i => i.teams.map fun t => (i, t)
  sortBy (fun it => it.2.die * 16 + (it.2.ctxs.headD 0) / 4 % 16) (ts.filter fun it => !loaded.contains it.2.team && !it.2.ctxs.isEmpty)

/-- A preload of a grid point onto a running team: the first cores of the team. -/
def Placed.onTeam (t : Placed) (copy size : Nat) : Placed :=
  { t with copy := copy, stage := 0, replica := 0, ctxs := t.ctxs.take size, usage := 0, start := 0 }

/-- The teams that a preload of a card would take on a running team; both copies' teams for class 2 (R91). -/
def State.preloadOn (s : State) (t : Task) (h : Inst × Placed) : Option (List Placed) :=
  let c := t.card
  let size := c.team + 1
  let ok := fun (p : Placed) => s.dieOpen p.die && decide (size ≤ p.ctxs.length) && (p.ctxs.take size).all (fun k => s.ownsAll t.vf (k / 4) c.eng) &&
    ((p.ctxs.take size).all fun k => decide (s.coreBytes (k / 4) + s.declBytes c.code 0 ≤ Config.level0Bytes)) &&
    decide (s.dieBytes p.die + size * s.declBytes c.code 0 + s.declBytes c.code 1 ≤ Config.level1Bytes)
  if t.nopre ∨ c.nstage ≠ 1 ∨ (c.stages.map Prod.fst) ≠ [1] then none
  else if c.pclass ≠ 2 then (if ok h.2 then some [h.2.onTeam 0 size] else none)
  else if s.pclassOf h.1 ≠ 2 ∨ h.2.copy ≠ h.1.primary then none
  else match s.hosts t.vf |>.find? (fun g => g.1.id == h.1.id && g.2.copy == h.1.secondary && g.2.stage == h.2.stage && g.2.replica == h.2.replica) with
    | some g => if ok h.2 && ok g.2 then some [h.2.onTeam 0 size, g.2.onTeam 1 size] else none
    | none => none

/-- The WAITING tasks with count 1 whose one remaining edge or successor entry comes from a task (R91), lowest sequence number first. -/
def State.waitsOnly (s : State) (u : Task) : List Task :=
  sortBy Task.seq (s.sched.tasks.filter fun t => decide (t.stat = .waiting) && decide (t.count = 1) && !t.deaf && t.vf == u.vf &&
    (u.edges.contains t.seq || u.card.succ.any fun tag => match s.tagged u.vf tag with | some x => x.seq == t.seq | none => false))

/-- Adds a preloaded grid point of a WAITING task: its lowest-numbered one that is not preloaded. -/
def State.addPreload (s : State) (t : Task) (ts : List Placed) (onto : Nat) : State :=
  let have_ := s.sched.insts.filter fun i => i.seq == t.seq
  let points := (List.range (have_.length + 1)).map fun n => (n % t.card.gx, n / t.card.gx % t.card.gy, n / (t.card.gx * t.card.gy))
  match points.find? (fun p => decide (p.2.2 < t.card.gz) && !(have_.any fun i => i.x == p.1 && i.y == p.2.1 && i.z == p.2.2)) with
  | none => s
  | some p => { s with sched := { s.sched with
      instNext := s.sched.instNext + 1
      insts := s.sched.insts ++ [{ State.activate.newInst s.sched.instNext t p with stat := .preloaded, teams := ts, onto := some onto }] } }

/-- Whether a WAITING task has a grid point left to preload. -/
def State.hasPoint (s : State) (t : Task) : Bool :=
  decide ((s.sched.insts.filter fun i => i.seq == t.seq).length < t.card.gx * t.card.gy * t.card.gz)

/-- The lines of a code address that a die asks for ahead of a start, in its translation cache and its view: the header's, and once this can
be read those of its block (R91). A miss enters the die's miss queue. -/
def State.entryWants (s : State) (die vf asid pc : Nat) : State × List Nat :=
  let at_ := fun (va : Nat) => match s.xlate die vf asid 3 va with
    | .hit gpa => (match s.locate die vf gpa with | (loc, 0) => some loc | _ => none)
    | _ => none
  match s.xlate die vf asid 3 pc with
  | .miss =>
    let q := s.mem.missq.get die []
    (if q.any (fun e => e.vf == vf && e.asid == asid && e.va / 2 ^ 16 == pc / 2 ^ 16) || decide (Config.missEntries ≤ q.length) then s
      else { s with mem := { s.mem with missq := s.mem.missq.set die (q ++ [⟨vf, asid, pc⟩]) } }, [])
  | _ =>
    match at_ pc with
    | none => (s, [])
    | some loc =>
      let word := ((List.range 4).map fun i => match at_ (pc + i) with
        | some l => if (s.dvByte die l).readable then s.dvVal die l else none
        | none => none)
      match word.mapM id with
      | none => (s, [loc / 64])
      | some bs =>
        let len := match decCommon32 (leNat bs) with | some (.blk _ n) => n | _ => 2
        (s, (((List.range (2 * len)).filterMap fun i => at_ (pc + i)).map (· / 64)).eraseDups)

/-- Preloaded grid points fetch their entry blocks into the caches of their dies (R91). -/
def State.fetchEntries (s : State) : State :=
  (s.sched.insts.filter fun i => decide (i.stat = .preloaded)).foldl (fun s i =>
    match s.taskOf i with
    | none => s
    | some t =>
      let pc := t.card.code + (match t.card.stages with | st :: _ => st.2 | [] => 0)
      ((i.teams.map Placed.die).eraseDups).foldl (fun s die =>
        let (s, lines) := s.entryWants die i.vf t.card.asid pc
        lines.foldl (fun s line =>
          let s := if s.sched.entryLines.contains (i.id, die, line) then s
            else { s with sched := { s.sched with entryLines := s.sched.entryLines ++ [(i.id, die, line)] } }
          if (lineLocs line).all fun l => (s.dvByte die l).readable then s else s.askFill die line i.vf) s) s) s

/-- The lines of preloads that have been withdrawn are discarded, where no other preload has asked for them; those of preloads that have
started stay (R92). -/
def State.dropEntries (s : State) : State :=
  let is := fun (p : Inst → Bool) (id : Nat) => s.sched.insts.any fun i => i.id == id && p i
  let keep := s.sched.entryLines.filter fun e => is (fun i => decide (i.stat = .preloaded)) e.1
  let gone := s.sched.entryLines.filter fun e => !is (fun i => decide (i.stat ≠ .queued)) e.1
  let gone := gone.filter fun e => !(keep.any fun x => x.2 == e.2)
  gone.foldl (fun s e => s.dvDrop e.2.1 (lineLocs e.2.2)) { s with sched := { s.sched with entryLines := keep } }

/-- At most one preload of a partition (R91): of a WAITING task onto a team of the task it waits for, else of the first QUEUED grid point
that cannot be placed now. -/
def State.preload (s : State) (vf : Nat) (queued : List Inst) : State :=
  let hs := s.hosts vf
  let first := hs.findSome? fun h =>
    match s.taskOf h.1 with
    | none => none
    | some u => (s.waitsOnly u).findSome? fun t => if s.hasPoint t then (s.preloadOn t h).map fun ts => (t, ts, h.2.team) else none
  match first with
  | some (t, ts, onto) => s.addPreload t ts onto
  | none =>
    match queued.find? (fun i => decide (i.stat = .queued) && (s.planNow i []).isNone) with
    | none => s
    | some i =>
      match s.taskOf i with
      | none => s
      | some t =>
        match hs.findSome? (fun h => (s.preloadOn t h).map fun ts => (ts, h.2.team)) with
        | none => s
        | some (ts, onto) => s.upInst i.id fun i => { i with stat := .preloaded, teams := ts, onto := some onto }

/-- Preloaded grid points whose task is ACTIVE start on cores that their occupant has left (Table 4-4, Table 4-5). -/
def State.startPreloads (s : State) : State :=
  s.sched.insts.foldl (fun s i0 =>
    match s.sched.insts.find? (fun i => i.id == i0.id) with
    | none => s
    | some i =>
      match s.taskOf i with
      | none => s
      | some t =>
        let m := match i.teams with | p :: _ => quadOf p.die | [] => 0
        if i.stat ≠ .preloaded ∨ t.stat ≠ .active ∨ t.deaf ∨ (i.ctxs.any fun k => (s.ctx k).live) ∨
            (t.card.pclass = 2 ∧ !s.bufferRoom m (i.copyCores (t.card.team + 1))) then s
        else
          let ps := i.teams.map fun p => Plan.mk p.copy p.stage p.replica p.die (p.ctxs.map (· / 4))
          s.startInst i t.card ps) s

end Sys2Proof.Machine
end

