-- ==== Sys2Proof/Machine/Scheduler.lean ====
section
/-!
DEFINITION. Sys2Proof/Machine/Scheduler.lean: admission (R64, R65, R76 to R79), placement decisions and aging (R85 to R88, R120), priority
pre-emption (R94), and one scheduler step (R75, Table 4-1).
-/

namespace Sys2Proof.Machine

/-! ### Admission (R64, R65, R76 to R79) -/

/-- Whether every field of a card lies in its range and every must-be-zero field is zero (Table 3-8, Table 3-9 check 1). -/
def Card.wellMade (c : Card) : Bool :=
  c.mbz && decide (c.eng ≠ 0) && decide (1 ≤ c.nstage ∧ c.nstage ≤ 8) && decide (c.pclass ≤ 2) && decide (c.version = 1) &&
    decide (c.gx ≠ 0 ∧ c.gy ≠ 0 ∧ c.gz ≠ 0) && decide (c.ttab % 64 = 0) && decide (c.ovf % 16 = 0) && decide (c.ttabn ≤ 4096) &&
    decide (c.ttabn ≠ 0 ∨ c.ttab = 0) && (c.stages.all fun s => decide (s.1 ≠ 0) && decide (s.2 % 2 = 0)) && c.regions.all fun r => decide (r.len ≠ 0)

/-- Requester number of L0's own reads in `MemSt.waiters` and `FillBad.who`, with granule slots for lines. -/
def linkWho : Nat := 2048

/-- L0 touches a granule slot as it reads an overflow list (R43, R44): a bindable one is bound, from quadrant 0 on (DESIGN CHOICE,
notes/assumptions/95.md), and the pull of one starts. Whether it can be read; none while its pull is in progress. -/
def State.listTouch (s : State) (vf slot : Nat) : State × Option Bool :=
  let quiet := fun (s : State) => { s with mem := { s.mem with waiters := s.mem.waiters.filter fun w => decide (w ≠ (linkWho, slot)) } }
  match s.homeOf Config.linkDie vf slot with
  | .at_ .. => (quiet s, some true)
  | .bind =>
    (match s.bindSlot slot 0 [] with
      | some s => (s, some true)
      | none => (s, some false))
  | .pull =>
    if (s.badFill linkWho slot).isSome then ((quiet s).dropBadFill linkWho, some false)
    else
      let waiters := if s.mem.waiters.contains (linkWho, slot) then s.mem.waiters else s.mem.waiters ++ [(linkWho, slot)]
      let pulling := if s.mem.pulling.contains slot then s.mem.pulling else s.mem.pulling ++ [slot]
      ({ s with mem := { s.mem with waiters := waiters, pulling := pulling } }, none)
  | .err _ => (s, some false)

/-- What L0 gets for a quadword of an overflow list. -/
inductive ListRead where
  | quad (w : Nat)
  | bad
  | wait
deriving DecidableEq, Repr

/-- L0 reads 8 bytes of a granule that it can read, through the storage code. -/
def State.listHbm (s : State) (vf loc : Nat) : State × ListRead :=
  match s.homeOf Config.linkDie vf (loc / 2 ^ 21) with
  | .at_ _ a =>
    let (s, b) := s.hbmRead (a + loc % 2 ^ 21) 8
    (s, match b with | some bs => .quad (leNat bs) | none => .bad)
  | _ => (s, .bad)

/-- L0 reads the quadword at a virtual address of an identifier (R36, R43, R44); `fuel` bounds the granules that it binds on the way. -/
def State.listQuad (s : State) (vf asid va fuel : Nat) : State × ListRead :=
  let e := s.pf.ase.get asid {}
  match fuel with
  | 0 => (s, .bad)
  | fuel + 1 =>
    match s.walk Config.linkDie vf asid va with
    | .page gpa size rd _ _ =>
      -- the table entries are read through the storage code, too (R123, R124)
      let locs := (s.walkLocs Config.linkDie vf va (e.w1.toNat * 2 ^ 16) 0 4).filter fun l => l % 8 == 0
      let s := locs.foldl (fun (s : State) l => (s.listHbm vf l).1) s
      if !rd then (s, .bad)
      else match s.locate Config.linkDie vf (gpa + va % 2 ^ size) with
        | (loc, 0) =>
          (match s.listTouch vf (loc / 2 ^ 21) with
            | (s, some true) => s.listHbm vf loc
            | (s, some false) => (s, .bad)
            | (s, none) => (s, .wait))
        | _ => (s, .bad)
    | .wait line =>
      (match s.listTouch vf (line * 64 / 2 ^ 21) with
        | (s, some true) => s.listQuad vf asid va fuel
        | (s, some false) => (s, .bad)
        | (s, none) => (s, .wait))
    | _ => (s, .bad)

/-- What reading an overflow list gives: its regions and whether they keep the region rules, or that it cannot be read or has to wait. -/
inductive Overflow where
  | regions (rs : List Region) (ok : Bool)
  | bad
  | wait
deriving DecidableEq, Repr

/-- The overflow regions of a card from a list position on (R65). -/
def State.overflow (s : State) (vf : Nat) (c : Card) (at_ n : Nat) : State × Overflow :=
  match n with
  | 0 => (s, .regions [] true)
  | n + 1 =>
    match s.listQuad vf c.asid at_ 6 with
    | (s, .bad) => (s, .bad)
    | (s, .wait) => (s, .wait)
    | (s, .quad q0) =>
      match s.listQuad vf c.asid (at_ + 8) 6 with
      | (s, .bad) => (s, .bad)
      | (s, .wait) => (s, .wait)
      | (s, .quad q1) =>
        match s.overflow vf c (at_ + 16) n with
        | (s, .regions rs ok) =>
          let (r, z) := regionOf q0 q1
          (s, .regions (r :: rs) (ok && z && decide (r.len ≠ 0)))
        | (s, r) => (s, r)

/-- Whether two regions overlap (R77). -/
def Region.meets (a b : Region) : Bool := decide (a.base < b.base + b.len) && decide (b.base < a.base + a.len)

/-- Whether the modes of two overlapping regions make an edge (Table 4-2). -/
def edgeModes (u t : Nat) : Bool := !(u == 0 && t == 0) && !(u == 3 && t == 3)

/-- Whether an in-flight task's regions conflict with new ones (R77). -/
def conflicts (us ts : List Region) : Bool := us.any fun u => ts.any fun t => u.meets t && edgeModes u.mode t.mode

/-- Whether a class 2 card's written regions overlap its read ones (Table 3-9 check 5). -/
def overlapping (rs : List Region) : Bool :=
  rs.any fun a => rs.any fun b => decide (a.mode = 1 ∨ a.mode = 2) && decide (b.mode = 0 ∨ b.mode = 2) && a.meets b

/-- Whether some die has enough cores on which the partition uses the engines (Table 3-9 check 4). -/
def State.someDie (s : State) (vf : Nat) (c : Card) : Bool :=
  (List.range 16).any fun d => decide (c.team + 1 ≤ ((List.range 16).filter fun col => s.ownsAll vf (16 * d + col) c.eng).length)

/-- What checking a fetched card gives (Table 3-9, R76, R78): a status, the card with its overflow regions, or it waits. -/
inductive Checked where
  | reject (status : Nat)
  | enrol (regions : List Region)
  | waits
deriving DecidableEq, Repr

/-- Checks a card; the state changes as the overflow list is read. -/
def State.check (s : State) (vf : Nat) (c : Card) : State × Checked :=
  let ase := s.pf.ase.get c.asid {}
  if !c.wellMade then (s, .reject 1)
  else if !ase.w0.getLsbD 31 ∨ fld ase.w0.toNat 0 9 ≠ vf then (s, .reject 2)
  else match s.overflow vf c c.ovf c.ovfn with
    | (s, .bad) => (s, .reject 5)
    | (s, .wait) => (s, .waits)
    | (s, .regions _ false) => (s, .reject 1)
    | (s, .regions more true) =>
      let rs := c.regions ++ more
      if !s.someDie vf c then (s, .reject 3)
      else if c.pclass = 2 ∧ overlapping rs then (s, .reject 4)
      else
        let flying := s.sched.tasks.filter fun t => decide (t.stat ≠ .ended)
        let mine := flying.filter fun t => t.vf == vf
        if Config.maxPartTasks ≤ mine.length ∨ Config.maxTasks ≤ flying.length then (s, .waits)
        else if mine.any fun u => conflicts u.regions rs && decide (Config.maxEdges ≤ u.edges.length) then (s, .waits)
        else (s, .enrol rs)

/-- Admits a card: its sequence number, edges, wait count and early decrements (R76 to R79). -/
def State.enrol (s : State) (vf q : Nat) (c : Card) (rs : List Region) : State :=
  let seq := s.sched.seqNext
  let from_ := s.sched.tasks.filter fun u => u.vf == vf && decide (u.stat ≠ .ended) && conflicts u.regions rs
  let early := match s.sched.early.find? (fun e => e.1 == vf && e.2.1 == c.tag) with | some e => e.2.2 | none => 0
  let sum := c.wait + from_.length
  let under := decide (sum < early)
  let count := sum - early
  let x := s.queue vf q
  let t : Task := { seq := seq, vf := vf, q := q, nopre := x.nopre, card := c, regions := rs, stat := .waiting, count := count, edges := []
                    underflow := under, ending := none, cyc := 0, retry := [] }
  let seqs := from_.map Task.seq
  let tasks := s.sched.tasks.map fun (u : Task) => if seqs.contains u.seq then { u with edges := u.edges ++ [seq] } else u
  let s := s.setQueue vf q { x with infl := x.infl + 1 }
  let s := { s with sched := { s.sched with
    seqNext := seq + 1
    tasks := tasks ++ [t]
    early := s.sched.early.filter fun e => !(e.1 == vf && e.2.1 == c.tag) } }
  if count = 0 ∧ !under then s.activate seq else s

/-- Phase 2: the first fetched card whose partition is enabled and does not wait is checked, and admitted or rejected. -/
def State.phase2 (s : State) (cards : List (Nat × Nat × Card)) (blocked : List Nat) : State × List Due :=
  match cards with
  | [] => (s, [])
  | (vf, q, c) :: rest =>
    if blocked.contains vf ∨ s.frozen vf ∨ !(s.pctl vf).w0.getLsbD 31 then s.phase2 rest (vf :: blocked)
    else
      let gone := fun (s : State) => { s with sched := { s.sched with fetched := s.sched.fetched.erase (vf, q, c) } }
      match s.check vf c with
      | (s, .waits) => s.phase2 rest (vf :: blocked)
      | (s, .reject st) => (gone s, [⟨vf, q, ⟨c.tag, 0, st, 0, 0, 0⟩⟩])
      | (s, .enrol rs) => ((gone s).enrol vf q c rs, [])

/-! ### The ready queue (R85) -/

/-- Whether a task still runs its course. -/
def State.running (s : State) (seq : Nat) : Bool := s.sched.tasks.any fun t => t.seq == seq && decide (t.stat = .active) && !t.deaf

/-- Position of a grid point in its partition's queue: effective priority, sequence number, grid index. -/
def State.queueKey (s : State) (i : Inst) : Nat :=
  let c := match s.taskOf i with | some t => t.card | none => cardOf fun _ => 0
  ((7 - i.eprio) * 2 ^ 48 + i.seq) * 2 ^ 48 + (i.x + c.gx * (i.y + c.gy * i.z))

/-- The ready queue of a partition, in order (R85). -/
def State.ready (s : State) (vf : Nat) : List Inst :=
  sortBy s.queueKey (s.sched.insts.filter fun i => i.vf == vf && decide (i.stat = .queued ∨ i.stat = .saved) && s.running i.seq)

/-- Whether an instance is reserved (R85). -/
def Inst.reserved (i : Inst) : Bool := decide (7 ≤ i.eprio ∧ 32 ≤ i.age)

/-- One decision ages every grid point left in the queue (R85). -/
def Inst.older (i : Inst) : Inst :=
  if i.reserved then i
  else if 31 ≤ i.age ∧ i.eprio < 7 then { i with age := 0, eprio := i.eprio + 1 }
  else { i with age := i.age + 1 }

/-- A decision of a partition has been made: what it leaves in the queue ages. -/
def State.ageQueue (s : State) (vf : Nat) : State :=
  let ids := (s.ready vf).map Inst.id
  { s with sched := { s.sched with insts := s.sched.insts.map fun i => if ids.contains i.id then i.older else i } }

/-! ### Placement decisions (R86 to R88, R120) -/

/-- The state with every die live, in service and available. -/
def State.allOpen (s : State) : State := { s with pf := { s.pf with susp := [], power := [], left := [] } }

/-- The placement fault of R88, or its mending by R120: none when the task ends, else the replica counts in force. After the first attempt
only the retirement, loss or unavailability of dies makes one (R120); a grid point without engines waits (notes/assumptions/35.md). -/
def State.mend (s : State) (i : Inst) (t : Task) : Option (List Nat) :=
  if s.passes88 t.card i.vf i i.repls then some i.repls
  else if i.tried && !s.allOpen.passes88 t.card i.vf i i.repls then some i.repls
  else if t.card.shrink then s.halved t.card i.vf i i.repls 9
  else none

/-- Places the first grid point of a list that can be placed now; those that fail R88 end their tasks. Whether one was placed. -/
def State.placeFirst (s : State) (is : List Inst) : State × Bool :=
  match is with
  | [] => (s, false)
  | i :: rest =>
    match s.taskOf i with
    | none => s.placeFirst rest
    | some t =>
      if t.deaf then s.placeFirst rest
      else match s.mend i t with
        | none => (s.endTask t.seq 6 0 0).placeFirst rest
        | some repls =>
          let i := { i with repls := repls, tried := true }
          match s.planNow i [] with
          | none => (s.upInst i.id fun _ => i).placeFirst rest
          | some ps =>
            let s := s.upInst i.id fun _ => i
            (if i.stat = .saved then s.resumeInst i ps else s.startInst i t.card ps, true)

/-- The placement decision of a partition: a tie-break or replacement copy that is due, then a reserved grid point, then the first in order
that can be placed (R85, R86, R115). -/
def State.decide_ (s : State) (vf : Nat) : State :=
  let ties := s.sched.insts.filter fun i => i.vf == vf && i.tieDue && decide (i.stat = .running) && !i.stopping && s.running i.seq
  let r := match leastBy Inst.seq ties with
    | some i =>
      (match s.taskOf i with
        | some t => s.placeTie i t.card
        | none => (s, false))
    | none =>
      let q := s.ready vf
      match q.find? Inst.reserved with
      | some i => s.placeFirst [i]
      | none => s.placeFirst q
  if r.2 then r.1.ageQueue vf else r.1

/-! ### Priority pre-emption (R94) -/

/-- The grid point that a partition's priority pre-emption stops, if any: of lowest task priority, then highest sequence number, then
highest grid index. -/
def State.victim (s : State) (vf : Nat) : Option Inst :=
  let q := s.ready vf
  match (match q.find? Inst.reserved with | some i => some i | none => q.head?) with
  | none => none
  | some h =>
    if (s.planNow h []).isSome ∨ (s.sched.insts.any fun i => i.vf == vf && i.prioStop) then none
    else
      let prio := fun (i : Inst) => match s.taskOf i with | some t => t.card.prio | none => 0
      let cand := s.sched.insts.filter fun v => v.vf == vf && decide (v.stat = .running) && !v.stopping && decide (prio v < h.eprio) &&
        s.running v.seq && (s.planNow h v.teams).isSome
      -- rank: task priority ascending, then queue position descending within the priority
      leastBy (fun v => prio v * 2 ^ 100 + (2 ^ 97 - s.queueKey { v with eprio := 7 })) cand

/-- Starts a partition's priority pre-emption, if one is due. -/
def State.prioritise (s : State) (vf : Nat) : State :=
  match s.victim vf with
  | none => s
  | some v =>
    let s := s.preempt v.id
    s.upInst v.id fun i => { i with prioStop := i.stopping || i.waitArea }

/-- Phase 5 of a partition: of the pre-emptions that are due the one whose grid point stands first in the order of R85 is started (DESIGN
CHOICE, notes/assumptions/94.md), else a priority pre-emption (R75, R94). -/
def State.startStop (s : State) (vf : Nat) : State :=
  match leastBy s.queueKey (s.sched.insts.filter fun i => i.vf == vf && i.due && decide (i.stat = .running) && !i.stopping && !i.waitArea) with
  | some i => s.preempt i.id
  | none => if s.frozen vf then s else s.prioritise vf

/-! ### One step (R75, Table 4-1) -/

/-- Partitions with grid points, ascending. -/
def State.instVfs (s : State) : List Nat := sortBy id (s.sched.insts.map Inst.vf).eraseDups

/-- Partitions with grid points and no checkpoint in progress, ascending. -/
def State.busyVfs (s : State) : List Nat := s.instVfs.filter fun vf => !s.frozen vf

/-- The records of a step are written in order, and each queue that had one written sends one message (R66, R69). -/
def State.writeDue (s : State) (recs : List Due) : State :=
  let qs := (recs.map fun d => (d.vf, d.q)).eraseDups
  let before := qs.map fun q => (s.queue q.1 q.2).ctail
  let s := recs.foldl (fun s d => s.putRecord d.vf d.q d.r) s
  (qs.zip before).foldl (fun s q =>
    if (s.queue q.1.1 q.1.2).ctail = q.2 then s else s.sendMsix (.vf q.1.1) (s.queue q.1.1 q.1.2).vec) s

/-- `SCHEDULER_STEP`: the phases of Table 4-1 in order, in every fourth cycle of L0's counter; nothing happens while a module check is in
force (R255). -/
def execSchedulerStep (s : State) : Out :=
  .next (if s.pf.modCheck ∨ (s.cycle Config.linkDie).toNat % 4 ≠ 0 then s
    else
      let (s, recs1) := s.phase1
      let s := s.startPreloads
      let (s, recs2) := s.phase2 s.sched.fetched []
      let s := s.writeDue (recs1 ++ recs2)
      let s := s.busyVfs.foldl State.decide_ s
      let s := (s.busyVfs.foldl (fun s vf => s.preload vf (s.ready vf)) s).fetchEntries
      (s.instVfs.foldl State.startStop s).dropEntries.turnPools)

end Sys2Proof.Machine
end

