-- ==== Sys2Proof/Machine/Vector.lean ====
section
/-!
DEFINITION. Sys2Proof/Machine/Vector.lean: what every vector instruction shares (R353 to R358): elements and views, active elements,
the checks at issue, the scoreboard, and a result on its way to its landing (R160, R161).
-/

namespace Sys2Proof.Machine

/-! ### Elements, views, active elements -/

/-- Element e of a register as elements of wb bytes (R353). -/
def elemOf (wb : Nat) (v : VReg) (e : Nat) : Nat := fld v.toNat (8 * wb * e) (8 * wb)

/-- Register element that view element e shows in a direction; none where the view reads zero (R355). -/
def VecSt.viewAt (x : VecSt) (dir e : Nat) : Option Nat :=
  let r := e / x.nc
  let c := e % x.nc
  match dir with
  | 1 => if c < x.nr ∧ r < x.nc then some (c * x.nc + r) else none
  | 2 => some (r * x.nc + (c + r + x.diag) % x.nc)
  | _ => some e

/-- View element e of register r. -/
def Ctx.src (c : Ctx) (wb dir r e : Nat) : Nat :=
  match c.vec.viewAt dir e with
  | some i => elemOf wb (c.readV r) i
  | none => 0

/-- Registers of a group (R226). -/
def groupOf (b k : Nat) : List Nat := (List.range (k + 1)).map (b + ·)

/-- Coefficients of the jet at view element e of the group at r. -/
def Ctx.jet (c : Ctx) (dir r k e : Nat) : List Nat := (groupOf r k).map fun q => c.src 4 dir q e

/-- The active elements in ascending order (R356). -/
def Ctx.active (c : Ctx) : List Nat :=
  (List.range c.vec.count).filter fun e => !c.vec.gpen || decide (e < (c.readP c.vec.gp).1)

/-- Order of a jet-aware move: ORD while elements have 32 bits, else 0 (R358). -/
def VecSt.moveOrd (x : VecSt) : Nat := if x.wcode = 2 then x.ord else 0

/-- Mask and value of the register bits that elements of wb bytes cover; a later element replaces an earlier one. -/
def packV (wb : Nat) (es : List (Nat × Nat)) : VReg × VReg :=
  let r := es.foldl (fun (a : Nat × Nat) e =>
    let m := (2 ^ (8 * wb) - 1) * 2 ^ (8 * wb * e.1)
    (a.1 ||| m, ((a.2 ||| m) ^^^ m) ||| (e.2 % 2 ^ (8 * wb)) * 2 ^ (8 * wb * e.1))) (0, 0)
  (BitVec.ofNat 16384 r.1, BitVec.ofNat 16384 r.2)

/-- Elements (index, value) that an instruction writes to each destination register. -/
abbrev VOuts := List (Nat × List (Nat × Nat))

/-- Coefficients of each active element, turned into the elements of the registers of a group. -/
def groupOuts (vd k : Nat) (es : List (Nat × List Nat)) : VOuts :=
  (List.range (k + 1)).map fun j => (vd + j, es.map fun e => (e.1, e.2.getD j 0))

/-! ### Checks at issue (R226, R297, R357, R358) -/

/-- Whether the scoreboard holds an instruction that touches these registers, and p(GP) if it is governed (R161). -/
def Ctx.vHeld (c : Ctx) (vs ks ps : List Nat) : Bool :=
  !c.vec.exposed && c.vec.blocks vs ks (if c.vec.gpen then c.vec.gp :: ps else ps)

/-- The checks of a vector instruction at issue: groups of order k within v63, the scoreboard, the fixed width that VSHAPE.W must
have, and the governed width (Table 16-4). -/
def State.vStart (s : State) (k : Nat) (groups vs ks ps : List Nat) (fixed gov : Option Nat) (go : State) : State :=
  let c := s.here
  let x := c.vec
  if groups.any fun b => decide (63 < b + k) then s.illegal
  else if c.vHeld (groups.flatMap (groupOf · k) ++ vs) ks ps then s
  else if (match fixed with | some w => w != x.wcode | none => false) ||
      (match gov with | some w => x.gpen && (c.readP x.gp).2 != w | none => false) then s.faultC cSHAPE
  else go

/-! ### Results (R160, R161, R298) -/

/-- Landing records of an instruction, one for each register or slot it writes (R237, R250): coefficient i's flags land with record i, and
those of coefficients beyond the last record with that one. -/
def VecSt.records (x : VecSt) (id pc lat wb vd flags : Nat) (ws : List VWrite) : List Landing :=
  ((List.range ws.length).zip ws).map fun p =>
    { tag := id, slot := if x.exposed then some (x.slot + lat) else none, ready := true, writes := [p.2]
      flags := BitVec.ofNat 32 ((if p.1 + 1 = ws.length then flags / 2 ^ (5 * p.1) else fld flags (5 * p.1) 5) * 2 ^ (5 * p.1))
      elems := [], wb := wb, vd := vd, pc := pc, rob := id, err := 0 }

/-- An instruction that makes n pending results waits while they would pass 32 in exposed mode (R250). -/
def State.vRoom (s : State) (n : Nat) (go : State) : State :=
  if s.here.vec.exposed && decide (32 < s.here.vec.landing.length + n) then s else go

/-- The executing instruction issues with a result that lands `lat` slots later, or in interlocked mode when it completes: elements of
wb bytes, other writes, flags. In class 2 its elements enter the vector word (R106). -/
def State.vEmit (s : State) (lat wb vd : Nat) (outs : VOuts) (extra : List VWrite) (flags : Nat) : State :=
  let x := s.here.vec
  let id := s.ord.nextId
  let ws := (outs.map fun o => let m := packV wb o.2; VWrite.v o.1 m.1 m.2) ++ extra
  let ls := x.records id s.cur.pc lat wb vd flags ws
  s.vRoom ls.length (
    let s := s.upHere fun c => { c with vec := { c.vec with landing := c.vec.landing ++ ls } }
    (s.contribute s.cur.ctx id (some (outs.flatMap Prod.snd))).freshId.issued id x.exposed)

/-- Latency of a jet-aware instruction of order k (R298). -/
def jetLat (base per k : Nat) : Nat := base + k * per

/-- Flags of the active elements of an instruction, coefficient i in slot i. -/
def foldFlags (fs : List (List Nat)) : Nat := fs.foldl (fun acc f => acc ||| slotFlags f) 0

end Sys2Proof.Machine
end

