-- ==== Sys2Proof/Machine/VectorInt.lean ====
section
/-!
DEFINITION. Sys2Proof/Machine/VectorInt.lean: integer arithmetic (R363), moves and broadcasts (R374, R375), jet movements (R382),
shape, predicates and index registers (R354, R380, R381), and the mode switch (R387).
-/

namespace Sys2Proof.Machine

/-! ### Integer arithmetic (R363) -/

/-- An integer operation on w-bit elements: width, a, b and old d; the result is taken modulo 2^w. -/
def State.vInt (s : State) (f : Nat → Nat → Nat → Nat → Int) (lat vd : Nat) (va : VSrc) (vb : Option VSrc) : State :=
  let c := s.here
  let x := c.vec
  let w := 8 * x.wb
  s.vStart 0 [] ([vd, va.reg] ++ (match vb with | some b => [b.reg] | none => [])) [] [] none (some x.wcode) (
    s.vEmit lat x.wb vd [(vd, c.active.map fun e =>
      let b := match vb with | some b => c.src x.wb b.dir b.reg e | none => 0
      (e, toBits w (f w (c.src x.wb va.dir va.reg e) b (c.src x.wb 0 vd e))))] [] 0)

/-- A checked integer operation, by its exact result and what the datapath makes of it, modulo 2^w (R100, R101): an error of the pipeline
damages one element; in class 1 the residues of the active elements are compared, a failed compare runs it again, and a second one
is a CHECK fault. -/
def State.vIntChecked (s : State) (exact : Nat → Nat → Nat → Nat → Int) (cut : Nat → Int → Int) (lat vd : Nat) (va : VSrc) (vb : Option VSrc) :
    State :=
  let c := s.here
  let x := c.vec
  let w := 8 * x.wb
  s.vStart 0 [] ([vd, va.reg] ++ (match vb with | some b => [b.reg] | none => [])) [] [] none (some x.wcode) (s.vRoom 1 (
    let rs := c.active.map fun e =>
      let b := match vb with | some b => c.src x.wb b.dir b.reg e | none => 0
      let r := exact w (c.src x.wb va.dir va.reg e) b (c.src x.wb 0 vd e)
      (e, r, toBits w (cut w r))
    let run := fun (chk : Bool) (err : ElemErr) =>
      let es := rs.map fun r => (r.1, toBits w (r.2.2 + errAt err 0 r.1))
      (es, !chk || (rs.zip es).all fun p => decide (residueOf p.1.2.1 p.1.2.2 = (p.2.2 : Int) % 15))
    match s.checked s.cur.ctx .v run with
    | (s, none) => (s.faultC cCHECK).checkFailed s.cur.ctx .v
    | (s, some es) => s.vEmit lat x.wb vd [(vd, es)] [] 0))

/-- Clamps to the signed range of w bits. -/
def clampW (w : Nat) (v : Int) : Int := max (-(2 ^ (w - 1))) (min (2 ^ (w - 1) - 1) v)

/-- `viadd`: (a + b) mod 2^w (R363). -/
def execViadd (vd : Nat) (va vb : VSrc) (s : State) : Out := .next (s.vIntChecked (fun _ a b _ => (a : Int) + b) (fun _ r => r) 4 vd va (some vb))

/-- `visub`: (a - b) mod 2^w (R363). -/
def execVisub (vd : Nat) (va vb : VSrc) (s : State) : Out := .next (s.vIntChecked (fun _ a b _ => (a : Int) - b) (fun _ r => r) 4 vd va (some vb))

/-- `vimul`: (a · b) mod 2^w (R363). -/
def execVimul (vd : Nat) (va vb : VSrc) (s : State) : Out := .next (s.vIntChecked (fun _ a b _ => (a : Int) * b) (fun _ r => r) 6 vd va (some vb))

/-- `vimad`: (a · b + d) mod 2^w (R363). -/
def execVimad (vd : Nat) (va vb : VSrc) (s : State) : Out := .next (s.vIntChecked (fun _ a b d => (a : Int) * b + d) (fun _ r => r) 6 vd va (some vb))

/-- `vand`: bitwise and (R363). -/
def execVand (vd : Nat) (va vb : VSrc) (s : State) : Out := .next (s.vInt (fun _ a b _ => ((a &&& b : Nat) : Int)) 4 vd va (some vb))

/-- `vor`: bitwise or (R363). -/
def execVor (vd : Nat) (va vb : VSrc) (s : State) : Out := .next (s.vInt (fun _ a b _ => ((a ||| b : Nat) : Int)) 4 vd va (some vb))

/-- `vxor`: bitwise exclusive or (R363). -/
def execVxor (vd : Nat) (va vb : VSrc) (s : State) : Out := .next (s.vInt (fun _ a b _ => ((a ^^^ b : Nat) : Int)) 4 vd va (some vb))

/-- `vshl`: a shifted left by b mod w (R363). -/
def execVshl (vd : Nat) (va vb : VSrc) (s : State) : Out := 
  .next (s.vIntChecked (fun w a b _ => ((a * 2 ^ (b % w) : Nat) : Int)) (fun _ r => r) 4 vd va (some vb))

/-- `vshr`: a shifted right with zeros by b mod w (R363). -/
def execVshr (vd : Nat) (va vb : VSrc) (s : State) : Out := .next (s.vInt (fun w a b _ => ((a / 2 ^ (b % w) : Nat) : Int)) 4 vd va (some vb))

/-- `vsar`: a shifted right with sign copies by b mod w (R363). -/
def execVsar (vd : Nat) (va vb : VSrc) (s : State) : Out := .next (s.vInt (fun w a b _ => toSigned w a / 2 ^ (b % w)) 4 vd va (some vb))

/-- `vimin`: signed minimum (R363). -/
def execVimin (vd : Nat) (va vb : VSrc) (s : State) : Out := .next (s.vInt (fun w a b _ => min (toSigned w a) (toSigned w b)) 4 vd va (some vb))

/-- `vimax`: signed maximum (R363). -/
def execVimax (vd : Nat) (va vb : VSrc) (s : State) : Out := .next (s.vInt (fun w a b _ => max (toSigned w a) (toSigned w b)) 4 vd va (some vb))

/-- `viadds`: signed sum, clamped (R363). -/
def execViadds (vd : Nat) (va vb : VSrc) (s : State) : Out := 
  .next (s.vIntChecked (fun w a b _ => toSigned w a + toSigned w b) clampW 4 vd va (some vb))

/-- `visubs`: signed difference, clamped (R363). -/
def execVisubs (vd : Nat) (va vb : VSrc) (s : State) : Out := 
  .next (s.vIntChecked (fun w a b _ => toSigned w a - toSigned w b) clampW 4 vd va (some vb))

/-- `vimulh`: bits [2w-1:w] of the signed product (R363). -/
def execVimulh (vd : Nat) (va vb : VSrc) (s : State) : Out := .next (s.vInt (fun w a b _ => toSigned w a * toSigned w b / 2 ^ w) 6 vd va (some vb))

/-- `vineg`: (-a) mod 2^w (R363). -/
def execVineg (vd : Nat) (va : VSrc) (s : State) : Out := .next (s.vIntChecked (fun _ a _ _ => -(a : Int)) (fun _ r => r) 4 vd va none)

/-- `vnot`: bitwise complement (R363). -/
def execVnot (vd : Nat) (va : VSrc) (s : State) : Out := .next (s.vInt (fun w a _ _ => (2 : Int) ^ w - 1 - a) 4 vd va none)

/-- `viabs`: |a| mod 2^w; the most negative number is written unchanged (R363). -/
def execViabs (vd : Nat) (va : VSrc) (s : State) : Out := .next (s.vInt (fun w a _ _ => ((toSigned w a).natAbs : Int)) 4 vd va none)

/-! ### Moves and broadcasts (R374, R375) -/

/-- A move of view elements, the same on each register of the group: element e of the destination takes view element `ix e`. -/
def State.vMoveBy (s : State) (ix : Nat → Nat) (base per vd : Nat) (va : VSrc) (ks : List Nat) (bad : Bool) : State :=
  let c := s.here
  let x := c.vec
  let k := x.moveOrd
  s.vStart k [vd, va.reg] [] ks [] none (some x.wcode) (
    if bad then s.faultC cSHAPE
    else s.vEmit (jetLat base per k) x.wb vd (groupOuts vd k (c.active.map fun e =>
      (e, (groupOf va.reg k).map fun r => c.src x.wb va.dir r (ix e)))) [] 0)

/-- `vmov`: the view of va (R374). -/
def execVmov (vd : Nat) (va : VSrc) (s : State) : Out := .next (s.vMoveBy id 4 1 vd va [] false)

/-- `vtrn`: element c · nr + r takes view element (r, c); SHAPE for more than 32 columns (R374). -/
def execVtrn (vd : Nat) (va : VSrc) (s : State) : Out :=
  let x := s.here.vec
  .next (s.vMoveBy (fun d => d % x.nr * x.nc + d / x.nr) 4 1 vd va [] (decide (32 < x.nc)))

/-- `vbce`: every active element takes the flat view element that kM names; SHAPE beyond the shape (R375). -/
def execVbce (vd : Nat) (va : VSrc) (km : Nat) (s : State) : Out :=
  let u := (s.here.readK km).toNat
  .next (s.vMoveBy (fun _ => u) 6 1 vd va [km] (decide (s.here.vec.count ≤ u)))

/-- `vbck`: every active element takes the low bits of kM (R375). -/
def execVbck (vd km : Nat) (s : State) : Out :=
  let c := s.here
  let x := c.vec
  .next (s.vStart 0 [] [vd] [km] [] none (some x.wcode) (
    s.vEmit 4 x.wb vd [(vd, c.active.map fun e => (e, (c.readK km).toNat % 2 ^ (8 * x.wb)))] [] 0))

/-- `vext`: kM takes flat view element VVIEW.IDX, zero-extended; SHAPE beyond the shape (R375). -/
def execVext (km : Nat) (va : VSrc) (s : State) : Out :=
  let c := s.here
  let x := c.vec
  .next (s.vStart 0 [] [va.reg] [km] [] none none (
    if x.count ≤ x.viewIdx then s.faultC cSHAPE
    else s.vEmit 2 x.wb 64 [] [.k km (BitVec.ofNat 32 (c.src x.wb va.dir va.reg x.viewIdx))] 0))

/-! ### Jet movements (R382, R233) -/

/-- A jet movement: destination registers vd to vd + top, checks of the groups, coefficients of element e, flags. -/
def State.vJetMove (s : State) (lat vd top : Nat) (groups singles : List Nat) (f : Nat → List Nat) (flags : Nat) : State :=
  let c := s.here
  s.vStart c.vec.ord groups singles [] [] (some 2) (some 2) (
    s.vEmit lat 4 vd (groupOuts vd top (c.active.map fun e => (e, f e))) [] flags)

/-- `jseed`: (value, 1, 0, …). -/
def execJseed (vd : Nat) (va : VSrc) (s : State) : Out :=
  let c := s.here
  .next (s.vJetMove 4 vd c.vec.ord [vd] [va.reg] (fun e => (List.range (c.vec.ord + 1)).map fun i =>
    if i = 0 then c.src 4 va.dir va.reg e else if i = 1 then 0x3F800000 else 0) 0)

/-- `jconst`: (value, 0, …). -/
def execJconst (vd : Nat) (va : VSrc) (s : State) : Out :=
  let c := s.here
  .next (s.vJetMove 4 vd c.vec.ord [vd] [va.reg] (fun e => (List.range (c.vec.ord + 1)).map fun i =>
    if i = 0 then c.src 4 va.dir va.reg e else 0) 0)

/-- `jget`: coefficient n of the group at va. -/
def execJget (vd : Nat) (va : VSrc) (n : Nat) (s : State) : Out :=
  let c := s.here
  .next (if c.vec.ord < n then s.illegal
    else s.vJetMove 4 vd 0 [va.reg] [vd] (fun e => [c.src 4 va.dir (va.reg + n) e]) 0)

/-- `jput`: coefficient n of the group at vd; the others stay. -/
def execJput (vd : Nat) (va : VSrc) (n : Nat) (s : State) : Out :=
  let c := s.here
  .next (if c.vec.ord < n then s.illegal
    else s.vJetMove 4 (vd + n) 0 [vd] [va.reg] (fun e => [c.src 4 va.dir va.reg e]) 0)

/-- `jdiff`: the jet of the derivative, with flags in the slots of its coefficients. -/
def execJdiff (vd : Nat) (va : VSrc) (s : State) : Out :=
  let c := s.here
  let x := c.vec
  let d := fun e => diffJet x.arith (c.jet va.dir va.reg x.ord e)
  .next (s.vJetMove 6 vd x.ord [vd, va.reg] [] (fun e => (d e).map Prod.fst) (foldFlags (c.active.map fun e => (d e).map Prod.snd)))

/-! ### Shape, predicates, index registers (R354, R380, R381) -/

/-- `vshape`: rows, columns and width of every register; illegal for a width code of 3 and beyond 2,048 bytes (R354). -/
def execVshape (rows cols w : Nat) (s : State) : Out :=
  .next (if w = 3 ∨ 2048 < (rows + 1) * (cols + 1) * widthBytes w then s.illegal
    else (s.upHere fun c =>
      { c with vec := { c.vec with vshape := BitVec.ofNat 32 (rows % 32 + cols % 64 * 2 ^ 5 + w * 2 ^ 11) } }).finish)

/-- A predicate write that lands at 2 slots; illegal beyond the elements of the shape, and for a width code of 3 (R380). -/
def State.pset (s : State) (pn count w : Nat) (ks : List Nat) : State :=
  let c := s.here
  if c.vHeld [] ks [pn] then s
  else if w = 3 ∨ c.vec.count < count then s.illegal
  else s.vEmit 2 4 64 [] [.p pn count w] 0

/-- `pset pN, count, w` (R380). -/
def execPsetImm (pn count w : Nat) (s : State) : Out := .next (s.pset pn count w [])

/-- `pset pN, kM, w` (R380). -/
def execPsetK (pn km w : Nat) (s : State) : Out := .next (s.pset pn (s.here.readK km).toNat w [km])

/-- A write of an index register that lands at 2 slots. -/
def State.kWrite (s : State) (kd : Nat) (srcs : List Nat) (v : Half) : State :=
  if s.here.vHeld [] (kd :: srcs) [] then s else s.vEmit 2 4 64 [] [.k kd v] 0

/-- `kadd`: ka + kb mod 2^32 (R381). -/
def execKadd (kd ka kb : Nat) (s : State) : Out :=
  let a := s.here.readK ka
  let b := s.here.readK kb
  .next (s.kWrite kd [ka, kb] (a + b))

/-- `ksub`: ka - kb mod 2^32 (R381). -/
def execKsub (kd ka kb : Nat) (s : State) : Out :=
  let a := s.here.readK ka
  let b := s.here.readK kb
  .next (s.kWrite kd [ka, kb] (a - b))

/-- `kmul`: ka · kb mod 2^32 (R381). -/
def execKmul (kd ka kb : Nat) (s : State) : Out :=
  let a := s.here.readK ka
  let b := s.here.readK kb
  .next (s.kWrite kd [ka, kb] (a * b))

/-- `kand`: bitwise and (R381). -/
def execKand (kd ka kb : Nat) (s : State) : Out :=
  let a := s.here.readK ka
  let b := s.here.readK kb
  .next (s.kWrite kd [ka, kb] (a &&& b))

/-- `kor`: bitwise or (R381). -/
def execKor (kd ka kb : Nat) (s : State) : Out :=
  let a := s.here.readK ka
  let b := s.here.readK kb
  .next (s.kWrite kd [ka, kb] (a ||| b))

/-- `kshl`: ka shifted left by kb mod 32 (R381). -/
def execKshl (kd ka kb : Nat) (s : State) : Out :=
  let a := s.here.readK ka
  let b := s.here.readK kb
  .next (s.kWrite kd [ka, kb] (a <<< (b.toNat % 32)))

/-- `kshr`: ka shifted right with zeros by kb mod 32 (R381). -/
def execKshr (kd ka kb : Nat) (s : State) : Out :=
  let a := s.here.readK ka
  let b := s.here.readK kb
  .next (s.kWrite kd [ka, kb] (a >>> (b.toNat % 32)))

/-- `kmin`: signed minimum (R381). -/
def execKmin (kd ka kb : Nat) (s : State) : Out :=
  let a := s.here.readK ka
  let b := s.here.readK kb
  .next (s.kWrite kd [ka, kb] (if a.toInt ≤ b.toInt then a else b))

/-- `kmax`: signed maximum (R381). -/
def execKmax (kd ka kb : Nat) (s : State) : Out :=
  let a := s.here.readK ka
  let b := s.here.readK kb
  .next (s.kWrite kd [ka, kb] (if a.toInt ≤ b.toInt then b else a))

/-- `kaddi`: ka plus a signed immediate, mod 2^32 (R381). -/
def execKaddi (kd ka : Nat) (imm : Int) (s : State) : Out := .next (s.kWrite kd [ka] (s.here.readK ka + BitVec.ofInt 32 imm))

/-! ### Mode switch (R387) -/

/-- `vmode`: waits until every pending result has landed, then sets VCTL.MODE (R387). -/
def execVmode (exposed : Bool) (s : State) : Out :=
  let (s, ok) := s.settle s.cur.ctx
  .next (if ok then (s.upHere fun c => { c with vec := c.vec.setMode exposed }).finish else s)

/-! ### Control and status registers of the stream (R309 to R311, R237) -/

/-- Whether an access to a vector CSR waits: JFLAG in interlocked mode, for every earlier vector instruction to complete (R237). -/
def Ctx.csrHeld (c : Ctx) (n : Nat) : Bool := n == 0x103 && !c.vec.exposed && !(c.vec.landing.isEmpty && c.sv.rob.all Rob.done)

/-- The vector stream's `csrr`: kd takes the register at 2 slots. -/
def State.csrrV (s : State) (kd n : Nat) : State :=
  if !csrReads .v n then s.illegal
  else if s.here.csrHeld n then s
  else s.kWrite kd [] (BitVec.ofNat 32 (s.csr s.cur.ctx .v n))

/-- The vector stream's `csrw` and `csrwi` of a value. -/
def State.csrwV (s : State) (n : Nat) (srcs : List Nat) (v : Nat) : State :=
  if !csrWrites .v n then s.illegal
  else if s.here.csrHeld n || s.here.vHeld [] srcs [] then s
  else (s.upHere fun c => { c with vec := c.vec.writeCsr n v }).finish

end Sys2Proof.Machine
end

