-- ==== Sys2Proof/Machine/Common.lean ====
section
/-!
DEFINITION. Sys2Proof/Machine/Common.lean: the instructions that every stream has (14_common_system_isa.md): block headers, waiting,
branches, prefixes, ending, traps, the return from the handler, `halt`, CSR words and `sigc`.
-/

namespace Sys2Proof.Machine

/-! ### Blocks, waiting, branches, prefixes (R282 to R289, R300 to R302) -/

/-- `blk`: opens a block; illegal at depth 5 and beyond the end of an enclosing block (R282, R284). -/
def execBlk (cnt len : Nat) (s : State) : Out :=
  let b : Block := ⟨s.cur.pc, len, cnt⟩
  .next (if 4 ≤ s.me.blocks.length ∨ s.me.blocks.any (fun e => decide (e.stop < b.stop)) then s.illegal
    else (s.upStrm s.cur.ctx s.cur.st fun x => { x with blocks := b :: x.blocks }).finish)

/-- `wait`: n + 1 cycles of the die's counter without issue, or in the vector stream n + 1 issue slots (R300). -/
def execWait (n : Nat) (s : State) : Out :=
  let k := s.cur.ctx
  .next (if s.cur.st = .v then
      let left := if s.me.waitN = 0 then n + 1 else s.me.waitN
      let (s, rest) := s.passSlots k (left - 1)
      if rest = 0 then (s.upStrm k .v fun x => { x with waitN := 0 }).finish
      else s.upStrm k .v fun x => { x with waitN := rest + 1 }
    else s.finish.upStrm k s.cur.st fun x => { x with waitN := s.clock + n + 1 })

/-- `br`: control goes to the block header at PC + 2 · off (R301). -/
def execBr (off : Int) (s : State) : Out := .next (s.branch (s.relTo off) id)

/-- `bg`: holds while the slot is UNRESOLVED, then branches when it equals the sense (R302). -/
def execBg (slot : Nat) (sense : Bool) (off : Int) (s : State) : Out :=
  .next (match s.here.readGuard slot with
    | .unresolved => s
    | .isTrue => if sense then s.branch (s.relTo off) id else s.finish
    | .isFalse => if sense then s.finish else s.branch (s.relTo off) id)

/-- A sync prefix stands before the next instruction; an empty one is illegal (R142, R286). -/
def execSyncPrefix (push wset : Nat) (gen : Bool) (slot : Nat) (sense : Bool) (s : State) : Out :=
  .next (if push = 0 ∧ wset = 0 ∧ !gen then s.illegal
    else s.upStrm s.cur.ctx s.cur.st fun x => { x with pfx := some ⟨push, wset, gen, slot, sense, false, false⟩, fp := s.cur.next })

/-- A repeat prefix stands before the next instruction; a mask of 0 is illegal (R287). -/
def execRpt (g : Bool) (step mask n : Nat) (s : State) : Out :=
  .next (if mask = 0 then s.illegal
    else s.upStrm s.cur.ctx s.cur.st fun x =>
      { x with rpt := some { g := g, step := step, mask := mask, n := n + 1, iter := 0, k := none }, fp := s.cur.next })

/-! ### Ending (R303, R137, R138) -/

/-- An engine stream arrives: its blocks close. -/
def StreamSt.arrive (x : StreamSt) (stat : SStat) : StreamSt := { x with stat := stat, blocks := [] }

/-- The control stream of a context has ended: its level-0 tiles are freed, and the level-1 tiles of its team once its last core has ended
(R155). -/
def State.freeEnded (s : State) (k : Nat) : State :=
  let team := (s.ctx k).team.team
  let last := s.ctxs.all fun e => !e.2.live || decide (e.2.team.team ≠ team) || decide (e.2.sc.stat = .ended)
  { s with tiles := s.tiles.filter fun t => !((t.1.level == 0 && t.1.owner == k) || (last && t.1.level == 1 && t.1.owner == team)) }

/-- `end` once everything before it is over: the stream arrives, or the control stream ends as `rdv` does. -/
def State.endNow (s : State) : State :=
  let k := s.cur.ctx
  let st := s.cur.st
  match pushTokens s.here.tok (pushKeys st s.me.pushes) with
  | none => s
  | some _ =>
    if st = .c then
      (if s.here.gathered then ((s.upHere Ctx.allIdle).finish.upStrm k .c fun x => x.arrive .ended).freeEnded k else s)
    else s.finish.upStrm k st fun x => x.arrive .arrived

/-- `end`: after every earlier instruction, every pending result, a lost acknowledgement or write error to be reported, and the commit
point of class 2 (R303). -/
def execEndS (s : State) : Out :=
  let go := fun (s : State) => if !s.me.rob.isEmpty then s else s.synced 65535 (s.committing State.endNow)
  .next (if s.cur.st = .c ∧ s.here.hmode then s.illegal
    else if s.cur.st = .v then
      let (s, ok) := s.settle s.cur.ctx
      if ok then go s else s
    else go s)

/-! ### Traps (R304) -/

/-- `brk`: the BREAK trap with the immediate in SUB. -/
def execBrk (imm : Nat) (s : State) : Out := .next (s.trap cBREAK imm)

/-- `svc`: the SVC trap with the immediate in SUB. -/
def execSvc (imm : Nat) (s : State) : Out := .next (s.trap cSVC imm)

/-! ### Return from the handler (R243, R305, R437) -/

/-- Retry or Skip of an entry of an engine queue (R243). -/
def Ctx.eretEntry (c : Ctx) (st : Strm) (q : QEntry) (skip : Bool) : Ctx :=
  if skip then
    ((((c.setQueue st ((c.queue st).map fun e => if e.id = q.id then { e with faulted := false, discarded := true, done := true } else e)).complete
      st q.id 0).retire st).purge st)
  else c.setQueue st ((c.queue st).map fun e => if e.id = q.id then { e with faulted := false } else e)

/-- The instruction at a stream's boundary is to retire as if discarded; the control stream's boundary is the one that delivery saved. -/
def Ctx.skipNext (c : Ctx) (st : Strm) : Ctx :=
  if st = .c then { c with hsave := c.hsave.map fun h => { h with discard := true } }
  else c.upStrm st fun x => { x with discard := true }

/-- The action of `eret` on the stream of number n: Retry or Skip of what its record reports (R243). A trap is over. -/
def Ctx.eretStrm (c : Ctx) (n : Nat) : Ctx :=
  let f := c.frec.get n {}
  let st := strmOf n
  let skip := decide (c.act.get n 0 = 1)
  if !f.valid then c
  else
    let c := c.clearFault st
    if f.cause = cSVC ∨ f.cause = cBREAK then c
    else match (c.strm st).reported with
    | some (a, _) =>
      let c := c.redoAside st f.pc skip
      if skip && decide (a.sink = .jump f.pc) then c.skipNext st else c
    | none =>
      match (if st = .m ∨ st = .y then (c.queue st).find? (fun q => q.faulted) else none) with
      | some q => c.eretEntry st q skip
      | none => if skip then c.skipNext st else c

/-- The control stream returns to HSTAT.PC with the block state that delivery saved; what belonged to the instruction at the saved PC
comes back only with that PC (R305, R285). -/
def Ctx.leaveHandler (c : Ctx) : Ctx :=
  match c.hsave with
  | none => { c with hmode := false }
  | some h =>
    let a := c.hpc.toNat
    let same := decide (a = h.pc)
    let pfx := if same then h.pfx else none
    let rpt := if same then h.rpt else none
    { c with
      hmode := false
      hsave := none
      sc := { c.sc with
        blocks := h.blocks, pc := a, fp := a + (if pfx.isSome then 2 else 0) + (if rpt.isSome then 4 else 0)
        pfx := pfx, rpt := rpt, discard := same && h.discard, waitN := if same then h.waitN else 0
        mpos := if same then h.mpos else 0 } }

/-- `eret`: Abandon before any other action, then each delivered record's action in stream order, then the return (R243). -/
def execEret (s : State) : Out :=
  let k := s.cur.ctx
  let c := s.here
  let mine := match c.hsave with | some h => h.dlv | none => []
  .next (if !c.hmode then s.illegal
    else if !s.me.rob.isEmpty then s
    else match mine.find? (fun n => (c.frec.get n {}).valid && decide (c.act.get n 0 = 2)) with
      | some n => s.voteOrEnd k (c.frec.get n {}) (c.frec.get n {})
      | none => s.finish.upHere fun c => (mine.foldl Ctx.eretStrm c).leaveHandler)

/-- `halt`: the task ends with status 7 in the next scheduler step; PRIV in a partition without the privilege (R306, R297). -/
def execHalt (s : State) : Out :=
  .next (if !s.isPriv s.here.vf then s.faultC cPRIV
    else if !s.me.rob.isEmpty then s
    else s.finish.upTask s.here.team.seq fun t => if t.ending.isNone then { t with ending := some (7, 0, 0) } else t)

/-! ### CSR words and commit points (R309, R312) -/

/-- `csrr`: a CSR into a g, k or o register (R309). -/
def execCsrr (reg csr : Nat) (s : State) : Out :=
  .next (match s.cur.st with
    | .c => s.csrrC reg csr
    | .v => s.csrrV reg csr
    | st => if csrReads st csr then s.queueUp (.csrr reg csr) else s.illegal)

/-- `csrw`: a register to a CSR (R309). -/
def execCsrw (csr reg : Nat) (s : State) : Out :=
  .next (match s.cur.st with
    | .c => if s.here.gReady [reg] then s.csrwC csr (s.readG reg) else s
    | .v => s.csrwV csr [reg] (s.here.readK reg).toNat
    | st => if csrWrites st csr then s.queueUp (.csrw csr reg) else s.illegal)

/-- `csrwi`: an immediate to a CSR (R309). -/
def execCsrwi (csr imm : Nat) (s : State) : Out :=
  .next (match s.cur.st with
    | .c => s.csrwC csr (BitVec.ofNat 64 imm)
    | .v => s.csrwV csr [] imm
    | st => if csrWrites st csr then s.queueUp (.csrwi csr imm) else s.illegal)

/-- `sigc`: a commit point of its own stream in class 2, nothing else in other classes (R312). -/
def execSigc (s : State) : Out :=
  let k := s.cur.ctx
  let st := s.cur.st
  .next (match st with
    | .m | .y => s.queueUp .sigc
    | _ =>
      if s.here.team.pclass ≠ 2 then s.finish
      else if !s.epochsFree k st then s
      else (s.seal k st).finish)

end Sys2Proof.Machine
end

