-- ==== Sys2Proof/Machine/Sequencer.lean ====
section
/-!
DEFINITION. Sys2Proof/Machine/Sequencer.lean: the placement of words (R284), the prefixes of an instruction (R143,
R286 to R289), and events of a context: landings and engine commits (R160 to R162, R391, R399, R405).
-/

namespace Sys2Proof.Machine

/-! ### Placement of words and combinations of prefixes (R284, R288) -/

/-- Whether a word breaks R284: outside every block and no header, or a 32-bit word, extension words
among them, that passes the end of its innermost block. -/
def StreamSt.misplaced (x : StreamSt) (header : Bool) (a next : Nat) : Bool :=
  match x.blocks with
  | [] => !header
  | b :: _ => decide (a + 4 ≤ next) && decide (b.stop < next)

/-- Whether a word is a block header. -/
def isHeader (i : Instr) : Bool := match i with | .blk .. => true | _ => false

/-- Whether an instruction must not follow the prefixes already in force (R288). -/
def StreamSt.clashes (x : StreamSt) (i : Instr) : Bool :=
  match i with
  | .syncPrefix .. => x.pfx.isSome || x.rpt.isSome
  | .rpt .. => x.rpt.isSome
  | .blk .. => x.pfx.isSome || x.rpt.isSome
  | _ => x.rpt.isSome && noRepeat i

/-- Whether an instruction enters an engine's queue, which takes its prefix with it (R146). -/
def queued (st : Strm) (i : Instr) : Bool :=
  match st with
  | .c | .v => false
  | _ => match i with
    | .blk .. | .wait _ | .endS | .brk _ | .svc _ | .syncPrefix .. | .br _ | .bg .. | .rpt .. | .eret | .halt | .rdv | .ret => false
    | _ => true

/-! ### Discarding (R143, R243) -/

/-- The instruction at the boundary retires as if discarded: its pushes are made, and a repeat performs no further iteration (R143, R289). -/
def State.discardTo (s : State) (k : Nat) (st : Strm) (next : Nat) : State :=
  let s := { s with cur := ⟨k, st, (s.strm k st).pc, next⟩ }
  (s.upStrm k st fun x => { x with rpt := none }).finish

/-- The boundary's sync prefix passes its wait and its guard (R143): none while it holds, else whether the instruction is discarded. -/
def State.gate (s : State) (k : Nat) (st : Strm) : State × Option Bool :=
  match (s.strm k st).pfx with
  | none => (s, some false)
  | some p =>
    let (c, p, r) := (s.ctx k).passPfx st p
    ((s.setCtx k c).upStrm k st fun x => { x with pfx := some p }, r)

/-! ### Vector results (R160, R161) -/

/-- Whether a vector instruction makes a pending result: those that write no vector, k or p register and no guard slot do not (R298). -/
def makesResult (i : Instr) : Bool :=
  match i with
  | .blk .. | .wait _ | .endS | .brk _ | .svc _ | .syncPrefix .. | .br _ | .bg .. | .rpt .. | .csrw .. | .csrwi .. | .sigc | .vmode _
  | .vshape .. | .vst .. | .vtst .. | .vpush .. | .vdefer .. | .vscatb _ => false
  | _ => true

/-- Whether a 33rd pending exposed-mode result must wait (R250). -/
def VecSt.full (x : VecSt) : Bool := x.exposed && decide (32 ≤ x.landing.length)

/-- `RESULT_LANDING`: results whose slot has come land, in the order of their slots (R160). -/
def execResultLanding (ctx : Nat) (s : State) : Out := .next (s.landNow ctx).1

/-- `INTERLOCKED_COMPLETION`: the oldest interlocked result that has its value is written, and the scoreboard is released (R161). -/
def execInterlockedCompletion (ctx : Nat) (s : State) : Out :=
  .next (match (s.ctx ctx).vec.ripe with
    | some l => s.landOne ctx l
    | none => s)

/-! ### Engine commits -/

/-- `K_STEP_COMMIT`: the rounded sums of a K-step are written to the accumulator, and CPOS advances (R391). -/
def execKStepCommit (ctx : Nat) (s : State) : Out := .next (s.commitStep ctx)

/-- `COPY_BYTE_COMMIT`: one performed byte of a copy commits: CPOS advances and a counted barrier falls by 1 (R405, R406). -/
def execCopyByteCommit (ctx : Nat) (s : State) : Out := .next (s.commitByte ctx)

/-- `WEIGHT_DIE_QUERY_RESULT`: the partial sums of a `wq` are written to its accumulator with their flags (R399). -/
def execWeightDieQueryResult (ctx : Nat) (s : State) : Out := .next (s.queryResult ctx)

end Sys2Proof.Machine
end

