-- ==== Sys2Proof/Machine/Stop.lean ====
section
/-!
DEFINITION. Sys2Proof/Machine/Stop.lean: why grid points are pre-empted and how their streams are saved (R58, R93, R95, R246 to R250, R254),
which context a pool engine serves (R58, R136), and the deadlock fault (R96).
-/

namespace Sys2Proof.Machine

/-! ### Budgets, slices and save areas (R58, R93, R249) -/

/-- BUDGET of a grid point's task. -/
def State.budgetOf (s : State) (i : Inst) : Nat := match s.taskOf i with | some t => t.card.budget | none => 0

/-- `BUDGET_EXHAUSTED`: a team's usage has reached BUDGET, and the whole grid point is to be pre-empted (R93). -/
def execBudgetExhausted (inst : Nat) (s : State) : Out :=
  .next (match s.sched.insts.find? (fun i => i.id == inst) with
    | none => s
    | some i =>
      if s.budgetOf i ≠ 0 ∧ i.stat = .running ∧ i.teams.any fun t => decide (s.budgetOf i ≤ s.teamUsage t) then s.preemptDue inst else s)

/-- Whether an engine issues for a context: a hard engine for its owner, a pool engine for the member it serves (R136). -/
def State.engineFor (s : State) (k : Nat) (st : Strm) : Bool :=
  match st with
  | .c => true
  | st =>
    let e := (s.pf.own.get (3 * (k / 4) + kindOf st) 0).toNat
    if fld e 30 2 = 2 then decide (s.serves (k / 4) (kindOf st) = some (s.ctx k).vf) else s.ownsEngine (s.ctx k).vf (k / 4) (kindOf st)

/-- Slice length of a pool in cycles (R58). -/
def State.sliceOf (s : State) (pool : Nat) : Nat :=
  let n := s.pf.slice.get pool 16
  2 ^ (if 10 ≤ n ∧ n ≤ 24 then n else 16)

/-- `POOL_SLICE_END`: the slice of a pool engine ends: the member it serves is to be pre-empted, and the next one's slice begins (R58, R94). -/
def execPoolSliceEnd (core kind : Nat) (s : State) : Out :=
  let key := 3 * core + kind
  let now := (s.cycle (core / 16)).toNat
  let pool := fld (s.pf.own.get key 0).toNat 9 4
  .next (match s.serves core kind with
    | none => s
    | some vf =>
      if now < s.pf.poolFrom.get key 0 + s.sliceOf pool then s
      else
        ((s.sched.insts.filter fun i => i.vf == vf && (s.engOf i.seq).testBit kind && i.ctxs.any fun k => k / 4 == core).foldl
          (fun s i => s.preemptDue i.id) s).nextMember key)

/-- `SAVE_AREA_RETRY`: pre-emptions that wait for save areas search again (R249). -/
def execSaveAreaRetry (s : State) : Out :=
  .next ((s.sched.insts.filter fun i => i.waitArea).foldl (fun s i => s.preempt i.id) s)

/-! ### Saving (R246, R250, R254) -/

/-- The queue of a saved engine: what was fetched and not written is discarded (Table 11-3). -/
def QEntry.keep (q : QEntry) : QEntry := { q with busy := false, buf := [], bufOk := false, spos := q.cpos }

/-- A stream is saved: a `wait` in cycles keeps the cycles that remain, and with the context's first stream its deadlock count stands still
(R95). -/
def Ctx.saveStrm (c : Ctx) (st : Strm) (now : Nat) : Ctx :=
  let c := match st with
    | .m | .y => c.setQueue st ((c.queue st).map QEntry.keep)
    | _ => c
  let c := if allStrms.any fun t => (c.strm t).saved then c else { c with idleFrom := now - c.idleFrom }
  c.upStrm st fun x => { x with saved := true, waitN := if st = .v then x.waitN else x.waitN - now }

/-- Whether a context holds a record that ends its grid point (R244). -/
def Ctx.endsBy (c : Ctx) : Option FaultRec :=
  match c.firstFault with
  | none => none
  | some f => if !c.hvec.getLsbD 63 then some f else if c.hmode && c.sc.faulted then some (c.frec.get 0 {}) else none

/-- The storage units of a level-1 tile that team core index j of n saves: unit u goes to u mod n (R251). -/
def Tile.shareOf (t : Tile) (n j : Nat) : Tile :=
  { t with bytes := t.bytes.filter fun b => b.1 / 4096 % n == j, check := t.check.filter fun b => b.1 / 1024 % n == j }

/-- The save area that a context of a stopped grid point becomes: the context, its level-0 tiles and its share of its team's level-1 tiles
(R250, R251). -/
def State.areaOf (s : State) (i : Inst) (t : Placed) (j k : Nat) : SaveArea :=
  { seq := i.seq, vf := i.vf, stage := t.stage, repl := t.replica, tidx := j, copy := t.copy, x := i.x, y := i.y, z := i.z, ctx := s.ctx k
    tiles := s.tiles.filterMap fun e =>
      if e.1.level = 0 ∧ e.1.owner = k then some e
      else if e.1.level = 1 ∧ e.1.owner = t.team then some (e.1, e.2.shareOf t.ctxs.length j) else none }

/-- Whether a grid point can become SAVED: every stream is saved and at rest, and no released record waits to be performed (R113, R183). -/
def State.allSaved (s : State) (i : Inst) : Bool :=
  i.stopping && (i.ctxs.all fun k => !(s.ctx k).unsaved && s.ctxRests k) &&
    s.prot.epochs.all fun p => decide (p.stat ≠ .release) || !(s.prot.keys.any fun e => e.key == p.key && e.inst == i.id)

/-- Writes a save area: its bytes, and what stands behind them. -/
def State.putArea (s : State) (n : Nat) (a : SaveArea) : State :=
  let s := s.writeArea n a.image
  { s with sched := { s.sched with areas := s.sched.areas.set n a } }

/-- The last stream of a grid point is saved: its contexts go to their save areas, its cores are free, and it is SAVED (R84, R249). -/
def State.saveInst (s : State) (i : Inst) : State :=
  let areas := i.areas.filterMap fun a =>
    match i.teams.find? (fun t => t.team == a.2.1) with
    | some t => (t.ctxs[a.2.2]?).map fun k => (a.1, s.areaOf i t a.2.2 k)
    | none => none
  let used := (i.teams.map s.teamUsage).foldl (· + ·) 0
  let s := areas.foldl (fun (s : State) a => s.putArea a.1 a.2) s
  (((s.freeTeams i.teams).upTask i.seq fun t => { t with cyc := t.cyc + used }).upInst i.id fun i =>
    { i with stat := .saved, stopping := false, prioStop := false, due := false, teams := [] }).turnPools

/-- A stopped stream that is at its boundary with R183 satisfied is saved; a context that has its last stream saved stops counting usage
(R93). -/
def State.saveNow (s : State) (i : Inst) (ctx : Nat) (st : Strm) : State :=
  let now := (s.cycle (dieOf ctx)).toNat
  if (s.strm ctx st).saved || !s.atRest ctx st || s.fab.transit.any (fun t => t.fromCtx == ctx || t.toCtx == ctx) then s
  else
    let s := s.upCtx ctx fun c => c.saveStrm st now
    if (s.ctx ctx).unsaved then s
    else s.upInst i.id fun i =>
      { i with teams := i.teams.map fun (t : Placed) => if t.ctxs.contains ctx then { t with usage := t.usage + (now - t.start) } else t }

/-- `STREAM_SAVE`: a stopped stream at its boundary is saved; a record that would end the grid point ends it instead, and in a class 2 copy
goes to the vote (R245, Table 11-7). With its last stream the grid point is SAVED. -/
def execStreamSave (ctx : Nat) (st : Strm) (s : State) : Out :=
  .next (match s.instOf ctx with
    | none => s
    | some i =>
      if !i.stopping ∨ !(s.strm ctx st).stopReq then s
      else
        let s := if st = .m ∨ st = .y then s.pump ctx st else s
        match (s.ctx ctx).endsBy, decide (s.pclassOf i = 2) with
        | some f, false => s.voteOrEnd ctx f (s.firstRecord ctx)
        | r, _ =>
          let s := match r with | some f => s.voteOrEnd ctx f (s.firstRecord ctx) | none => s
          let s := s.saveNow i ctx st
          match s.sched.insts.find? (fun j => j.id == i.id) with
          | some j => if s.allSaved j then s.saveInst j else s
          | none => s)

/-! ### Deadlock (R96) -/

/-- The instruction at the boundary of a control or vector stream, if it can be fetched. -/
def State.boundary (s : State) (k : Nat) (st : Strm) : Option Instr :=
  match s.standsAt k st (s.strm k st).fp with
  | .instr i _ => some i
  | _ => none

/-- Whether a prefix waits for tokens that are not there. -/
def Ctx.tokenWait (c : Ctx) (st : Strm) (p : Option Pfx) : Bool :=
  match p with
  | some p => !p.taken && (takeTokens c.tok (waitKeys st p.wset)).isNone
  | none => false

/-- Whether a push to a queue or a pop from one holds an instruction. -/
def Ctx.queueWait (c : Ctx) (st : Strm) (i : Instr) : Bool :=
  match i with
  | .qpush _ _ qn | .vpush _ qn => decide (Config.queueDepth ≤ (c.rq.get (2 * kindOf st + qn) []).length)
  | .qpop _ _ qn | .vpop _ qn => (c.oq.get (2 * kindOf st + qn) []).isEmpty
  | _ => false

/-- Whether the prefix of the boundary lets its instruction issue. -/
def StreamSt.passed (x : StreamSt) : Bool := match x.pfx with | some p => p.taken && (p.decided || !p.gen) | none => true

/-- Whether a started stream is blocked in one of the ways that R96 names. -/
def State.blocked (s : State) (k : Nat) (st : Strm) : Bool :=
  let c := s.ctx k
  let x := c.strm st
  let full := match x.rob with
    | r :: _ => r.done && decide (r.err = 0) && (pushTokens c.tok (pushKeys st r.push)).isNone
    | [] => false
  full || match (if st = .m ∨ st = .y then (c.queue st).find? fun q => !q.done else none) with
    | some q => c.tokenWait st q.pfx || (q.ready && c.queueWait st (q.cur st))
    | none => c.tokenWait st x.pfx || (x.passed && decide (st = .v ∨ x.waitN ≤ (s.cycle (dieOf k)).toNat) && match s.boundary k st with
      | some .rdv => !c.gathered
      | some .endS => decide (st = .c) && x.rob.isEmpty && !c.gathered
      | some i => c.queueWait st (match x.rpt with | some r => (iteration st r i).getD i | none => i)
      | none => false)

/-- Whether a producer is in flight for a context: an access or a store outstanding, an epoch of class 2 not released, an entry on its way
(R96, R111). -/
def State.producing (s : State) (k : Nat) : Bool :=
  (allStrms.any fun st =>
    let x := s.strm k st
    !x.cq.isEmpty || !x.outE.isEmpty || !x.outR.isEmpty || (decide ((s.ctx k).team.pclass = 2) && !s.epochsFree k st)) ||
    s.fab.transit.any fun t => t.toCtx == k

/-- Whether a context counts this cycle toward a deadlock: every started stream is blocked, and no producer is in flight (R96). -/
def State.stuck (s : State) (k : Nat) : Bool :=
  let c := s.ctx k
  let started := allStrms.filter fun st => decide ((c.strm st).stat = .run)
  c.live && !started.isEmpty && (started.all fun st => !(c.strm st).faulted && s.blocked k st) && !s.producing k

/-- A cycle has passed: contexts that are not blocked as R96 says count from now on, but for those with a saved stream, whose counts stand
still (R95). -/
def State.watch (s : State) : State :=
  s.ctxs.foldl (fun s e =>
    if !e.2.live || (allStrms.any fun st => (e.2.strm st).saved) || s.stuck e.1 then s
    else s.upCtx e.1 fun c => { c with idleFrom := (s.cycle (dieOf e.1)).toNat }) s

/-- `DEADLOCK`: a context that has been blocked for 2^24 consecutive cycles takes the deadlock fault, as a control-stream record (R96,
R240). -/
def execDeadlock (ctx : Nat) (s : State) : Out :=
  let c := s.ctx ctx
  .next (if (allStrms.any fun st => (c.strm st).stopReq) ∨ (s.cycle (dieOf ctx)).toNat < c.idleFrom + Config.deadlockInterval ∨ !s.stuck ctx then s
    else s.takeFault ctx { cause := cDEADLOCK, st := .c, pc := c.sc.pc })

end Sys2Proof.Machine
end

