-- ==== Sys2Proof/Machine/Protect.lean ====
section
/-!
DEFINITION. Sys2Proof/Machine/Protect.lean: released epochs (R112 to R114), suspicion (R118, R119), scrubbing (R121 to R125), and
firmware (R132, R133).
-/

namespace Sys2Proof.Machine

/-! ### Released epochs (R112, R113, R189, R343) -/

/-- The epoch of a key that is to be performed or freed next: released, with every earlier one FREE. -/
def State.nextReleased (s : State) (key : Nat) : Option Epoch :=
  s.prot.epochs.find? fun p => p.key == key && decide (p.stat = .release) && decide (p.n = (s.sigLog key).count)

/-- Whether a held record is the signal of a `cpys`, which waits for its payload (R187, R407). -/
def HeldRec.isSignal (r : HeldRec) (st : Strm) : Bool :=
  match r with
  | .store a _ => decide (st = .y) && match a.kind with | .amo .. => true | _ => false
  | .tsig _ => false

/-- Leading store records that may be issued together, and the rest. -/
def leading (st : Strm) (rs : List HeldRec) : List Access × List HeldRec :=
  match rs with
  | .store a va :: rest =>
    if (HeldRec.store a va).isSignal st then ([], rs)
    else
      let (as_, r) := leading st rest
      (a :: as_, r)
  | _ => ([], rs)

/-- Issues accesses of released records in a stream, in held order (R113, R189); `rest` are the records that remain. -/
def State.issueHeld (s : State) (k : Nat) (st : Strm) (p : Epoch) (as_ : List Access) (rest : AMap (List HeldRec)) : State :=
  let first := s.ord.nextId
  let now := (s.cycle (dieOf k)).toNat
  let news := ((List.range as_.length).zip as_).map fun (ja : Nat × Access) =>
    { ja.2 with id := first + ja.1, rob := 0, held := true, acq := false, sink := .none, at_ := now }
  let s := { s with ord := { s.ord with nextId := first + as_.length } }
  (s.pushAccs k st news).setEpoch { p with recs := rest, out := p.out ++ news.map Access.id }

/-- The context whose stream performs a released epoch's records: that of the copy that held the primary role at release, whose records were
kept, or where that copy stands no more of the copy in that role now (R113; DEDUCED, notes/assumptions/97.md). -/
def Inst.performer (i : Inst) (e : EKey) (p : Epoch) : Option Nat :=
  match p.recs with
  | (c, _) :: _ => if i.hasRole c then i.ctxFor c e else i.ctxFor i.primary e
  | [] => i.ctxFor i.primary e

/-- `EPOCH_RELEASE`: the compare engine performs the released epoch's next records; a signal waits for the payload at module scope, the
decrement of a `tsig` for system scope (R113, R343). -/
def execEpochRelease (key : Nat) (s : State) : Out :=
  .next (match s.nextReleased key, s.prot.keys.find? (fun e => e.key == key) with
    | some p, some e =>
      (match (s.instOfKey e).bind fun i => (i.performer e p).map fun k => (i, k), p.recs with
        | some (i, k), (c, .tsig tag :: rest) :: more =>
          let x := s.strm k e.st
          if p.out.isEmpty && x.outE.isEmpty && x.outR.isEmpty && s.tagRoom i.vf tag then
            { s.setEpoch { p with recs := (c, rest) :: more } with
              sched := { s.sched with tsigs := s.sched.tsigs ++ [(i.seq, i.vf, tag)] } }
          else s
        | some (_, k), (c, .store a va :: rest) :: more =>
          if (HeldRec.store a va).isSignal e.st then
            (if p.out.isEmpty then s.issueHeld k e.st p [a] ((c, rest) :: more) else s)
          else
            let (as_, rest) := leading e.st (.store a va :: rest)
            s.issueHeld k e.st p as_ ((c, rest) :: more)
        | _, _ => s)
    | _, _ => s)

/-- The word on which the copies of a released epoch agreed. -/
def Epoch.agreed (p : Epoch) : BitVec 64 :=
  match p.words.findSome? (fun w => match w.2 with | .word x => some x | _ => none) with
  | some w => w
  | none => 0

/-- `EPOCH_FREE`: every record of the released epoch is performed at module scope, or its acknowledgement is lost; its word is folded into the
chain (R110, R112, R114). -/
def execEpochFree (key : Nat) (s : State) : Out :=
  .next (match s.nextReleased key, s.prot.keys.find? (fun e => e.key == key) with
    | some p, some e =>
      (match s.instOfKey e with
        | none => s
        | some i =>
          if !p.out.isEmpty || p.recs.any (fun r => !r.2.isEmpty) then s
          else
            let l := s.sigLog key
            let s := (s.dropEpoch key p.n).setLog key { l with count := l.count + 1, chain := foldChain l.chain p.agreed }
            (l.ties.map Prod.fst).foldl (fun s copy => s.checkChain i e copy) s)
    | _, _ => s)

/-! ### Suspicion (R118, R119) -/

/-- `DIE_RETIRE`: a write of RET = 1 (R119). -/
def execDieRetire (die : Nat) (s : State) : Out := .next (if 16 ≤ die then s else s.retireDie die)

/-- A retired die returns to service with SCORE 0. -/
def State.unretire (s : State) (die : Nat) : State :=
  let u := s.pf.susp.get die {}
  if u.ret then { s with pf := { s.pf with susp := s.pf.susp.set die { u with ret := false, score := 0 } } } else s

/-- `DIE_RETURN_TO_SERVICE`: a write of RET = 0 to a retired die (R118). -/
def execDieReturnToService (die : Nat) (s : State) : Out := .next (s.unretire die)

/-- `SCORE_WRITE`: a write of DSUSP: SCORE is an expert field, a score of 16 retires the die, RET = 1 retires it, and RET = 0 returns a
retired die with SCORE 0, whatever SCORE the write carries (R54, R118, R119). -/
def execScoreWrite (die v : Nat) (s : State) : Out :=
  .next (if 16 ≤ die then s
    else
      let u := s.pf.susp.get die {}
      if u.ret && !bit v 31 then s.unretire die
      else
        let s := if s.pf.expert then { s with pf := { s.pf with susp := s.pf.susp.set die { u with score := fld v 0 8 } } } else s
        if bit v 31 || decide (16 ≤ (s.pf.susp.get die {}).score) then s.retireDie die else s)

/-! ### Scrubbing (R122, R123) -/

/-- `REGISTER_FILE_SCRUB` (R122). -/
def execRegisterFileScrub (ctx word : Nat) (s : State) : Out := .next (s.scrub (.reg ctx word))

/-- `SRAM_SCRUB` (R122). -/
def execSramScrub (w : SramWord) (s : State) : Out := .next (s.scrub (.sram w))

/-- Every word of a row of a memory die is visited; a row is a unit of a channel (R31, notes/assumptions/16.md). -/
def State.visitRow (s : State) (m row : Nat) : State :=
  (List.range 32).foldl (fun s i => s.scrub (.hbm m ((m * hbmSpan + 256 * rowUnit row) / 8 + i))) s

/-- `HBM_SWEEP`: one row of a sweep (R123). -/
def execHbmSweep (m row : Nat) (s : State) : Out := .next (if 4 ≤ m ∨ hbmSpan / 256 ≤ rowUnit row then s else s.visitRow m row)

/-- `HISTORY_ROW_VISIT`: the rows of the correction history table are visited (R123). -/
def execHistoryRowVisit (m : Nat) (s : State) : Out := .next ((s.mem.history.get m []).foldl (fun s row => s.visitRow m row) s)

/-- `ECC_WRITEBACK`: the oldest corrected word is written back (R121). -/
def execEccWriteback (s : State) : Out :=
  .next (match s.mem.writeback with
    | [] => s
    | w :: rest => ({ s with mem := { s.mem with writeback := rest } }).fixWord w)

/-! ### Firmware (R132, R133) -/

/-- `FIRMWARE_LOAD`: GO copies the image into L0, and writes it to flash once its signature verifies; STATUS says how it ended (R133). -/
def execFirmwareLoad (s : State) : Out :=
  .next (if s.pf.fwStatus = 1 then s
    else
      let image := memGetList Config.hostPowerOnByte s.mem.host s.pf.fwAddr.toNat s.pf.fwLen.toNat
      if Config.hostFaults s.pf.fwAddr.toNat s.pf.fwLen.toNat s.now then { s with pf := { s.pf with fwStatus := 3 } }
      else if Config.firmwareVerifies image then { s with pf := { s.pf with flash := some image, fwStatus := 0 } }
      else { s with pf := { s.pf with fwStatus := 2 } })

end Sys2Proof.Machine
end

