-- ==== Sys2Proof/Machine/Checkpoint.lean ====
section
/-!
DEFINITION. Sys2Proof/Machine/Checkpoint.lean: checkpoints and restores (R127 to R131): the shards and their digests, the manifest in host
memory, and what a restore makes of them (notes/assumptions/8.md).
-/

namespace Sys2Proof.Machine

/-! ### Shards (R129) -/

/-- A shard: KIND, ID, length, and its bytes that are not zero. -/
structure Shard where
  kind : Nat
  id : Nat
  len : Nat
  cells : Memory
deriving DecidableEq, Repr

/-- The bytes of a shard. -/
def Shard.bytes (x : Shard) : List Byte := denseCells 0 x.len x.cells

/-- A shard of a list of bytes. -/
def shardOf (kind id : Nat) (bs : List Byte) : Shard := ⟨kind, id, bs.length, cellsOf 0 bs⟩

/-- A task in the SCHED shard: 64 bytes. -/
def Task.image (t : Task) : List Byte :=
  bytesOf t.seq 8 ++ bytesOf t.card.tag 4 ++ bytesOf t.q 2 ++ bytesOf (match t.stat with | .waiting => 0 | .active => 1 | .closing => 2 | .ended => 3) 2 ++
    bytesOf t.count 8 ++ bytesOf t.cyc 8 ++ bytesOf t.card.code 8 ++ bytesOf t.card.ttab 8 ++ bytesOf t.card.prio 8 ++ bytesOf t.edges.length 8

/-- A grid point in the SCHED shard: 32 bytes. -/
def Inst.image (i : Inst) : List Byte :=
  bytesOf i.seq 8 ++ bytesOf i.x 2 ++ bytesOf i.y 2 ++ bytesOf i.z 2 ++
    bytesOf (match i.stat with | .queued => 0 | .preloaded => 1 | .running => 2 | .saved => 3 | .done => 4) 2 ++ bytesOf i.age 8 ++ bytesOf i.eprio 8

/-- The SCHED shard of an image: its number, in-flight tasks, early decrements, grid points with ages and effective priorities. The layout is
the model's (DESIGN CHOICE, notes/assumptions/8.md). -/
def Ckpt.sched (c : Ckpt) : Shard :=
  shardOf 1 0 (bytesOf c.num 8 ++ bytesOf c.tasks.length 4 ++ bytesOf c.early.length 4 ++ bytesOf c.insts.length 8 ++
    c.tasks.flatMap Task.image ++ (c.early.flatMap fun e => bytesOf e.2.1 8 ++ bytesOf e.2.2 8) ++ c.insts.flatMap Inst.image)

/-- A held record: VA or tag, length, bytes. -/
def HeldRec.image (r : HeldRec) : List Byte :=
  match r with
  | .store a va => bytesOf va 8 ++ bytesOf a.data.length 8 ++ a.data
  | .tsig tag => bytesOf tag 8 ++ bytesOf (2 ^ 63) 8

/-- An epoch in a HELD shard: its number and state, its words, its records. -/
def Epoch.image (p : Epoch) : List Byte :=
  bytesOf p.n 8 ++ bytesOf (match p.stat with | .open_ => 0 | .half => 1 | .compare => 2 | .vote => 3 | .release => 4 | .discard => 5) 8 ++
    (p.words.flatMap fun w => bytesOf w.1 8 ++ bytesOf (match w.2 with | .word x => x.toNat | .fault _ pc _ _ => pc) 8) ++
    p.recs.flatMap fun r => bytesOf r.1 8 ++ bytesOf r.2.length 8 ++ r.2.flatMap HeldRec.image

/-- The HELD shards of an image: of each class 2 grid point the unreleased records, open words and signature log, under its sequence number;
the layout is the model's (DESIGN CHOICE, notes/assumptions/8.md). -/
def Ckpt.held (c : Ckpt) : List Shard :=
  (c.insts.filter fun i => c.keys.any fun e => e.inst == i.id).map fun i =>
    shardOf 3 (i.seq % 2 ^ 32) (bytesOf c.num 8 ++ bytesOf i.seq 8 ++ (c.keys.filter fun e => e.inst == i.id).flatMap fun e =>
      bytesOf e.stage 2 ++ bytesOf e.replica 2 ++ bytesOf e.tidx 2 ++ bytesOf (strmIx e.st) 2 ++
        (let l := c.logs.get e.key {}; bytesOf l.count 8 ++ bytesOf l.chain.toNat 8) ++
        (c.epochs.filter fun p => p.key == e.key).flatMap Epoch.image)

/-- Reads a frame through the code of HBM for a shard; a word that is uncorrectable is copied as it stands. -/
def State.frameShard (s : State) (kind id addr : Nat) : State × Shard :=
  let (s', cells) := s.readFrame addr
  (s', ⟨kind, id, 2 ^ 21, cells.getD (s.frameCells addr)⟩)

/-- Backed granules of a partition: granule offset and HBM address (R129). -/
def State.granulesOf (s : State) (vf : Nat) : List (Nat × Nat) :=
  let (base, count) := s.htwin vf
  (s.mem.home.filter fun e => decide (base ≤ e.1) && decide (e.1 < base + count) && e.2.getLsbD 31 && fld e.2.toNat 0 9 == vf).filterMap fun e =>
    match s.homeOf Config.linkDie vf e.1 with
    | .at_ _ a => some (e.1 - base, a)
    | _ => none

/-- Shards of frames, each given by its ID and HBM address. -/
def State.frameShards (s : State) (kind : Nat) (fs : List (Nat × Nat)) : State × List Shard :=
  fs.foldl (fun (r : State × List Shard) f =>
    let (s, x) := r.1.frameShard kind f.1 f.2
    (s, r.2 ++ [x])) (s, [])

/-- What an image holds apart from its SAVE and MEM shards. -/
def State.imageOf (s : State) (vf : Nat) : Ckpt :=
  let insts := s.sched.insts.filter fun i => i.vf == vf
  let ids := insts.map Inst.id
  let keys := s.prot.keys.filter fun e => ids.contains e.inst
  let mine := fun (k : Nat) => keys.any fun e => e.key == k
  { num := s.ckpts.length, vf := vf
    tasks := s.sched.tasks.filter (fun t => t.vf == vf), insts := insts, early := s.sched.early.filter (fun e => e.1 == vf)
    areas := s.sched.areas.filter (fun a => a.2.vf == vf), keys := keys, epochs := s.prot.epochs.filter (fun p => mine p.key)
    logs := s.prot.logs.filter (fun l => mine l.1) }

/-- Save areas of an image, by their numbers, with their HBM addresses. -/
def State.imageAreas (s : State) (c : Ckpt) : List (Nat × Nat) :=
  (sortBy id (c.areas.map Prod.fst)).map fun n => (n, s.areaAddr n)

/-- The shards of an image in the order of R130: SCHED, SAVE, HELD, MEM. -/
def State.shardsOf (s : State) (c : Ckpt) : State × List Shard :=
  let (s, save) := s.frameShards 2 (s.imageAreas c)
  let (s, mem) := s.frameShards 4 (s.granulesOf c.vf)
  (s, c.sched :: save ++ c.held ++ mem)

/-! ### The manifest (R128) -/

/-- Bytes of a manifest of n shards. -/
def manifestLen (n : Nat) : Nat := 0x60 + 64 * n

/-- Retired pages (R124, Table 5-7): frames that are not free, that back no granule and that no window of save areas holds (DEDUCED,
notes/assumptions/8.md). -/
def State.retiredPages (s : State) : Nat :=
  let backing := s.mem.home.filterMap fun e =>
    if e.2.getLsbD 31 then some (fld e.2.toNat 26 2, fld (s.stage2 (fld e.2.toNat 26 2) e.1) 0 16) else none
  (s.mem.ffmap.flatMap fun w => (List.range 32).filter fun b =>
    let m := w.1 / 2 ^ 11
    let f := 32 * (w.1 % 2 ^ 11) + b
    let win := (s.pf.savewin.get m 0).toNat
    !w.2.getLsbD b && !backing.contains (m, f) && !(bit win 31 && decide (fld win 0 16 ≤ f) && decide (f < fld win 0 16 + 256))).length

/-- A shard's entry in the manifest, with its offset in the buffer. -/
def Shard.entry (x : Shard) (off : Nat) : List Byte :=
  bytesOf x.kind 4 ++ bytesOf x.id 4 ++ bytesOf off 8 ++ bytesOf x.len 8 ++ bytesOf 0 8 ++ sha256 x.bytes

/-- Shards with their offsets in the buffer: one behind the other, behind the manifest. -/
def placeShards (off : Nat) (xs : List Shard) : List (Nat × Shard) :=
  match xs with
  | [] => []
  | x :: rest => (off, x) :: placeShards (off + x.len) rest

/-- The manifest without its digest (Table 5-7). -/
def State.manifest (s : State) (vf : Nat) (xs : List (Nat × Shard)) : List Byte :=
  let ones := fun (n : Nat) (p : Nat → Bool) => (List.range n).foldl (fun a i => if p i then a + 2 ^ i else a) 0
  [0x42, 0x39, 0x43, 0x4B] ++ bytesOf 1 4 ++ bytesOf xs.length 4 ++ bytesOf vf 4 ++ bytesOf (ones Config.dies s.isLive) 8 ++
    bytesOf (ones 16 fun d => (s.pf.susp.get d {}).ret) 2 ++ bytesOf 0 2 ++ bytesOf s.retiredPages 4 ++ bytesOf Config.gid.toNat 16 ++ bytesOf 0 16 ++
    xs.flatMap fun x => x.2.entry x.1

/-- Bytes that a checkpoint writes. -/
def shardsLen (xs : List Shard) : Nat := manifestLen xs.length + (xs.map Shard.len).foldl (· + ·) 0

/-- Replaces n bytes of host memory: those listed by offset, zero elsewhere. -/
def State.hostFill (s : State) (addr n : Nat) (cells : List Host.Cell) : State :=
  let host := s.mem.host.filter fun c => !(decide (addr ≤ c.1) && decide (c.1 < addr + n))
  { s with mem := { s.mem with host := cells.foldl (fun m c => memPut Config.hostPowerOnByte m (addr + c.1) c.2) host } }

/-- Writes shards, and then the manifest with its digest, to a buffer of the host (R130). -/
def State.writeImage (s : State) (base vf : Nat) (xs : List Shard) : State :=
  let placed := placeShards (manifestLen xs.length) xs
  let s' := placed.foldl (fun s x => s.hostFill (base + x.1) x.2.len x.2.cells) s
  let m := s.manifest vf placed
  s'.hostFill base (manifestLen xs.length) (cellsOf 0 (m ++ sha256 m))

/-! ### Checkpoint (R130) -/

/-- Sets STATUS of a partition's checkpoint register. -/
def State.setCk (s : State) (vf st : Nat) : State := s.upVf vf fun v => { v with ckstatus := st }

/-- Whether a released record of a partition is still to be performed: it belongs in the MEM shards (R130). -/
def State.releaseWaits (s : State) (vf : Nat) : Bool :=
  s.prot.epochs.any fun p => decide (p.stat = .release) && (s.prot.keys.any fun e => e.key == p.key &&
    s.sched.insts.any fun i => i.id == e.inst && i.vf == vf)

/-- `CHECKPOINT`: a GO with RST = 0 stops fetching, pre-empts what runs and withdraws preloads; once everything is saved and what is released
is performed, the shards and the manifest are written, and the partition resumes (R127, R130). -/
def execCheckpoint (vf : Nat) (s : State) : Out :=
  let runs := s.sched.insts.filter fun i => i.vf == vf && decide (i.stat = .running)
  let v := s.vfs.get vf {}
  .next (if 512 ≤ vf then s
    else if !s.frozen vf then
      (if v.rst then s
       else
        let s := (s.setCk vf 1).withdrawOn fun i => i.vf == vf
        runs.foldl (fun s i => s.preemptDue i.id) s)
    else if !runs.isEmpty || s.releaseWaits vf then s
    else
      let c := s.imageOf vf
      let (s', xs) := s.shardsOf c
      if v.cklen.toNat < shardsLen xs then s.setCk vf 2
      else if Config.hostFaults v.ckbase.toNat (shardsLen xs) s.now then s.setCk vf 7
      else { (s'.writeImage v.ckbase.toNat vf xs).setCk vf 0 with ckpts := c :: s.ckpts })

/-! ### Restore (R131) -/

/-- Bytes of host memory from an address on that are not zero, by offset. -/
def State.hostCells (s : State) (addr n : Nat) : Memory :=
  (s.mem.host.filter fun c => decide (addr ≤ c.1) && decide (c.1 < addr + n)).map fun c => (c.1 - addr, c.2)

/-- Bytes of host memory. -/
def State.hostBytes (s : State) (addr n : Nat) : List Byte := denseCells 0 n (s.hostCells addr n)

/-- A little-endian field of a list of bytes. -/
def fieldAt (bs : List Byte) (off n : Nat) : Nat := leNat ((bs.drop off).take n)

/-- The shards that a manifest names, with their digests, from a buffer. -/
def State.shardsAt (s : State) (base : Nat) (m : List Byte) (n : Nat) : List (Nat × Shard × List Byte) :=
  (List.range n).map fun i =>
    let e := (m.drop (0x40 + 64 * i)).take 64
    let off := fieldAt e 8 8
    let len := fieldAt e 16 8
    (off, ⟨fieldAt e 0 1, fieldAt e 4 4, len, s.hostCells (base + off) len⟩, e.drop 32)

/-- Whether the version and the zero fields of a manifest of n shards are as Table 5-7 gives them. -/
def manifestForm (m : List Byte) (n : Nat) : Bool :=
  decide (m.take 4 = [0x42, 0x39, 0x43, 0x4B]) && fieldAt m 4 4 == 1 && fieldAt m 0x1A 2 == 0 && fieldAt m 0x30 16 == 0 &&
    (List.range n).all fun i => fieldAt m (0x41 + 64 * i) 3 == 0 && fieldAt m (0x58 + 64 * i) 8 == 0

/-- Position of an element in a list, plus an offset. -/
def renumber (olds : List Nat) (first n : Nat) : Nat := first + (olds.takeWhile fun o => o != n).length

/-- Free areas for the SAVE shards of an image, by the number each was saved under (R131, R249). -/
def State.shardAreas (s : State) (ns : List Nat) : Option (List Nat) := s.findAreas [] ns

/-- Forgets what dies hold of a slot's granule. -/
def State.dropViews (s : State) (slot : Nat) : State :=
  { s with ord := { s.ord with dv := s.ord.dv.map fun d => (d.1, d.2.filter fun b => b.1 / 2 ^ 21 != slot) } }

/-- Loads the granules of an image: bound as in R43, or left to be pulled (R131). Where no memory die has a free frame for a granule it is left
out and the restore goes on: the spec gives no status for this (DESIGN CHOICE, notes/assumptions/8.md). -/
def State.loadGranules (s : State) (vf : Nat) (gs : List (Nat × List Host.Cell)) (pull : Bool) : State :=
  let (base, _) := s.htwin vf
  gs.foldl (fun s g =>
    let slot := base + g.1
    let s := s.dropViews slot
    let h := (s.masterHome slot).toNat
    let own := vf % 512 + fld h 28 1 * 2 ^ 28
    if pull then s.setHome slot (BitVec.ofNat 32 (2 ^ 29 + own))
    else match s.homeOf Config.linkDie vf slot with
      | .at_ _ a => s.fillFrame a g.2
      | _ =>
        match (s.setHome slot (BitVec.ofNat 32 own)).bindSlot slot 0 g.2 with
        | some s => s
        | none => s) s

/-- REPL counts in force after a restore: those of the image, halved by R120 where R88 needs it; none when R88 fails (R131). -/
def State.restoredRepls (s : State) (vf : Nat) (c : Ckpt) (i : Inst) : Option (List Nat) :=
  match c.tasks.find? (fun t => t.seq == i.seq) with
  | none => some i.repls
  | some t =>
    if s.passes88 t.card vf i i.repls then some i.repls
    else if t.card.shrink then s.halved t.card vf i i.repls 9 else none

/-- Whether a grid point of an image passes R88 here, after R120 for SHRINK = 1. -/
def State.fitsHere (s : State) (vf : Nat) (c : Ckpt) (i : Inst) : Bool := (s.restoredRepls vf c i).isSome

/-- Loads tasks, grid points, save areas and held records under new numbers; `saves` are the SAVE shards by the number of the area each was
saved under (R131). -/
def State.loadImage (s : State) (vf : Nat) (c : Ckpt) (saves : List (Nat × Memory)) (areas : List Nat) : State :=
  let seqs := sortBy id (c.tasks.map Task.seq)
  let seqOf := renumber seqs s.sched.seqNext
  let instOf := renumber (c.insts.map Inst.id) s.sched.instNext
  let firstKey := (s.prot.keys.map EKey.key).foldl Nat.max 0 + 1
  let keyOf := renumber (c.keys.map EKey.key) firstKey
  let olds := saves.map Prod.fst
  let areaOf := fun n => match (olds.zip areas).find? (fun p => p.1 == n) with | some p => p.2 | none => n
  let tasks := c.tasks.map fun (t : Task) => { t with seq := seqOf t.seq, vf := vf, edges := t.edges.map seqOf }
  let insts := c.insts.map fun (i : Inst) =>
    { i with
      id := instOf i.id, seq := seqOf i.seq, vf := vf, buffer := 4, areas := i.areas.map (fun a => (areaOf a.1, a.2))
      repls := (s.restoredRepls vf c i).getD i.repls }
  let saved := c.areas.map fun (a : Nat × SaveArea) =>
    let x := a.2.ctx
    (areaOf a.1, { a.2 with
      seq := seqOf a.2.seq, vf := vf
      ctx := { x with vf := vf, team := { x.team with seq := seqOf x.team.seq, inst := instOf x.team.inst } } })
  let s := saves.foldl (fun (s : State) x =>
    s.writeArea (areaOf x.1) (areaRewritten x.2 (seqOf (areaQuad x.2 1 % 2 ^ 48)) vf)) s
  let s := tasks.foldl (fun s t =>
    let x := s.queue vf t.q
    s.setQueue vf t.q { x with infl := x.infl + 1 }) s
  { s with
    sched := { s.sched with
      seqNext := s.sched.seqNext + seqs.length, instNext := s.sched.instNext + c.insts.length
      tasks := s.sched.tasks ++ tasks, insts := s.sched.insts ++ insts
      early := s.sched.early ++ c.early.map (fun e => (vf, e.2)), areas := s.sched.areas ++ saved }
    prot := {
      keys := s.prot.keys ++ c.keys.map (fun (e : EKey) => { e with key := keyOf e.key, inst := instOf e.inst })
      epochs := s.prot.epochs ++ c.epochs.map (fun (p : Epoch) => { p with key := keyOf p.key, out := [] })
      logs := s.prot.logs ++ c.logs.map (fun (l : Nat × SigLog) => (keyOf l.1, l.2)) } }

/-- The image of this module that SCHED and HELD shards are of; one that this module has not written is none (DESIGN CHOICE,
notes/assumptions/8.md). -/
def State.imageFor (s : State) (xs : List Shard) : Option Ckpt :=
  s.ckpts.find? fun c => decide ((xs.filter fun x => x.kind == 1 || x.kind == 3) = c.sched :: c.held)

/-- `RESTORE`: a GO with RST = 1, ignored unless every queue is off and empty, checks the manifest's digest, the version and the zero fields,
every shard's digest and R88, and then loads the image (R127, R131). A manifest that passes CKLEN fails the first check, a shard that does
the third; with no free save area for a SAVE shard STATUS is 6: the spec gives no status for these (DESIGN CHOICE,
notes/assumptions/8.md). -/
def execRestore (vf : Nat) (s : State) : Out :=
  let v := s.vfs.get vf {}
  let base := v.ckbase.toNat
  let len := v.cklen.toNat
  let n := fieldAt (s.hostBytes base 0x40) 8 4
  let m := s.hostBytes base (0x40 + 64 * n)
  let xs := s.shardsAt base m n
  let of_ := fun (kind : Nat) => (xs.filter fun x => x.2.1.kind == kind).map fun x => (x.2.1.id, x.2.1.cells)
  .next (if 512 ≤ vf ∨ s.frozen vf ∨ !v.rst ∨ (List.range 4).any (fun q => decide ((s.queue vf q).stat ≠ 0 ∨ (s.queue vf q).infl ≠ 0)) then s
    else if Config.hostFaults base len s.now then s.setCk vf 7
    else if len < manifestLen n ∨ sha256 m ≠ s.hostBytes (base + 0x40 + 64 * n) 32 then s.setCk vf 3
    else if !manifestForm m n then s.setCk vf 5
    else if xs.any fun x => decide (len < x.1 + x.2.1.len ∨ sha256 x.2.1.bytes ≠ x.2.2) then s.setCk vf 4
    else match s.imageFor (xs.map fun x => x.2.1) with
      | none => s.setCk vf 4
      | some c =>
        if (c.insts.filter fun i => decide (i.stat = .saved)).any fun i => !s.fitsHere vf c i then s.setCk vf 6
        else match s.shardAreas ((of_ 2).map Prod.fst) with
          | none => s.setCk vf 6
          | some areas =>
            (((s.loadGranules vf (of_ 4) v.pullok).loadImage vf c (of_ 2) areas).upVf vf fun v =>
              { v with source := BitVec.ofNat 128 (fieldAt m 0x20 16) }).setCk vf 0)

end Sys2Proof.Machine
end

