-- ==== Sys2Proof/Machine/Fabric.lean ====
section
/-!
DEFINITION. Sys2Proof/Machine/Fabric.lean: the column rails and strip routers of a compute die (R15 to R19), the slots of sealed mode
(R60), and dovetails, whose entries travel over them (R156 to R159).
-/

namespace Sys2Proof.Machine

/-! ### Strip routers (R18, R19) -/

/-- Key of a strip router. -/
def routerKey (die strip col : Nat) : Nat := (die * 5 + strip) * 16 + col

/-- A router of the fabric. -/
def State.router (s : State) (key : Nat) : Router := s.fab.routers.get key {}

/-- Replaces a router. -/
def FabSt.setRouter (f : FabSt) (key : Nat) (r : Router) : FabSt := { f with routers := f.routers.set key r }

/-- A wake reaches a router: a gated one is awake at `at_`; an awake one starts its idle count again (R19). -/
def FabSt.wake (f : FabSt) (now key at_ : Nat) : FabSt :=
  let r := f.routers.get key {}
  if r.gated then f.setRouter key { r with wakeAt := some (match r.wakeAt with | some t => Nat.min t at_ | none => at_) }
  else f.setRouter key { r with idleFrom := now }

/-- A wake in progress whose cycle has come ends (R19). -/
def Router.wakes (r : Router) (now : Nat) : Router :=
  match r.gated, r.wakeAt with
  | true, some t => if t ≤ now then ⟨false, now, none⟩ else r
  | _, _ => r

/-- `ROUTER_POWER_GATE`: a router that has carried nothing and had no wake for 512 cycles is gated (R19). -/
def execRouterPowerGate (die strip col : Nat) (s : State) : Out :=
  let key := routerKey die strip col
  let r := s.router key
  let here := fun (p : Packet) => decide (p.leg = .chain) && routerKey p.die p.strip p.col == key
  .next (if 16 ≤ die ∨ 5 ≤ strip ∨ 16 ≤ col ∨ r.gated ∨ (s.cycle die).toNat < r.idleFrom + 512 ∨
      (s.fab.transit.any fun t => here t.pkt) = true ∨ s.fab.slices.any here = true then s
    else { s with fab := s.fab.setRouter key { r with gated := true, wakeAt := none } })

/-- `ROUTER_WAKE`: a gated router finishes its wake (R19). -/
def execRouterWake (die strip col : Nat) (s : State) : Out :=
  let key := routerKey die strip col
  let r := (s.router key).wakes (s.cycle die).toNat
  .next (if r = s.router key then s else { s with fab := s.fab.setRouter key r })

/-- `SEALED_SLOT_START`: a die enters a new slot under sealed mode, and its gated routers are woken (R60, R19). -/
def execSealedSlotStart (die : Nat) (s : State) : Out :=
  let now := (s.cycle die).toNat
  .next (if s.sealedVfs.isEmpty ∨ 37 ≤ die ∨ s.fab.slot.get die 16 = s.slotNow die then s
    else
      let f := { s.fab with slot := s.fab.slot.set die (s.slotNow die) }
      let gated := (f.routers.map Prod.fst).filter fun key => key / 80 == die && (f.routers.get key {}).gated
      { s with fab := gated.foldl (fun f key => f.wake now key (now + 6)) f })

/-! ### Rails (R16, R17) -/

/-- Cycles that a beat travels: one a strip (R16). -/
def Beat.span (b : Beat) : Nat := (b.dst - b.src) + (b.src - b.dst)

/-- The strip a beat is at in a cycle. -/
def Beat.strip (b : Beat) (now : Nat) : Nat := if b.south then b.src + (now - b.at_) else b.src - (now - b.at_)

/-- Whether a beat travels on a rail of a die. -/
def Beat.onRail (b : Beat) (die col : Nat) (south : Bool) : Bool := b.die == die && b.col == col && b.south == south

/-- The waiting beat whose turn it is enters a rail at a strip that no beat in transit is at, in a slot of its partition (R16, R17, R60). -/
def State.inject (s : State) (f : FabSt) (die col : Nat) (south : Bool) (strip : Nat) : FabSt :=
  let now := (s.cycle die).toNat
  let key := ((die * 16 + col) * 2 + (if south then 1 else 0)) * 5 + strip
  let mine := f.railWait.filter fun b => b.onRail die col south && b.src == strip && s.slotOpen die b.vf
  let from_ := fun eng => mine.find? fun b => b.eng == eng
  let turn := f.railTurn.get key false
  if f.beats.any fun b => b.onRail die col south && b.strip now == strip && decide (now ≤ b.at_ + b.span) then f
  else match (if turn then (from_ 1).orElse fun _ => mine.head? else (from_ 0).orElse fun _ => mine.head?) with
    | none => f
    | some b =>
      let both := (from_ 0).isSome && (from_ 1).isSome
      { f with
        railWait := f.railWait.erase b
        beats := f.beats ++ [{ b with at_ := now }]
        railTurn := if both then f.railTurn.set key (decide (b.eng = 0)) else f.railTurn }

/-- `RAIL_INJECTION` (R17). -/
def execRailInjection (die col : Nat) (south : Bool) (strip : Nat) (s : State) : Out :=
  .next { s with fab := s.inject s.fab die col south strip }

/-- `RAIL_BEAT_ARRIVAL`: a beat reaches its target strip |i − j| cycles after its injection (R16). -/
def execRailBeatArrival (die col : Nat) (south : Bool) (strip : Nat) (s : State) : Out :=
  let now := (s.cycle die).toNat
  .next (match s.fab.beats.find? (fun b => b.onRail die col south && b.dst == strip && decide (b.at_ + b.span ≤ now)) with
    | some b => { s with fab := { s.fab with beats := s.fab.beats.erase b } }
    | none => s)

/-! ### Packets (R13, R16 to R19, R45, R46) -/

/-- Beats of a transfer of n bytes (R16). -/
def beatsOf (n : Nat) : Nat := (n + 511) / 512

/-- Flits of a packet of n bytes, one at least (R13). -/
def flitsOf (n : Nat) : Nat := Nat.max 1 ((n + 255) / 256)

/-- Whether a packet has beats on the rails, or waiting for them. -/
def FabSt.carries (f : FabSt) (id : Nat) : Bool := (f.railWait ++ f.beats).any fun b => b.pkt == id

/-- A packet's beats wait for the rail of its column to another strip. -/
def FabSt.rail (f : FabSt) (p : Packet) (dst : Nat) : FabSt :=
  let b : Beat :=
    { die := p.die, col := p.col, south := decide (p.strip < dst), src := p.strip, dst := dst, vf := p.vf, eng := p.eng, at_ := 0, pkt := p.id }
  { f with railWait := f.railWait ++ List.replicate (beatsOf p.len) b }

/-- Column of the edge hub of a die towards another: west 0, east 15, north 7, south 8 (R13). -/
def hubCol (die next : Nat) : Nat :=
  if next = die + 1 then 15 else if next + 1 = die then 0 else if next + 4 = die then 7 else 8

/-- The column a packet's chain takes it to on the die it stands in. -/
def Packet.goal (p : Packet) : Nat := match p.dies with | n :: _ => hubCol p.die n | [] => p.toCol

/-- The column `n` hops ahead of a packet's header on its chain, none past the goal. -/
def Packet.ahead (p : Packet) (n : Nat) : Option Nat :=
  if p.col ≤ p.goal then (if p.col + n ≤ p.goal then some (p.col + n) else none)
  else if p.goal + n ≤ p.col then some (p.col - n) else none

/-- A wake goes from a packet to the router `n` hops ahead: it completes after 6 cycles (R19). -/
def FabSt.wakeAhead (f : FabSt) (p : Packet) (now n : Nat) : FabSt :=
  match p.ahead n with
  | some col => f.wake now (routerKey p.die p.strip col) (now + 6)
  | none => f

/-- A packet that has reached the end of its chain goes to the link, or by rail to its target's strip, or has arrived. -/
def FabSt.leaveChain (f : FabSt) (now : Nat) (p : Packet) : FabSt × Packet :=
  match p.dies with
  | _ :: _ => (f, { p with leg := .link, since := now, flits := flitsOf p.len, buf := 0 })
  | [] =>
    if p.strip = p.toStrip then (f, { p with leg := .there, since := now })
    else (f.rail p p.toStrip, { p with leg := .toStrip, since := now })

/-- A packet is injected into the chain of its strip, in a slot of its partition: wakes go to its first router and the next two (R19, R60).
One that stays in its column does not use the chain (R18). -/
def State.enterChain (s : State) (f : FabSt) (p : Packet) : FabSt × Packet :=
  let now := (s.cycle p.die).toNat
  if p.col = p.goal then f.leaveChain now p
  else if !s.slotOpen p.die p.vf then (f, { p with leg := .toChain })
  else ([0, 1, 2].foldl (fun (f : FabSt) n => f.wakeAhead p now n) f, { p with leg := .chain, since := now })

/-- Number of a virtual channel of a link in one direction: request 0, escape 3 (R46). -/
def linkKey (a b : Nat) (esc : Bool) : Nat := (a * 16 + b) * 4 + if esc then 3 else 0

/-- One cycle of a packet that crosses a link: a flit leaves the far end's input buffer and its credit returns; a flit enters the link when
the channel has a credit, in a slot of the partition by the sending die's counter; after 64 cycles without a credit the packet moves to the
escape channel (R13, R46, R60). -/
def State.crossLink (s : State) (f : FabSt) (p : Packet) (n : Nat) (rest : List Nat) : FabSt × Packet :=
  let now := (s.cycle p.die).toNat
  let key := linkKey p.die n p.esc
  let used := f.linkBuf.get key 0
  let (f, p, used) := if p.buf = 0 then (f, p, used)
    else ({ f with linkBuf := f.linkBuf.set key (used - 1) }, { p with buf := p.buf - 1 }, used - 1)
  if p.flits = 0 ∧ p.buf = 0 then s.enterChain f { p with die := n, col := hubCol n p.die, dies := rest, strip := 2 }
  else if p.flits = 0 ∨ !s.linkUp p.die n ∨ !s.slotOpen p.die p.vf then (f, { p with since := now })
  else if used < Config.linkFlits + 1 then
    ({ f with linkBuf := f.linkBuf.set key (used + 1) }, { p with flits := p.flits - 1, buf := p.buf + 1, since := now })
  else if !p.esc ∧ p.buf = 0 ∧ p.since + escapeWait ≤ now then
    (match s.escapeRoute p.die (rest.getLastD n) with
      | some r => (f, { p with esc := true, dies := r, leg := if r.head? = some n then .link else .toChain, since := now })
      | none => (f, p))
  else (f, p)

/-- One cycle of a packet on its way: a header leaves its router when that is awake and reaches the next 3 cycles later, waking the router two
hops ahead of it (R18, R19). -/
def State.tickPkt (s : State) (f : FabSt) (p : Packet) : FabSt × Packet :=
  let now := (s.cycle p.die).toNat
  match p.leg with
  | .there => (f, p)
  | .start =>
    if s.draining p.die then (f, p)
    else if !p.dies.isEmpty ∧ p.strip ≠ 2 then (f.rail p 2, { p with leg := .toChain })
    else s.enterChain f p
  | .toChain => if f.carries p.id then (f, p) else s.enterChain f (if p.dies.isEmpty then p else { p with strip := 2 })
  | .chain =>
    let key := routerKey p.die p.strip p.col
    let r := f.routers.get key {}
    if r.gated then (f, { p with since := now + 1 })
    else
      let f := f.setRouter key { r with idleFrom := now }
      if now < p.since + 3 ∨ !s.slotOpen p.die p.vf then (f, p)
      else
        let p := { p with col := (p.ahead 1).getD p.goal, since := now }
        let key := routerKey p.die p.strip p.col
        let r := f.routers.get key {}
        let f := (if r.gated then f else f.setRouter key { r with idleFrom := now }).wakeAhead p now 2
        if p.col = p.goal then f.leaveChain now p else (f, p)
  | .link => match p.dies with
    | n :: rest => s.crossLink f p n rest
    | [] => f.leaveChain now p
  | .toStrip => if f.carries p.id then (f, p) else (f, { p with leg := .there, since := now })

/-- Whether nothing moves in the fabric. -/
def FabSt.still (f : FabSt) : Bool :=
  f.transit.isEmpty && f.slices.isEmpty && f.railWait.isEmpty && f.beats.isEmpty && f.routers.all fun r => r.2.wakeAt.isNone

/-- One cycle of the fabric: wakes end, beats arrive, packets go on, and waiting beats enter their rails (R13, R16 to R19), so that the beats
of a transfer that meets no other enter in consecutive cycles. -/
def State.tickFab (s : State) : FabSt :=
  if s.fab.still then s.fab
  else
    let f : FabSt := { s.fab with
      routers := s.fab.routers.map fun r => (r.1, r.2.wakes (s.cycle (r.1 / 80)).toNat)
      beats := s.fab.beats.filter fun b => decide ((s.cycle b.die).toNat < b.at_ + b.span)
      linkBuf := s.fab.transit.foldl (fun (m : AMap Nat) t => match t.pkt.leg, t.pkt.dies with
        | .link, n :: _ => (let key := linkKey t.pkt.die n t.pkt.esc; m.set key (m.get key 0 + t.pkt.buf))
        | _, _ => m) [] }
    let (f, ts) := f.transit.foldl (fun (r : FabSt × List Transit) t =>
      let (f, p) := s.tickPkt r.1 t.pkt
      (f, r.2 ++ [{ t with pkt := p }])) (f, [])
    let (f, ps) := f.slices.foldl (fun (r : FabSt × List Packet) p =>
      let (f, p) := s.tickPkt r.1 p
      (f, r.2 ++ [p])) (f, [])
    let f : FabSt := { f with transit := ts, slices := ps.filter fun p => decide (p.leg ≠ .there) }
    ((f.railWait.map fun b => (b.die, b.col, b.south, b.src)).eraseDups).foldl (fun f q => s.inject f q.1 q.2.1 q.2.2.1 q.2.2.2) f

/-- One cycle of the module's fabric; nothing else changes. -/
def State.tick (s : State) : State := { s with fab := s.tickFab }

/-- Whether an entry is still on its way. -/
def Transit.underWay (t : Transit) : Bool := decide (t.pkt.leg ≠ .there)

/-- Strip of an engine kind: matrix M, vector V, copy C (R15). -/
def kindStrip (kind : Nat) : Nat := if kind = 0 then 1 else if kind = 1 then 3 else 4

/-- The packet of a dovetail entry that sets out: within a die along the chain of its source's strip, then by rail in the target's column;
between dies by the route of R45, along the chains of strip S1, which the hubs feed (R13, R18, R158). None when no live path is left. -/
def State.packetFor (s : State) (k reg tgt toReg len : Nat) : Option Packet :=
  let a := dieOf k
  let b := dieOf tgt
  (if a = b then some [] else s.route a b).map fun dies =>
    { id := s.fab.pktNext, vf := (s.ctx k).vf, len := len, eng := if reg / 2 = 2 then 1 else 2, die := a, strip := kindStrip (reg / 2),
      col := colOf k, toCol := colOf tgt, toStrip := kindStrip (toReg / 2), dies := dies, leg := .start, since := 0, flits := 0, buf := 0,
      esc := false }

/-! ### Dovetails (R89, R156 to R159) -/

/-- `DOVETAIL_BIND`: a binding write that waits takes effect once its result queue is empty (R157). -/
def execDovetailBind (ctx : Nat) (reg : Nat) (s : State) : Out :=
  .next (match (s.ctx ctx).dvbWait.find? (fun e => e.1 == reg) with
    | some (_, v) =>
      if s.rqEmpty ctx reg then s.upCtx ctx fun c => (c.bindDvb reg v).upStrm .c fun x => { x with mpos := 1 } else s
    | none => s)

/-- REPL of a stage of a context's instance. -/
def State.replOf (s : State) (k stage : Nat) : Nat := match s.instOf k with | some i => i.repls.getD stage 1 | none => 1

/-- The context and operand queue that a result queue's next entry goes to (R157, R89), with the number of replicas it deals to. -/
def State.dovetailTarget (s : State) (k reg : Nat) : Option (Nat × Nat) :=
  let c := s.ctx k
  let v := (c.dvb.get reg 0).toNat
  let stage := fld v 14 3
  let deals := bit v 62 && decide (c.team.nrepl = 1) && decide (1 < s.replOf k stage)
  let repl := if deals then c.deal.get reg 0 % s.replOf k stage else fld v 6 8
  match s.instOf k with
  | none => none
  | some i =>
    match i.teams.find? (fun t => t.copy == c.team.copy && t.stage == stage && t.replica == repl) with
    | none => none
    | some t => (t.ctxs[fld v 4 2]?).map fun k' => (k', 2 * fld v 2 2 + fld v 1 1)

/-- Entries on their way to an operand queue. -/
def State.comingTo (s : State) (k reg : Nat) : Nat := (s.fab.transit.filter fun t => t.toCtx == k && t.toReg == reg).length

/-- Whether it is this sender's turn at a receiver that takes from all replicas in turn (R89). -/
def State.itsTurn (s : State) (k reg tgt toReg : Nat) : Bool :=
  let c := s.ctx k
  if (c.dvb.get reg 0).getLsbD 62 && decide (1 < c.team.nrepl) && decide ((s.ctx tgt).team.nrepl = 1)
  then decide ((s.ctx tgt).deal.get (6 + toReg) 0 % c.team.nrepl = c.team.replica) else true

/-- `DOVETAIL_DELIVERY`: the head of a result queue leaves when its operand queue has a free entry (R158). An entry that cannot be
delivered is a write error of the pushing stream (R159). -/
def execDovetailDelivery (ctx : Nat) (reg : Nat) (s : State) : Out :=
  .next (match (s.ctx ctx).rq.get reg [] with
    | [] => s
    | it :: rest =>
      let take := fun (s : State) => s.upCtx ctx fun c => { c with rq := c.rq.set reg rest }
      let lost := fun (code : Nat) => (take s).upStrm ctx (if reg / 2 = 0 then .m else if reg / 2 = 1 then .v else .y)
        fun x => { x with werr := x.werr ++ [⟨0, code, 0⟩] }
      match s.dovetailTarget ctx reg with
      | none => lost 2
      | some (k, q) =>
        if !s.isLive (dieOf k) then lost 2
        else match s.packetFor ctx reg k q it.len with
        | none => lost 4
        | some p =>
        if s.draining (dieOf ctx) || Config.queueDepth ≤ ((s.ctx k).oq.get q []).length + s.comingTo k q || !s.itsTurn ctx reg k q then s
        else
          let s := (take s).upCtx ctx fun c => { c with deal := c.deal.set reg (c.deal.get reg 0 + 1) }
          let s := if ((s.ctx ctx).dvb.get reg 0).getLsbD 62
            then s.upCtx k fun c => { c with deal := c.deal.set (6 + q) (c.deal.get (6 + q) 0 + 1) } else s
          { s with fab := { s.fab with transit := s.fab.transit ++ [⟨ctx, reg, k, q, it, p⟩], pktNext := s.fab.pktNext + 1 } })

/-- Rank of an entry among those that arrive in one cycle: global core, engine kind, queue number (R158). -/
def Transit.rank (t : Transit) : Nat := t.fromCtx / 4 * 8 + t.fromReg

/-- Whether an entry's source and target are a stage's dovetail, bound by R89. -/
def State.lockedPair (s : State) (t : Transit) : Bool := ((s.ctx t.fromCtx).dvb.get t.fromReg 0).getLsbD 62

/-- Whether another entry enters the same operand queue before an entry that has arrived: an older one of the same result queue; in the turns
of R89 an older one in turn; else one that arrived earlier, or in the same cycle with a lower rank (R158). -/
def State.enteredBefore (s : State) (older : Bool) (e t : Transit) : Bool :=
  let same := e.toCtx == t.toCtx && e.toReg == t.toReg
  if e.fromCtx = t.fromCtx ∧ e.fromReg = t.fromReg then older
  else if same && s.lockedPair e && s.lockedPair t then older
  else same && !e.underWay && (decide (e.pkt.since < t.pkt.since) || (decide (e.pkt.since = t.pkt.since) && decide (e.rank < t.rank)))

/-- `DOVETAIL_ARRIVAL`: an entry that has arrived enters its operand queue in its order (R158, R89). -/
def execDovetailArrival (idx : Nat) (s : State) : Out :=
  .next (match s.fab.transit[idx]? with
    | none => s
    | some t =>
      if t.underWay || ((s.fab.transit.take idx).any fun e => s.enteredBefore true e t) ||
          (s.fab.transit.drop (idx + 1)).any fun e => s.enteredBefore false e t then s
      else ({ s with fab := { s.fab with transit := s.fab.transit.eraseIdx idx } }).upCtx t.toCtx fun c =>
        { c with oq := c.oq.set t.toReg (c.oq.get t.toReg [] ++ [t.item]), idleFrom := (s.cycle (dieOf t.toCtx)).toNat })

end Sys2Proof.Machine
end

