-- ==== Sys2Proof/Machine/Package.lean ====
section
/-!
DEFINITION. Sys2Proof/Machine/Package.lean: module cold reset (R7), rail telemetry (R23, R24), the boiling-limit power cap (R25, R26) and
connector health (R28, R29).
-/

namespace Sys2Proof.Machine

/-- `MODULE_COLD_RESET`: every register takes its Reset value, and die views, streams and scheduler state are empty (R7). What HBM
and the host hold and the firmware in flash stay; weight memory is zero (R398), and the cycle counters read zero. The boot loader starts the
image in flash, or stays in recovery when it does not verify (R132, R133; notes/assumptions/89.md). -/
def execModuleColdReset (s : State) : Out :=
  .next { State.reset with
    now := s.now
    plan := s.plan
    cyc := (List.range Config.dies).map fun d => (d, - BitVec.ofNat 64 s.now)
    mem := { State.reset.mem with hbm := s.mem.hbm, hbmCheck := s.mem.hbmCheck, host := s.mem.host }
    pf := { State.reset.pf with
      flash := s.pf.flash
      fwRun := s.pf.flash
      recovery := match s.pf.flash with | some image => !Config.firmwareVerifies image | none => false
      msixOut := s.pf.msixOut }
    sched := { State.reset.sched with decl := s.sched.decl }
    ckpts := s.ckpts }

/-! ### Rail telemetry (R23, R24) -/

/-- Rails of a die kind (Table 1-5). -/
def railsOf (die : Nat) : Nat := if die < 32 then 3 else if die < 36 then 4 else 3

/-- Whether a slot index names a rail (R23). -/
def namesRail (slot : Nat) : Bool :=
  if slot < 148 then decide (slot % 4 < railsOf (slot / 4)) else decide (slot < 150)

/-- One sample of a slot: SEQ is odd while the words are updated and even again after it. -/
def RailSlot.sample (r : RailSlot) (m : Option RailMeas) : RailSlot :=
  let r := { r with seq := r.seq + 1 }
  let r := match m with
    | some m => { r with vmv := BitVec.ofNat 32 m.vmv, ima := BitVec.ofNat 32 m.ima, temp := BitVec.ofNat 16 m.temp }
    | none => r
  { r with seq := r.seq + 1 }

/-- `RAIL_TELEMETRY_SAMPLE`: every slot that names a rail is sampled; the measured values come from outside (R24). -/
def execRailTelemetrySample (vals : List RailMeas) (s : State) : Out :=
  .next { s with pf := { s.pf with
    rails := ((List.range 150).filter namesRail).foldl (fun (t : AMap RailSlot) n =>
      t.set n ((t.get n {}).sample (vals.find? fun v => v.slot == n))) s.pf.rails } }

/-! ### The power cap (R25, R26) -/

/-- `COOLANT_WRITE`: the RW fields are stored, and take effect at the next control interval (R25). -/
def execCoolantWrite (v : Nat) (s : State) : Out :=
  .next { s with pf := { s.pf with coolant := BitVec.ofNat 32 v &&& 0x80FFFFFF } }

/-- Effective cap of a die in watts (R25). -/
def effectiveCap (coolant : Nat) (die : Nat) : Nat :=
  if bit coolant 31 then
    Nat.min (Config.staticLimit die) (fld coolant 0 16 * Config.boilingArea die * fld coolant 16 8 / (10 * 10 * 256))
  else Config.staticLimit die

/-- One control interval of a die with a measured power (R26): the clock moves one 25 MHz step between 350 MHz and 1.4 GHz; the counts
of intervals at 350 MHz above the cap, and below the cap, go on. -/
def DiePower.interval (p : DiePower) (cap watts : Nat) : DiePower :=
  let above := decide (cap < watts)
  let step := if above then Nat.max 14 (p.fstep - 1) else if 100 * watts < 95 * cap then Nat.min 56 (p.fstep + 1) else p.fstep
  { p with
    fstep := step, pwrw := watts, capw := some cap
    hot := if above && decide (p.fstep = 14) then Nat.min 100 (p.hot + 1) else 0
    cool := if watts < cap then Nat.min 100 (p.cool + 1) else 0 }

/-- `POWER_CONTROL_INTERVAL`: COOLANT takes effect, and every live die compares its measured power with its cap (R25, R26). -/
def execPowerControlInterval (watts : List (Nat × Nat)) (s : State) : Out :=
  let dies := (List.range Config.dies).filter s.isLive
  .next { s with pf := { s.pf with
    coolantEff := s.pf.coolant
    power := dies.foldl (fun (t : AMap DiePower) d =>
      let p := t.get d {}
      t.set d (p.interval (effectiveCap s.pf.coolant.toNat d) (match watts.find? (fun w => w.1 == d) with | some w => w.2 | none => p.pwrw)))
      s.pf.power } }

/-- THR of a die (Table 1-8). -/
def DiePower.thr (p : DiePower) (die : Nat) : Nat :=
  if p.unavail then 3 else if p.fstep = 14 ∧ p.capw.getD (Config.staticLimit die) < p.pwrw then 2 else if p.fstep < 56 then 1 else 0

/-- `DIE_MARKED_UNAVAILABLE`: a die at 350 MHz and above its cap for 1 ms (100 intervals) takes no new placement, and
preloads on it are withdrawn (R26, Table 4-6). -/
def execDieMarkedUnavailable (die : Nat) (s : State) : Out :=
  let p := s.pf.power.get die {}
  .next (if 100 ≤ p.hot then
      ({ s with pf := { s.pf with power := s.pf.power.set die { p with unavail := true } } }).withdrawOn fun i => i.teams.any fun t => t.die == die
    else s)

/-- `DIE_UNAVAILABLE_CLEAR`: the mark clears when the die has been below its cap for 1 ms (R26). -/
def execDieUnavailableClear (die : Nat) (s : State) : Out :=
  let p := s.pf.power.get die {}
  .next (if 100 ≤ p.cool then { s with pf := { s.pf with power := s.pf.power.set die { p with unavail := false } } } else s)

/-! ### Connectors (R28, R29) -/

/-- Thresholds of a connector: degraded and failing (R29). -/
def connThresholds (idx : Nat) : Nat × Nat := if idx = 0 then (200, 500) else (2684, 26844)

/-- Level that a measurement reaches. -/
def connLevel (idx metric : Nat) : Nat :=
  if (connThresholds idx).2 ≤ metric then 2 else if (connThresholds idx).1 ≤ metric then 1 else 0

/-- `CONNECTOR_MEASUREMENT`: METRIC is stored and the thresholds are applied: STATE rises with the first measurement that reaches a
higher threshold, and falls one level after 16 below its own; a change sets EVT and sends the management vector (R29). -/
def execConnectorMeasurement (idx metric : Nat) (s : State) : Out :=
  let c := s.pf.conn.get idx {}
  let m := Nat.min 65535 metric
  let lvl := connLevel idx m
  let below := if lvl < c.stat then c.below + 1 else 0
  let stat := if c.stat < lvl then lvl else if 16 ≤ below then c.stat - 1 else c.stat
  .next (if 10 ≤ idx then s
    else
      let c' : Conn := { stat := stat, evt := c.evt || decide (stat ≠ c.stat), metric := m, below := if stat = c.stat then below else 0 }
      let s := { s with pf := { s.pf with conn := s.pf.conn.set idx c' } }
      if stat = c.stat then s else s.sendMsix .pf 0)

/-- `EVT_CLEAR`: a write of 1 to CONN.EVT clears it (R28). -/
def execEvtClear (idx : Nat) (s : State) : Out :=
  .next { s with pf := { s.pf with conn := s.pf.conn.set idx { s.pf.conn.get idx {} with evt := false } } }

end Sys2Proof.Machine
end

