-- ==== Sys2Proof/Machine/VectorFp.lean ====
section
/-!
DEFINITION. Sys2Proof/Machine/VectorFp.lean: floating-point arithmetic (R359 to R362), compares and select (R364, R365), reductions
(R371 to R373), conversions, packs and unpacks (R366 to R370).
-/

namespace Sys2Proof.Machine

/-! ### FP32 element-wise instructions (R359 to R361) -/

/-- A jet-aware FP32 operation on sources a and b (b unused by one-operand forms) and the old destination, of latency base + k · per. -/
def State.vJet (s : State) (o : FOp) (base per vd : Nat) (va : VSrc) (vb : Option VSrc) : State :=
  let c := s.here
  let x := c.vec
  let k := x.ord
  let groups := vd :: va.reg :: (match vb with | some b => [b.reg] | none => [])
  s.vStart k groups [] [] [] (some 2) (some 2) (
    let rd := fun (ws : List Nat) => ws.map (fmtF32.read x.flush)
    let es := c.active.map fun e =>
      (e, jetOp x.arith o k (rd (c.jet va.dir va.reg k e)) (match vb with | some b => rd (c.jet b.dir b.reg k e) | none => [])
        (rd (c.jet 0 vd k e)))
    s.vEmit (jetLat base per k) 4 vd (groupOuts vd k (es.map fun e => (e.1, e.2.map Prod.fst))) []
      (foldFlags (es.map fun e => e.2.map Prod.snd)))

/-- A copying FP32 operation on whole jets: no rounding, no flag (R361, R232). -/
def State.vCopyJet (s : State) (f : List Nat → List Nat → List Nat) (vd : Nat) (va : VSrc) (vb : Option VSrc) : State :=
  let c := s.here
  let k := c.vec.ord
  let groups := vd :: va.reg :: (match vb with | some b => [b.reg] | none => [])
  s.vStart k groups [] [] [] (some 2) (some 2) (
    s.vEmit (jetLat 4 1 k) 4 vd (groupOuts vd k (c.active.map fun e =>
      (e, f (c.jet va.dir va.reg k e) (match vb with | some b => c.jet b.dir b.reg k e | none => [])))) [] 0)

/-- `vadd`: a + b (R359). -/
def execVadd (vd : Nat) (va vb : VSrc) (s : State) : Out := .next (s.vJet .add 4 1 vd va (some vb))

/-- `vsub`: a - b (R359). -/
def execVsub (vd : Nat) (va vb : VSrc) (s : State) : Out := .next (s.vJet .sub 4 1 vd va (some vb))

/-- `vmul`: a · b (R359). -/
def execVmul (vd : Nat) (va vb : VSrc) (s : State) : Out := .next (s.vJet .mul 6 2 vd va (some vb))

/-- `vfma`: a · b + d with one rounding (R359). -/
def execVfma (vd : Nat) (va vb : VSrc) (s : State) : Out := .next (s.vJet .fma 6 2 vd va (some vb))

/-- `vdiv`: a / b (R359). -/
def execVdiv (vd : Nat) (va vb : VSrc) (s : State) : Out := .next (s.vJet .div 12 6 vd va (some vb))

/-- `vmin`: the smaller jet by exact value; equal ones give a (R361, R232). -/
def execVmin (vd : Nat) (va vb : VSrc) (s : State) : Out := .next (s.vCopyJet (minMaxJet fmtF32 s.here.vec.flush false) vd va (some vb))

/-- `vmax`: the larger jet by exact value; equal ones give a (R361, R232). -/
def execVmax (vd : Nat) (va vb : VSrc) (s : State) : Out := .next (s.vCopyJet (minMaxJet fmtF32 s.here.vec.flush true) vd va (some vb))

/-- `vrcp`: 1/a, correctly rounded (R359, R360). -/
def execVrcp (vd : Nat) (va : VSrc) (s : State) : Out := .next (s.vJet .rcp 12 6 vd va none)

/-- `vsqrt`: √a, correctly rounded (R359, R360). -/
def execVsqrt (vd : Nat) (va : VSrc) (s : State) : Out := .next (s.vJet .sqrt 12 6 vd va none)

/-- `vrsqrt`: 1/√a, correctly rounded (R359, R360). -/
def execVrsqrt (vd : Nat) (va : VSrc) (s : State) : Out := .next (s.vJet .rsqrt 12 6 vd va none)

/-- `vexp2`: 2^a, correctly rounded (R359, R360). -/
def execVexp2 (vd : Nat) (va : VSrc) (s : State) : Out := .next (s.vJet (.fn .exp2) 16 6 vd va none)

/-- `vlog2`: log2 a, correctly rounded (R359, R360). -/
def execVlog2 (vd : Nat) (va : VSrc) (s : State) : Out := .next (s.vJet (.fn .log2) 16 6 vd va none)

/-- `vsin`: sin a, correctly rounded (R359, R360). -/
def execVsin (vd : Nat) (va : VSrc) (s : State) : Out := .next (s.vJet (.fn .sin) 16 6 vd va none)

/-- `vcos`: cos a, correctly rounded (R359, R360). -/
def execVcos (vd : Nat) (va : VSrc) (s : State) : Out := .next (s.vJet (.fn .cos) 16 6 vd va none)

/-- `vtanh`: tanh a, correctly rounded (R359, R360). -/
def execVtanh (vd : Nat) (va : VSrc) (s : State) : Out := .next (s.vJet (.fn .tanh) 16 6 vd va none)

/-- `vsigm`: 1/(1 + e^(-a)), correctly rounded (R359, R360). -/
def execVsigm (vd : Nat) (va : VSrc) (s : State) : Out := .next (s.vJet (.fn .sigm) 16 6 vd va none)

/-- `vneg`: the negated jet (R361, R232). -/
def execVneg (vd : Nat) (va : VSrc) (s : State) : Out :=
  .next (s.vCopyJet (fun a _ => negJet fmtF32 s.here.vec.flush a) vd va none)

/-- `vabs`: the jet of the absolute value (R361, R232). -/
def execVabs (vd : Nat) (va : VSrc) (s : State) : Out :=
  .next (s.vCopyJet (fun a _ => absJet fmtF32 s.here.vec.flush a) vd va none)

/-! ### FP16 and BF16 (R362) -/

/-- An FP16 or BF16 operation, never jet-aware; its flags go to slot 0. -/
def State.vHalf (s : State) (f : FFmt) (o : FOp) (lat vd : Nat) (va vb : VSrc) : State :=
  let c := s.here
  let x := c.vec
  s.vStart 0 [] [vd, va.reg, vb.reg] [] [] (some 1) (some 1) (
    let rd := fun (r : VSrc) (e : Nat) => f.read x.flush (c.src 2 r.dir r.reg e)
    let es := c.active.map fun e => (e, f.op x.arith o (rd va e) (rd vb e) (rd ⟨0, vd⟩ e))
    s.vEmit lat 2 vd [(vd, es.map fun e => (e.1, e.2.1))] [] (es.foldl (fun acc e => acc ||| e.2.2) 0))

/-- Minimum or maximum of FP16 or BF16 elements (R361). -/
def State.vHalfMin (s : State) (f : FFmt) (most : Bool) (vd : Nat) (va vb : VSrc) : State :=
  let c := s.here
  s.vStart 0 [] [vd, va.reg, vb.reg] [] [] (some 1) (some 1) (
    s.vEmit 4 2 vd [(vd, c.active.map fun e =>
      (e, (minMaxJet f c.vec.flush most [c.src 2 va.dir va.reg e] [c.src 2 vb.dir vb.reg e]).getD 0 0))] [] 0)

/-- `vadd.f16`: a + b in FP16 (R362). -/
def execVaddF16 (vd : Nat) (va vb : VSrc) (s : State) : Out := .next (s.vHalf fmtF16 .add 4 vd va vb)

/-- `vsub.f16`: a - b in FP16 (R362). -/
def execVsubF16 (vd : Nat) (va vb : VSrc) (s : State) : Out := .next (s.vHalf fmtF16 .sub 4 vd va vb)

/-- `vmul.f16`: a · b in FP16 (R362). -/
def execVmulF16 (vd : Nat) (va vb : VSrc) (s : State) : Out := .next (s.vHalf fmtF16 .mul 6 vd va vb)

/-- `vfma.f16`: a · b + d in FP16 (R362). -/
def execVfmaF16 (vd : Nat) (va vb : VSrc) (s : State) : Out := .next (s.vHalf fmtF16 .fma 6 vd va vb)

/-- `vmin.f16` in FP16 (R362). -/
def execVminF16 (vd : Nat) (va vb : VSrc) (s : State) : Out := .next (s.vHalfMin fmtF16 false vd va vb)

/-- `vmax.f16` in FP16 (R362). -/
def execVmaxF16 (vd : Nat) (va vb : VSrc) (s : State) : Out := .next (s.vHalfMin fmtF16 true vd va vb)

/-- `vadd.bf16`: a + b in BF16 (R362). -/
def execVaddBf16 (vd : Nat) (va vb : VSrc) (s : State) : Out := .next (s.vHalf fmtBf16 .add 4 vd va vb)

/-- `vsub.bf16`: a - b in BF16 (R362). -/
def execVsubBf16 (vd : Nat) (va vb : VSrc) (s : State) : Out := .next (s.vHalf fmtBf16 .sub 4 vd va vb)

/-- `vmul.bf16`: a · b in BF16 (R362). -/
def execVmulBf16 (vd : Nat) (va vb : VSrc) (s : State) : Out := .next (s.vHalf fmtBf16 .mul 6 vd va vb)

/-- `vfma.bf16`: a · b + d in BF16 (R362). -/
def execVfmaBf16 (vd : Nat) (va vb : VSrc) (s : State) : Out := .next (s.vHalf fmtBf16 .fma 6 vd va vb)

/-- `vmin.bf16` in BF16 (R362). -/
def execVminBf16 (vd : Nat) (va vb : VSrc) (s : State) : Out := .next (s.vHalfMin fmtBf16 false vd va vb)

/-- `vmax.bf16` in BF16 (R362). -/
def execVmaxBf16 (vd : Nat) (va vb : VSrc) (s : State) : Out := .next (s.vHalfMin fmtBf16 true vd va vb)

/-! ### Compares and select (R364, R365) -/

/-- A floating-point compare of value coefficients: `rel` of the comparison and of unordered, with the flag it raises; operands are as the
mode reads them (R209; notes/assumptions/27.md). -/
def State.vFcmp (s : State) (rel : Int → Bool) (unord : Bool) (signal : Bool) (vd : Nat) (va vb : VSrc) : State :=
  let c := s.here
  let x := c.vec
  s.vStart 0 [] [vd, va.reg, vb.reg] [] [] (some 2) (some 2) (
    let es := c.active.map fun e =>
      let a := fmtF32.read x.flush (c.src 4 va.dir va.reg e)
      let b := fmtF32.read x.flush (c.src 4 vb.dir vb.reg e)
      let un := decide (a = .nan) || decide (b = .nan)
      (e, (if (if un then unord else rel (cmpFv a b)) then 1 else 0), if un && signal then fInvalid else 0)
    s.vEmit 4 4 vd [(vd, es.map fun e => (e.1, e.2.1))] [] (es.foldl (fun acc e => acc ||| e.2.2) 0))

/-- An integer compare at any width. -/
def State.vIcmp (s : State) (rel : Nat → Nat → Nat → Bool) (vd : Nat) (va vb : VSrc) : State :=
  let c := s.here
  let x := c.vec
  s.vStart 0 [] [vd, va.reg, vb.reg] [] [] none (some x.wcode) (
    s.vEmit 4 x.wb vd [(vd, c.active.map fun e =>
      (e, if rel (8 * x.wb) (c.src x.wb va.dir va.reg e) (c.src x.wb vb.dir vb.reg e) then 1 else 0))] [] 0)

/-- `vfeq`: equal, quiet (R364). -/
def execVfeq (vd : Nat) (va vb : VSrc) (s : State) : Out := .next (s.vFcmp (fun d => decide (d = 0)) false false vd va vb)

/-- `vfne`: not equal, quiet (R364). -/
def execVfne (vd : Nat) (va vb : VSrc) (s : State) : Out := .next (s.vFcmp (fun d => decide (d ≠ 0)) true false vd va vb)

/-- `vflt`: less than, quiet (R364). -/
def execVflt (vd : Nat) (va vb : VSrc) (s : State) : Out := .next (s.vFcmp (fun d => decide (d < 0)) false false vd va vb)

/-- `vfle`: less than or equal, quiet (R364). -/
def execVfle (vd : Nat) (va vb : VSrc) (s : State) : Out := .next (s.vFcmp (fun d => decide (d ≤ 0)) false false vd va vb)

/-- `vfslt`: less than; unordered raises invalid (R364). -/
def execVfslt (vd : Nat) (va vb : VSrc) (s : State) : Out := .next (s.vFcmp (fun d => decide (d < 0)) false true vd va vb)

/-- `vfsle`: less than or equal; unordered raises invalid (R364). -/
def execVfsle (vd : Nat) (va vb : VSrc) (s : State) : Out := .next (s.vFcmp (fun d => decide (d ≤ 0)) false true vd va vb)

/-- `vfun`: unordered (R364). -/
def execVfun (vd : Nat) (va vb : VSrc) (s : State) : Out := .next (s.vFcmp (fun _ => false) true false vd va vb)

/-- `vieq`: equal (R364). -/
def execVieq (vd : Nat) (va vb : VSrc) (s : State) : Out := .next (s.vIcmp (fun _ a b => decide (a = b)) vd va vb)

/-- `vilt`: signed less than (R364). -/
def execVilt (vd : Nat) (va vb : VSrc) (s : State) : Out := .next (s.vIcmp (fun w a b => decide (toSigned w a < toSigned w b)) vd va vb)

/-- `vile`: signed less than or equal (R364). -/
def execVile (vd : Nat) (va vb : VSrc) (s : State) : Out := .next (s.vIcmp (fun w a b => decide (toSigned w a ≤ toSigned w b)) vd va vb)

/-- `viltu`: unsigned less than (R364). -/
def execViltu (vd : Nat) (va vb : VSrc) (s : State) : Out := .next (s.vIcmp (fun _ a b => decide (a < b)) vd va vb)

/-- `vileu`: unsigned less than or equal (R364). -/
def execVileu (vd : Nat) (va vb : VSrc) (s : State) : Out := .next (s.vIcmp (fun _ a b => decide (a ≤ b)) vd va vb)

/-- `vsel`: the element, or the whole jet, of va where the old vd is not zero as a bit pattern, else of vb (R365). -/
def execVsel (vd : Nat) (va vb : VSrc) (s : State) : Out :=
  let c := s.here
  let x := c.vec
  let k := x.moveOrd
  .next (s.vStart k [vd, va.reg, vb.reg] [] [] [] none (some x.wcode) (
    s.vEmit (jetLat 4 1 k) x.wb vd (groupOuts vd k (c.active.map fun e =>
      let p := if c.src x.wb 0 vd e ≠ 0 then va else vb
      (e, (groupOf p.reg k).map fun r => c.src x.wb p.dir r e))) [] 0))

/-! ### Conversions (R366, R367) -/

/-- Width codes of source and destination of a CONV (Table 16-8). -/
def convWidths (conv : Nat) : Nat × Nat :=
  match conv with
  | 0 | 1 => (2, 1)
  | 2 | 3 => (1, 2)
  | 4 | 5 => (2, 2)
  | 6 | 7 => (2, 0)
  | 8 | 9 => (0, 2)
  | 10 => (2, 1)
  | _ => (2, 0)

/-- One converted element: bits and flags. Flushing acts on the FP32, FP16 or BF16 side (R209). -/
def convElem (conv : Nat) (r : Rnd) (w : Nat) : Nat × Nat :=
  let rd := fun (f : FFmt) => f.read r.flush w
  let toInt := fun (n : Nat) => let v := fvToInt r n (rd fmtF32); (toBits n v.1, v.2)
  let keep : Rnd := { r with flush := false }
  match conv with
  | 0 => fmtF16.convert r (rd fmtF32)
  | 1 => fmtBf16.convert r (rd fmtF32)
  | 2 => fmtF32.convert r (rd fmtF16)
  | 3 => fmtF32.convert r (rd fmtBf16)
  | 4 => toInt 32
  | 5 => fmtF32.write r (intRv r (toSigned 32 w))
  | 6 => fmtE4m3.convert keep (rd fmtF32)
  | 7 => fmtE5m2.convert keep (rd fmtF32)
  | 8 => fmtF32.convert r (fmtE4m3.read false w)
  | 9 => fmtF32.convert r (fmtE5m2.read false w)
  | 10 => toInt 16
  | _ => toInt 8

/-- Rounding code in force of a conversion or pack: VCTL.RND with RV (R366). -/
def VecSt.inForce (x : VecSt) (rv : Bool) (rnd : Nat) : Nat := if rv then x.rnd else rnd

/-- DPHASE after n destination registers of a dithered instruction (R218, R367). -/
def State.dither (s : State) (code n : Nat) : State :=
  if code = 4 then s.upHere fun c => { c with vec := { c.vec with dphase := (c.vec.dphase + 7 * n) % 48 } } else s

/-- `vcvt`: each active element converted as CONV gives it (R366). -/
def execVcvt (vd : Nat) (va : VSrc) (rv : Bool) (rnd conv : Nat) (s : State) : Out :=
  let c := s.here
  let x := c.vec
  let (sw, dw) := convWidths conv
  let code := x.inForce rv rnd
  .next (s.vStart 0 [] [vd, va.reg] [] [] none none (
    if decide (2048 < x.count * Nat.max (widthBytes sw) (widthBytes dw)) || (x.gpen && (c.readP x.gp).2 != dw) then s.faultC cSHAPE
    else
      let es := c.active.map fun e =>
        (e, convElem conv { code := code, dith := dithAt (e % x.nc) x.dphase, flush := x.flush } (c.src (widthBytes sw) va.dir va.reg e))
      s.vRoom 1 ((s.dither code 1).vEmit 6 (widthBytes dw) vd [(vd, es.map fun e => (e.1, e.2.1))] []
        (es.foldl (fun acc e => acc ||| e.2.2) 0))))

/-! ### Packs (R368, R370) -/

/-- Bytes of a register from byte 0 on as elements of one byte. -/
def byteElems (bs : List Byte) : List (Nat × Nat) := ((List.range bs.length).zip bs).map fun p => (p.1, p.2.toNat)

/-- The 32-bit words of a register in which bytes 0 to n - 1 were written, as contributions (R370). -/
def wordsOf (n : Nat) (bs : List Byte) (old : VReg) : List (Nat × Nat) :=
  let m := packV 1 (byteElems bs)
  let v := (old &&& ~~~m.1) ||| m.2
  (List.range ((n + 3) / 4)).map fun j => (j, elemOf 4 v j)

/-- A pack with a format code of a descriptor (7 to 11) and a codebook extension; DESC when the descriptor that carries it fails a check of
R150. -/
def State.vPack (s : State) (fmt ext vd : Nat) (va : VSrc) (rv : Bool) (rnd : Nat) (bad : Bool) : State :=
  let c := s.here
  let x := c.vec
  let mx := decide (10 ≤ fmt)
  let code := x.inForce rv rnd
  if mx && vd == 63 then s.illegal
  else s.vStart 0 [] ([vd, va.reg] ++ if mx then [vd + 1] else []) [] [] (some 2) (some 2) (
    if bad then s.faultC cDESC else
    let act := c.active
    let xs := (List.range x.count).map fun e => if act.contains e then some (fmtF32.read x.flush (c.src 4 va.dir va.reg e)) else none
    let (bs, sc, fl) := packRow fmt code x.dphase ext xs
    let outs : VOuts := (vd, byteElems bs) :: if mx then [(vd + 1, byteElems sc)] else []
    let sign := wordsOf bs.length bs (c.readV vd) ++ if mx then wordsOf sc.length sc (c.readV (vd + 1)) else []
    let id := s.ord.nextId
    let ls := x.records id s.cur.pc 10 1 vd (fl % 32) (outs.map fun o => let m := packV 1 o.2; VWrite.v o.1 m.1 m.2)
    s.vRoom ls.length (
      let s := (s.dither code (if mx then 2 else 1)).upHere fun c => { c with vec := { c.vec with landing := c.vec.landing ++ ls } }
      (s.contribute s.cur.ctx id (some sign)).freshId.issued id x.exposed))

/-- `vpack` to P8, P4, MX8 or MX4 (R368). -/
def execVpack (vd : Nat) (va : VSrc) (rv : Bool) (rnd fmt : Nat) (s : State) : Out := .next (s.vPack (7 + fmt) 0 vd va rv rnd false)

/-- `vpack` to CB4 with the codebook of a shape register (R368). -/
def execVpackCb4 (vd : Nat) (va : VSrc) (dn : Nat) (rv : Bool) (rnd : Nat) (s : State) : Out :=
  .next (s.vPack 9 (s.here.dext.get dn 0).toNat vd va rv rnd (descOf (s.here.readD dn)).bad)

/-- An unpack: each active element is the rounded value of its block element (R369, R358), with DESC as in `vPack`. R205 and R367 name no
unpack among what dithers: a rounding code of 4 rounds to nearest (DESIGN CHOICE, notes/assumptions/55.md). -/
def State.vUnpack (s : State) (fmt ext vd : Nat) (va : VSrc) (rv : Bool) (rnd : Nat) (bad : Bool) : State :=
  let c := s.here
  let x := c.vec
  let mx := decide (10 ≤ fmt)
  let code := x.inForce rv rnd
  if va.dir ≠ 0 || (mx && va.reg == 63) then s.illegal
  else s.vStart 0 [] ([vd, va.reg] ++ if mx then [va.reg + 1] else []) [] [] (some 2) (some 2) (
    if bad then s.faultC cDESC else
    let r : Rnd := { code := if code = 4 then 0 else code, flush := x.flush }
    let es := c.active.map fun e =>
      (e, fmtF32.convert r (rowElem fmt (fun b => elemOf 1 (c.readV va.reg) b) (fun b => elemOf 1 (c.readV (va.reg + 1)) b) ext e))
    s.vEmit 10 4 vd [(vd, es.map fun e => (e.1, e.2.1))] [] (es.foldl (fun acc e => acc ||| e.2.2) 0))

/-- `vunpack` from P8, P4, MX8 or MX4 (R369). -/
def execVunpack (vd : Nat) (va : VSrc) (rv : Bool) (rnd fmt : Nat) (s : State) : Out := .next (s.vUnpack (7 + fmt) 0 vd va rv rnd false)

/-- `vunpack` from CB4 with the codebook of a shape register (R369). -/
def execVunpackCb4 (vd : Nat) (va : VSrc) (dn : Nat) (rv : Bool) (rnd : Nat) (s : State) : Out :=
  .next (s.vUnpack 9 (s.here.dext.get dn 0).toNat vd va rv rnd (descOf (s.here.readD dn)).bad)

/-! ### Reductions (R371 to R373) -/

/-- `vrsum`: each coefficient's exact sum, rounded once (R371). -/
def execVrsum (vd : Nat) (va : VSrc) (s : State) : Out :=
  let c := s.here
  let x := c.vec
  let k := x.ord
  .next (s.vStart k [vd, va.reg] [] [] [] (some 2) (some 2) (
    let act := c.active
    let sums := (List.range (k + 1)).map fun j =>
      let v := sumFv x.arith (act.map fun e => fmtF32.read x.flush (c.src 4 va.dir (va.reg + j) e))
      let w := fmtF32.write x.arith v.1
      (w.1, w.2 ||| if v.2 then fInvalid else 0)
    s.vEmit (jetLat 10 2 k) 4 vd (groupOuts vd k (act.map fun e => (e, sums.map Prod.fst))) []
      (if act.isEmpty then 0 else slotFlags (sums.map Prod.snd))))

/-- Minimum or maximum of the active jets; a tie is won by the lowest index (R371, R232). -/
def State.vRmin (s : State) (most : Bool) (vd : Nat) (va : VSrc) : State :=
  let c := s.here
  let x := c.vec
  let k := x.ord
  s.vStart k [vd, va.reg] [] [] [] (some 2) (some 2) (
    let act := c.active
    let best := match act with
      | [] => []
      | e :: rest => rest.foldl (fun b e => minMaxJet fmtF32 x.flush most b (c.jet va.dir va.reg k e))
          (minMaxJet fmtF32 x.flush most (c.jet va.dir va.reg k e) (c.jet va.dir va.reg k e))
    s.vEmit (jetLat 10 2 k) 4 vd (groupOuts vd k (act.map fun e => (e, best))) [] 0)

/-- `vrmin`: the minimum (R371). -/
def execVrmin (vd : Nat) (va : VSrc) (s : State) : Out := .next (s.vRmin false vd va)

/-- `vrmax`: the maximum (R371). -/
def execVrmax (vd : Nat) (va : VSrc) (s : State) : Out := .next (s.vRmin true vd va)

/-- An integer reduction: `f` of the active elements of w bits, written to every active element (R372). -/
def State.vIred (s : State) (f : Nat → List Nat → Nat) (vd : Nat) (va : VSrc) : State :=
  let c := s.here
  let x := c.vec
  s.vStart 0 [] [vd, va.reg] [] [] none (some x.wcode) (
    let act := c.active
    let v := f (8 * x.wb) (act.map fun e => c.src x.wb va.dir va.reg e)
    s.vEmit 10 x.wb vd [(vd, act.map fun e => (e, v))] [] 0)

/-- The signed minimum or maximum of w-bit numbers. -/
def bestOf (most : Bool) (w : Nat) (xs : List Nat) : Nat :=
  match xs with
  | [] => 0
  | x :: rest => rest.foldl (fun b v =>
      let d := toSigned w v - toSigned w b
      if (most && decide (0 < d)) || (!most && decide (d < 0)) then v else b) x

/-- `virsum`: the sum modulo 2^w (R372). -/
def execVirsum (vd : Nat) (va : VSrc) (s : State) : Out := .next (s.vIred (fun w xs => xs.foldl (· + ·) 0 % 2 ^ w) vd va)

/-- `virmin`: the signed minimum (R372). -/
def execVirmin (vd : Nat) (va : VSrc) (s : State) : Out := .next (s.vIred (bestOf false) vd va)

/-- `virmax`: the signed maximum (R372). -/
def execVirmax (vd : Nat) (va : VSrc) (s : State) : Out := .next (s.vIred (bestOf true) vd va)

/-- A reduction that writes a guard slot at its landing (R373). -/
def State.vGuard (s : State) (f : List Nat → Bool) (va : VSrc) (slot : Nat) : State :=
  let c := s.here
  let x := c.vec
  s.vStart 0 [] [va.reg] [] [] none (some x.wcode) (
    s.vEmit 10 x.wb 64 [] [.g slot (f (c.active.map fun e => c.src x.wb va.dir va.reg e))] 0)

/-- `vrany`: TRUE if an active element is not zero (R373). -/
def execVrany (va : VSrc) (slot : Nat) (s : State) : Out := .next (s.vGuard (fun xs => xs.any (· ≠ 0)) va slot)

/-- `vrall`: TRUE if no active element is zero (R373). -/
def execVrall (va : VSrc) (slot : Nat) (s : State) : Out := .next (s.vGuard (fun xs => xs.all (· ≠ 0)) va slot)

end Sys2Proof.Machine
end

