-- ==== Sys2Proof/Machine/RegRead.lean ====
section
/-!
DEFINITION. Sys2Proof/Machine/RegRead.lean: the words of its register file that an instruction reads when it issues, or covers in part with
its result (R121, R434; notes/assumptions/98.md).
-/

namespace Sys2Proof.Machine

/-- Register-file words of g registers; g0 is none. -/
def gWords (rs : List Nat) (w : Nat) : Bool := decide (w < 64) && rs.any fun r => r != 0 && w / 2 == r

/-- Register-file words of shape registers, and of their extensions. -/
def dWords (ds : List Nat) (w : Nat) : Bool := decide (64 ≤ w) && decide (w < 320) && ds.contains ((w - 64) / 16)

/-- See `dWords`. -/
def dextWords (ds : List Nat) (w : Nat) : Bool := decide (320 ≤ w) && decide (w < 448) && ds.contains ((w - 320) / 8)

/-- Register-file words of index registers. -/
def kWords (ks : List Nat) (w : Nat) : Bool := ks.any fun r => w == 448 + r

/-- Shape registers that an instruction reads at issue. -/
def dSources (i : Instr) : List Nat :=
  match i with
  | .dget _ dn _ | .dset dn _ _ | .dst _ dn _ _ | .vld _ dn _ _ | .vst dn _ _ _ _ | .vpackCb4 _ _ dn _ _ | .vunpackCb4 _ _ dn _ _ => [dn]
  | i => shapeRegs i

/-- Those of which it reads the extension: a codebook is read (R217, R347). -/
def Ctx.dextSources (c : Ctx) (i : Instr) : List Nat :=
  match i with
  | .vpackCb4 _ _ dn _ _ | .vunpackCb4 _ _ dn _ _ => [dn]
  | i => (shapeRegs i).filter fun d => decide ((descOf (c.readD d)).fmt = 9)

/-- Index registers that a vector instruction reads. -/
def kSources (i : Instr) : List Nat :=
  match i with
  | .csrw _ reg => [reg]
  | .vld _ _ km _ | .vtld _ _ km _ | .vst _ km _ _ _ | .vtst _ km _ _ | .vbce _ _ km | .vbck _ km | .psetK _ km _ => [km]
  | .kadd _ a b | .ksub _ a b | .kmul _ a b | .kand _ a b | .kor _ a b | .kshl _ a b | .kshr _ a b | .kmin _ a b | .kmax _ a b => [a, b]
  | .kaddi _ a _ => [a]
  | _ => []

/-- The vector registers that an instruction names, and whether the first of them is written and not read. -/
def vNames (i : Instr) : List Nat × Bool :=
  (((regFields .v i).filter fun p => p.2 == 64).map Prod.fst,
    match i with
    | .vst .. | .vtst .. | .vpush .. | .vdefer .. | .vscatb .. | .vrany .. | .vrall .. | .vext ..
    | .vfma .. | .vfmaF16 .. | .vfmaBf16 .. | .vimad .. | .vsel .. => false
    | _ => true)

/-- Order of the groups that an instruction reads (R226, R358). -/
def VecSt.readOrd (x : VecSt) (i : Instr) : Nat :=
  match i with
  | .vadd .. | .vsub .. | .vmul .. | .vfma .. | .vdiv .. | .vmin .. | .vmax .. | .vrcp .. | .vsqrt .. | .vrsqrt .. | .vexp2 .. | .vlog2 ..
  | .vsin .. | .vcos .. | .vtanh .. | .vsigm .. | .vneg .. | .vabs .. | .vrsum .. | .vrmin .. | .vrmax .. | .jdiff .. | .vdefer .. | .vscatb ..
    => x.ord
  | .vsel .. | .vmov .. | .vtrn .. | .vbce .. => x.moveOrd
  | .vpackCb4 .. | .vunpackCb4 .. => 0
  | .vunpack _ _ _ _ fmt => if 3 ≤ fmt then 1 else 0
  | _ => 0

/-- Bytes of n elements packed in a format of code f. -/
def packedBytes (f n : Nat) : Nat := if f = 7 ∨ f = 10 then n else (n + 1) / 2

/-- Vector registers that an instruction reads with the bytes it reads of each. -/
def VecSt.sources (x : VecSt) (i : Instr) : List (Nat × Nat) :=
  let (vs, first) := vNames i
  let bytes := match i with
    | .vcvt _ _ _ _ conv => x.count * widthBytes (convWidths conv).1
    | .vunpack _ _ _ _ fmt => packedBytes (7 + fmt) x.count
    | .vunpackCb4 .. => packedBytes 9 x.count
    | .vscatb _ => 4 * x.scatter.length
    | _ => x.count * x.wb
  let rs := (if first then vs.drop 1 else vs).flatMap fun r => groupOf r (x.readOrd i)
  (match i with
    | .jget _ va n => [va.reg + n]
    | .vdefer .. => x.dsel :: rs
    | _ => rs).map fun r => (r, bytes)

/-- Bytes from 0 on that an instruction writes of each of its destination registers, where these may end inside a word. -/
def Ctx.destBytes (c : Ctx) (i : Instr) : List (Nat × Nat) :=
  let x := c.vec
  let n := c.active.length
  match i, vNames i with
  | .vpack vd _ _ _ fmt, _ =>
    (vd, packedBytes (7 + fmt) x.count) :: if 3 ≤ fmt then [(vd + 1, (x.count + 31) / 32)] else []
  | .vpackCb4 vd .., _ => [(vd, packedBytes 9 x.count)]
  | .vcvt vd _ _ _ conv, _ => [(vd, n * widthBytes (convWidths conv).2)]
  | .vpop vd _, _ => [(vd, x.count * x.wb)]
  | _, (vd :: _, true) => (groupOf vd (x.readOrd i)).map fun r => (r, n * x.wb)
  | _, (vd :: _, false) => (match i with
    | .vfmaF16 .. | .vfmaBf16 .. | .vimad .. | .vsel .. => (groupOf vd (x.readOrd i)).map fun r => (r, n * x.wb)
    | _ => [])
  | _, _ => []

/-- The words of its register file that an instruction of a stream reads when it issues, or covers in part; those that a pending result
is still to write are not yet read. -/
def Ctx.readsWord (c : Ctx) (st : Strm) (is : List Instr) (w : Nat) : Bool :=
  is.any fun i =>
    match st with
    | .c =>
      (gWords (gSources i) w && c.gReady [w / 2]) || (dWords ((dSources i).filter c.dReady) w) || dextWords ((c.dextSources i).filter c.dReady) w
    | .v =>
      let (pv, pk, _) := if c.vec.exposed then ([], [], []) else c.vec.pending
      dWords (dSources i) w || dextWords (c.dextSources i) w || kWords ((kSources i).filter fun r => !pk.contains r) w ||
        ((c.vec.sources i).any fun s => !pv.contains s.1 && vecWords s.1 s.2 w) ||
        ((c.destBytes i).any fun d => !pv.contains d.1 && d.2 % 4 != 0 && w == 496 + 512 * d.1 + d.2 / 4)
    | _ => dWords (dSources i) w || dextWords (c.dextSources i) w

end Sys2Proof.Machine
end

