-- ==== Sys2Proof/Machine/Turn.lean ====
section
/-!
DEFINITION. Sys2Proof/Machine/Turn.lean: a stream's turn up to the instruction that it issues: what happens of itself, what stops it
from issuing (R136, R143, R160, R181, R239, R242, R250), what stands at its boundary (R278, R279, R284 to R289, R297), and the discard of a
guarded instruction.
-/

namespace Sys2Proof.Machine

/-! ### What happens of itself -/

/-- Before a stream issues: a record that waits at its front is written (R437), what can retire does (R143), its engine goes on with its
queue (R146), vector results whose slot has come land (R160), and what can retire then does. -/
def State.prepare (s : State) (k : Nat) (st : Strm) : State :=
  let s := (s.reportAside k st).upCtx k fun c => c.retire st
  let s := match st with
    | .c => s
    | .v => (s.landNow k).1.sendWords k
    | .m | .y =>
      let s := s.upCtx k fun c => c.purge st
      if (s.strm k st).stopReq || s.engineFor k st then s.pump k st else s
  s.upCtx k fun c => c.retire st

/-! ### Delivery (R183, R242) -/

/-- Whether a record is to be delivered before the control stream goes on: any while HMODE = 0, one of its own while HMODE = 1; with
HVEC.EN = 0 it ends the grid point (R242, R244). -/
def Ctx.recordDue (c : Ctx) : Bool :=
  c.firstFault.isSome && !(c.hvec.getLsbD 63 && c.hmode && !c.sc.faulted)

/-- Whether the control stream stands inside an instruction: a spill, fill or `jt` that has begun. -/
def StreamSt.inside (x : StreamSt) : Bool :=
  decide (x.mpos ≠ 0) || x.cq.any fun a => match a.sink with | .jump _ => true | _ => false

/-- Whether a context's records can be delivered now. To its handler that is at an instruction boundary, when R183 holds for the control
stream and for every stream that a record has stopped; the end of the grid point waits for nothing (R183, R242, R244). -/
def State.deliverable (s : State) (k : Nat) : Bool :=
  let c := s.ctx k
  !c.hvec.getLsbD 63 || c.hmode ||
    ((c.sc.faulted || !c.sc.inside) && allStrms.all fun st => (decide (st ≠ .c) && !(c.frec.get (strmIx st) {}).valid) || s.left183 k st)

/-- `FAULT_DELIVERY`: at the control stream's boundary the context's faults go to its handler, or end the instance (R242, R244). -/
def execFaultDelivery (ctx : Nat) (s : State) : Out :=
  .next (if (s.ctx ctx).live && !(s.ctx ctx).sc.stopReq && s.deliverable ctx then s.deliver ctx else s)

/-! ### What stops a stream from issuing -/

/-- Whether a stream of a context is started, and nothing has stopped it. -/
def State.goes (s : State) (k : Nat) (st : Strm) : Bool :=
  let x := s.strm k st
  (s.ctx k).live && s.isLive (dieOf k) && !s.draining (dieOf k) && decide (x.stat = .run) && !x.stopReq && !x.saved

/-- Whether a retirement waits on a full FIFO (R143, point 3). -/
def Ctx.pushStalls (c : Ctx) (st : Strm) : Bool :=
  match (c.strm st).rob with
  | r :: _ => r.done && decide (r.err = 0) && (pushTokens c.tok (pushKeys st r.push)).isNone
  | [] => false

/-- Whether a stream may issue: no fault of its own, nothing behind a read that faulted (R437), no record to be delivered first (R254), its
engine serves the context (R136), a `wait` is over (R300), the slot of sealed mode is open to a control core (R60), no vector result that
is due lacks its value (R160), and no retirement in exposed mode waits on a full FIFO (R143). -/
def State.mayIssue (s : State) (k : Nat) (st : Strm) : Bool :=
  let x := s.strm k st
  let c := s.ctx k
  !x.faulted && (x.rob.all fun r => decide (r.err = 0)) && !c.mustDeliver && s.engineFor k st &&
    match st with
    | .c => decide (x.waitN ≤ (s.cycle (dieOf k)).toNat) && s.slotOpen (dieOf k) c.vf
    | .v => c.vec.due.isNone && !(c.vec.exposed && c.pushStalls .v)
    | _ => decide (x.waitN ≤ (s.cycle (dieOf k)).toNat)

/-- The stream with its instruction named as the one that executes. -/
def State.naming (s : State) (k : Nat) (st : Strm) (next : Nat) : State := { s with cur := ⟨k, st, (s.strm k st).pc, next⟩ }

/-- Whether the prefix of the boundary may pass its points there: in the matrix and copy streams only when those of every queued instruction
have (R143: points are passed in program order). -/
def Ctx.mayGate (c : Ctx) (st : Strm) : Bool :=
  match st with
  | .m | .y => (c.strm st).pfx.isNone || (c.queue st).all QEntry.ready
  | _ => true

/-! ### What stands at the boundary -/

/-- What stands at a stream's boundary: a prefix to take up, an instruction at its place, a fault or trap, before the guard (R286, R288) or
behind it (R143) and with the end of the instruction where that is known, or a fetch that waits. -/
inductive Front where
  | take (i : Instr) (next : Nat)
  | word (i : Instr) (next : Nat)
  | stop (f : FaultRec) (guarded : Bool) (next : Option Nat)
  | miss (va : Nat)
  | wait (line : Nat)
deriving DecidableEq, Repr

/-- A fetch that failed: its fault is reported when the instruction would issue (R279). -/
def Front.ofFetch (va : Nat) (e : Fetched) (guarded : Bool) (next : Option Nat) : Front :=
  match fetchFailed va e with
  | .miss v => .miss v
  | .wait l => .wait l
  | .bad f => .stop f guarded next
  | _ => .miss va

/-- The word at an address with the bytes it takes. -/
def State.fetchWord (s : State) (k : Nat) (st : Strm) (va : Nat) : Except (Nat × Fetched) (List Byte) :=
  match s.wordLen k st va with
  | .error e => .error e
  | .ok n => s.fetchHalves k va n

/-- Whether bytes are a word of the sync prefix's major, and of the repeat prefix's (Tables 13-7, 13-8). -/
def isSyncWord (bs : List Byte) : Bool := decide (leNat bs % 32 = 4)

/-- See `isSyncWord`. -/
def isRptWord (bs : List Byte) : Bool := decide (leNat bs % 64 = 5)

/-- End of the instruction whose words from `va` on have not been taken up, with a sync prefix and a repeat prefix before its own word only
where they may still stand (R278). -/
def State.instrEnd (s : State) (k : Nat) (st : Strm) (va : Nat) (sync rpt : Bool) : Except (Nat × Fetched) Nat :=
  match s.fetchWord k st va with
  | .error e => .error e
  | .ok bs =>
    let e := va + bs.length
    if sync && isSyncWord bs then
      (match s.fetchWord k st e with
        | .error e => .error e
        | .ok cs =>
          if isRptWord cs then (match s.fetchWord k st (e + 4) with
            | .error e => .error e
            | .ok ds => .ok (e + 4 + ds.length))
          else .ok (e + cs.length))
    else if rpt && isRptWord bs then
      (match s.fetchWord k st e with
        | .error e => .error e
        | .ok cs => .ok (e + cs.length))
    else .ok e

/-- End of the instruction at a stream's boundary. -/
def State.boundaryEnd (s : State) (k : Nat) (st : Strm) : Except (Nat × Fetched) Nat :=
  let x := s.strm k st
  s.instrEnd k st x.fp (x.pfx.isNone && x.rpt.isNone) x.rpt.isNone

/-- An illegal instruction of which every word can be fetched; else the fetch comes first (R297). -/
def State.illegalFront (s : State) (k : Nat) (st : Strm) (guarded : Bool) : Front :=
  match s.boundaryEnd k st with
  | .ok e => .stop { cause := cILLEGAL } guarded (some e)
  | .error (va, e) => .ofFetch va e guarded none

/-- What stands at a stream's boundary. A malformed prefix word and a combination of R288 trap before any guard; a word at a wrong place,
another reserved word and a failed fetch do behind it (R143, R279, R284, R286, R288). -/
def State.front (s : State) (k : Nat) (st : Strm) : Front :=
  let x := s.strm k st
  match s.standsAt k st x.fp with
  | .miss va => .miss va
  | .wait l => .wait l
  | .bad f => .stop f true (match s.fetchHalves k x.fp 1, s.wordLen k st x.fp with
    | .ok b, .ok n => if isRptWord b then none else some (x.fp + 2 * n)
    | _, _ => none)
  | .reserved _ =>
    match s.fetchWord k st x.fp with
    | .ok bs =>
      if isSyncWord bs || (isRptWord bs && x.rpt.isSome) then s.illegalFront k st false else s.illegalFront k st true
    | .error (va, e) => .ofFetch va e true none
  | .instr i next =>
    if x.clashes i then .stop { cause := cILLEGAL } false none
    else if x.misplaced (isHeader i) x.fp next then s.illegalFront k st true
    else match i with
      | .syncPrefix push wset gen _ _ => if push = 0 ∧ wset = 0 ∧ !gen then s.illegalFront k st false else .take i next
      | .rpt _ _ mask _ => if mask = 0 then s.illegalFront k st true else .take i next
      | _ => .word i next

/-! ### Faults and discards at the boundary -/

/-- The fault of what stands at the boundary; a failed fetch has been logged, and a fill that failed is asked for again (R49, R124). -/
def State.frontFault (s : State) (k : Nat) (st : Strm) (f : FaultRec) : State :=
  let t := (s.naming k st (s.strm k st).fp).fault f
  if decide (f.cause = cDATAERR) && (t.strm k st).faulted then
    ((if f.err = 1 then t.dvNoteOnce (dieOf k) (t.codeLocs k [f.fva, f.fva + 1]) else t)).dropBadFill k
  else t

/-- What takes a trap or fault when it would issue; discarded, it takes none if its end is known (R143, R279, R284, R296;
notes/assumptions/81.md). -/
def State.offends (s : State) (k : Nat) (st : Strm) (next : Option Nat) (f : FaultRec) : State :=
  if !(s.ctx k).mayGate st then s
  else match s.gate k st, next with
    | (s, none), _ => s
    | (s, some true), some e => s.discardTo k st e
    | (s, _), _ => s.frontFault k st f

/-- The code bytes from an address of a stream on have been read (R121, R123, R124). -/
def State.codeRead (s : State) (k : Nat) (va stop : Nat) : State :=
  if (s.ord.dvCheck.get (dieOf k) []).isEmpty then s
  else s.dvNoteOnce (dieOf k) (s.codeLocs k ((List.range (stop - va)).map (va + ·)))

/-- Whether the guard of an instruction is decided in its engine's queue: a repeat mask that does not fit is met at the boundary. -/
def StreamSt.carries (x : StreamSt) (st : Strm) (i : Instr) : Bool :=
  queued st i && match x.rpt with | some r => maskFits st r.mask i | none => true

/-- `INSTRUCTION_DISCARD`: the guarded instruction at a stream's boundary, or the first undecided entry of an engine's queue, is
discarded when its slot has resolved against its sense (R143). -/
def execInstructionDiscard (ctx : Nat) (st : Strm) (s : State) : Out :=
  .next (match ((s.ctx ctx).queue st).find? (fun q => !q.ready), st with
    | some q, .m | some q, .y =>
      if (((s.ctx ctx).ahead st q.id).all fun e => e.done || e.entered) && !(s.strm ctx st).faulted && !(s.strm ctx st).stopReq
      then s.decideEntry ctx st q else s
    | _, _ =>
      let t := s.prepare ctx st
      let next := match t.front ctx st with
        | .word i next => if (t.strm ctx st).carries st i then none else some next
        | .stop _ true next => next
        | _ => none
      if !t.goes ctx st || !t.mayIssue ctx st || (decide (st = .c) && (t.ctx ctx).recordDue) || (t.strm ctx st).pfx.isNone
        || !(t.ctx ctx).mayGate st then s
      else match next, t.gate ctx st with
        | some e, (t, some true) => (t.codeRead ctx (t.strm ctx st).fp e).discardTo ctx st e
        | _, _ => s)

/-! ### The instruction that issues -/

/-- The repeat prefix with k sampled at the first iteration's issue: the order of the vector stream, 0 elsewhere (R235, R287). -/
def State.sampleK (s : State) (k : Nat) (st : Strm) : State :=
  s.upStrm k st fun x => { x with rpt := x.rpt.map fun r =>
    if r.k.isSome then r else { r with k := some (if st = .v then (s.ctx k).vec.ord else 0) } }

/-- Ordering classes in which an instruction of the control stream issues accesses or fences: every one for a release or an acquire. -/
def orderMask (i : Instr) : Nat :=
  match i with
  | .ld _ _ _ _ _ cls | .st _ _ _ _ _ cls | .wadd _ _ _ cls | .cread _ _ _ cls | .spill _ _ _ _ cls | .fill _ _ _ cls | .pf _ _ cls
  | .dld _ _ cls | .dst _ _ _ cls => 2 ^ cls
  | .amoadd _ _ _ _ form cls | .amoand _ _ _ _ form cls | .amoor _ _ _ _ form cls | .amoxor _ _ _ _ form cls
  | .amomin _ _ _ _ form cls | .amomax _ _ _ _ form cls | .amoswp _ _ _ _ form cls | .cas _ _ _ _ form cls =>
    if form = 0 then 2 ^ cls else 65535
  | .ldAcq .. | .stRel .. | .tsig _ => 65535
  | .fence _ mask => mask
  | .jt .. => 1
  | _ => 0

/-- Whether an instruction must not issue yet: behind a fence or an acquire that is still in its queues, which may yet take a precise fault,
none issues that they order (R181, R201; notes/assumptions/100.md). -/
def StreamSt.fenced (x : StreamSt) (i : Instr) : Bool := x.cq.any fun a => decide (a.covers &&& orderMask i ≠ 0)

/-- The iterations of an instruction that are read when it issues: for one that enters a queue, every one (R151). -/
def StreamSt.readBy (x : StreamSt) (st : Strm) (i : Instr) : List Instr :=
  match x.rpt with
  | some r => if queued st i then (List.range r.n).filterMap fun j => iteration st { r with iter := j } i else [i]
  | none => [i]

/-- The executing instruction reads its registers through their code: an uncorrectable word is a data error with ERR 1 (R121, R434). -/
def State.readsRegs (s : State) (i : Instr) : State × Bool :=
  if s.here.regCheck.isEmpty then (s, true)
  else match s.readRegs s.cur.ctx (s.here.readsWord s.cur.st (s.me.readBy s.cur.st i)) with
    | (s, []) => (s, true)
    | (s, w :: _) =>
      let t := s.fault { cause := cDATAERR, err := 1 }
      (if t.me.faulted then t.logEcc (dieOf s.cur.ctx) 1 w true else t, false)

/-- The instruction of the present iteration, past its prefixes: an illegal instruction where the repeat prefix does not fit it or passes
a range (R287), a wait behind a fence that orders it (R181) and where a 33rd pending vector result would arise (R250), and a data error
where a register that it reads is uncorrectable (R121). -/
def State.issuing (s : State) (k : Nat) (st : Strm) (i : Instr) (next : Nat) : State × Option Instr :=
  let s := (s.naming k st next).sampleK k st
  let i' := match (s.strm k st).rpt with
    | none => some i
    | some r => if queued st i then some i else if maskFits st r.mask i then iteration st r i else none
  match i' with
  | none => (s.illegal, none)
  | some i' =>
    if (decide (st = .v) && makesResult i' && (s.ctx k).vec.full) || (decide (st = .c) && (s.strm k st).fenced i') then (s, none)
    else match s.readsRegs i' with
      | (s, true) => (s, some i')
      | (s, false) => (s, none)

/-- The boundary's prefix passes its wait point: an engine instruction takes its tokens before it issues into its queue (R143). -/
def State.await (s : State) (k : Nat) (st : Strm) : State :=
  match (s.strm k st).pfx with
  | none => s
  | some p =>
    let (c, p) := (s.ctx k).waitPfx st p
    (s.setCtx k c).upStrm k st fun x => { x with pfx := some p }

/-- Whether the boundary's prefix has passed its wait point. -/
def StreamSt.hasTokens (x : StreamSt) : Bool := match x.pfx with | some p => p.taken | none => true

/-- An instruction at its place passes its prefix, and issues (R143). A `wait` does not wait for queued instructions (R300). -/
def State.meets (s : State) (k : Nat) (st : Strm) (i : Instr) (next : Nat) : State × Option Instr :=
  let x := s.strm k st
  if x.carries st i then
    let s := s.await k st
    if (s.strm k st).hasTokens then s.issuing k st i next else (s, none)
  else if !(s.ctx k).mayGate st && (match i with | .wait _ => false | _ => true) then (s, none)
  else match s.gate k st with
    | (s, none) => (s, none)
    | (s, some true) => (s.discardTo k st next, none)
    | (s, some false) =>
      if queued st i then ((s.naming k st next).illegal, none) else s.issuing k st i next

/-- The instruction at the boundary retires as if discarded, as `eret` with Skip asks (R243); one whose end cannot be fetched faults
again (notes/assumptions/81.md). -/
def State.skipOver (s : State) (k : Nat) (st : Strm) : State :=
  match s.boundaryEnd k st, s.front k st with
  | .ok e, _ => s.discardTo k st e
  | _, .stop _ _ (some e) => s.discardTo k st e
  | _, .stop f _ none => s.frontFault k st f
  | _, .miss va => s.queueMiss k 3 va
  | _, .wait line => s.waitFill k (dieOf k) line (s.ctx k).vf
  | .error (va, e), _ => match fetchFailed va e with
    | .miss v => s.queueMiss k 3 v
    | .wait line => s.waitFill k (dieOf k) line (s.ctx k).vf
    | .bad f => s.frontFault k st f
    | _ => s

/-- Looks at the boundary of a stream that may issue: the instruction to execute with the state it executes in, or what else happens. -/
def State.lookAt (s : State) (k : Nat) (st : Strm) : State × Option Instr :=
  if (s.strm k st).discard then (s.skipOver k st, none)
  else match s.front k st with
    | .miss va => (s.queueMiss k 3 va, none)
    | .wait line => (s.waitFill k (dieOf k) line (s.ctx k).vf, none)
    | .stop f true next => (s.offends k st next f, none)
    | .stop f false _ => (s.frontFault k st f, none)
    | .take i next => ((s.codeRead k (s.strm k st).fp next).naming k st next, some i)
    | .word i next => (s.codeRead k (s.strm k st).fp next).meets k st i next

/-- A stream's turn, up to the execution of the instruction that issues, if one does. A record that is due is delivered at the control
stream's boundary first; until it can be, the control stream only ends the instruction it is inside (R183, R242). -/
def State.turnOf (s : State) (k : Nat) (st : Strm) : State × Option Instr :=
  let s := s.prepare k st
  if !s.goes k st then (s, none)
  else if decide (st = .c) && (s.ctx k).recordDue && s.deliverable k then (s.deliver k, none)
  else if decide (st = .c) && (s.ctx k).recordDue && !(s.strm k st).inside then (s, none)
  else if !s.mayIssue k st then (s, none)
  else s.lookAt k st

end Sys2Proof.Machine
end

