-- ==== Sys2Proof/Machine/VectorMem.lean ====
section
/-!
DEFINITION. Sys2Proof/Machine/VectorMem.lean: tensors and tiles (R376 to R378), queues (R379), and deferral (R383 to R386).
-/

namespace Sys2Proof.Machine

/-! ### Tensor elements (R376) -/

/-- Address of the element that active element e names: none beyond an extent. -/
def Desc.elemAddr (d : Desc) (km : Half) (x : VecSt) (e : Nat) : Option Nat :=
  let q := km.toNat % 65536 + e / x.nc
  let i := km.toNat / 65536 + e % x.nc
  if q < d.rows ∧ i ≤ d.e0 then some (d.rowAddr q + rowOff d.fmt i) else none

/-- Fault of a vector access to a tensor in the order SHAPE, DESC, ALIGN (R358, R376). -/
def Desc.vecFault (d : Desc) (x : VecSt) (addrs : List (Option Nat)) : Option FaultRec :=
  if 1 ≤ d.fmt ∧ d.fmt ≤ 6 ∧ elemBytes d.fmt ≠ x.wb then some { cause := cSHAPE }
  else if d.fmt < 1 ∨ 6 < d.fmt ∨ d.bad ∨ addrs.contains none then some { cause := cDESC }
  else match (addrs.filterMap id).find? (fun a => a % x.wb ≠ 0) with
    | some a => some { cause := cALIGN, fva := a }
    | none => none

/-- Groups (location, byte) pairs into one part per line, by ascending line (R168). -/
def lineParts (bs : List (Nat × Byte)) : List Part :=
  (sortBy id ((bs.map fun b => b.1 / 64).eraseDups)).map fun l => ⟨l, bs.filter fun b => b.1 / 64 == l⟩

/-- The bytes of an element at an address. -/
def elemVas (wb a : Nat) : List Nat := (List.range wb).map (a + ·)

/-- A vector load issues: its result waits for the access, which stands in the class queue (R160, R376), and for room as a landing record. -/
def State.vLoad (s : State) (lat vd cls va err : Nat) (kind : AccKind) (elems : List (Nat × List Nat)) : State :=
  let x := s.here.vec
  let id := s.ord.nextId
  let k := s.cur.ctx
  let l : Landing :=
    { tag := id, slot := if x.exposed then some (x.slot + lat) else none, ready := false, writes := [], flags := 0, elems := elems,
      wb := x.wb, vd := vd, pc := s.cur.pc, rob := id, err := 0 }
  let a := newAccess id cls kind (lineParts ((elems.flatMap Prod.snd).map fun n => (n, 0))) (.land id) va s.cur.pc err s.clock
  s.vRoom 1 (((s.upHere fun c => { c with vec := { c.vec with landing := c.vec.landing ++ [l] } }).contribute k id none).issueAccs [a])

/-- `vld`: active elements of a tensor at rows and columns from kM on (R376). -/
def execVld (vd dn km cls : Nat) (s : State) : Out :=
  let c := s.here
  let x := c.vec
  let d := descOf (c.readD dn)
  let act := c.active
  let addrs := act.map (d.elemAddr (c.readK km) x)
  .next (s.vStart 0 [] [vd] [km] [] none (some x.wcode) (
    match d.vecFault x addrs with
    | some f => s.fault f
    | none =>
      let as_ := addrs.filterMap id
      match s.chkBytes s.cur.ctx 0 (as_.flatMap (elemVas x.wb)) with
      | .miss v => s.queueMiss s.cur.ctx 0 v
      | .bad t l v => s.fault { cause := cXLATE, tkind := t, level := l, fva := v }
      | .ok locs e => s.vLoad 24 vd cls (as_.headD 0) e .read (act.zip (chunks act.length x.wb locs))))

/-- A row of a `vst`: its elements with their values after the bounds, and whether one was out of bounds. -/
structure VstRow where
  row : Nat
  elems : List (Nat × Nat × Nat)
  oob : Bool

/-- Rows of a `vst` from row `j0` on that hold active elements: (element, address, value). -/
def Ctx.vstRows (c : Ctx) (d : Desc) (km : Half) (va j0 : Nat) : List VstRow :=
  let x := c.vec
  ((List.range x.nr).filter (j0 ≤ ·)).map fun r =>
    let es := (c.active.filter fun e => e / x.nc == r).map fun e =>
      let b := d.bound d.fmt (c.src x.wb 0 va e)
      ((e, (d.elemAddr km x e).getD 0, b.1), b.2)
    ⟨r, es.map Prod.fst, es.any Prod.snd⟩

/-- Issues the stores of rows of a `vst`, at an instruction that goes on behind it or stays at the boundary; held in class 2. -/
def State.vstIssue (s : State) (rows : List VstRow) (d : Desc) (glob : Bool) (cls : Nat) (last : Bool) (stay : State → State) : State :=
  let k := s.cur.ctx
  let x := s.here.vec
  let es := rows.flatMap fun r => r.elems
  let vas := es.flatMap fun e => elemVas x.wb e.2.1
  match s.chkBytes k 1 vas with
  | .miss v => s.queueMiss k 1 v
  | .bad t l v => s.fault { cause := cXLATE, tkind := t, level := l, fva := v }
  | .ok locs e =>
    let id := s.ord.nextId
    let data := locs.zip (es.flatMap fun e => bytesOf e.2.2 x.wb)
    let a := newAccess id cls (if glob then .global else .early) (lineParts data) .none (vas.headD 0) s.cur.pc e s.clock
    let nrec := ((vas.map (· / 32)).eraseDups).length
    let flag := fun (s : State) =>
      if rows.any (fun r => r.oob) && (d.bact == 1 || d.bact == 2) then s.upHere fun c => { c with vec := c.vec.setBnd } else s
    let sign := fun (s : State) => s.contribute k id (some (es.map fun e => (e.1, e.2.2)))
    if s.here.team.pclass = 2 then
      if s.holdStalls k .v then s
      else
        let s := ((sign (flag s)).hold k .v (.store a a.va) nrec).freshId
        if last then s.finish else stay s
    else
      let r : Rob := { id := id, done := false, push := 0, pc := s.cur.pc, err := 0, eff := [] }
      if last then (sign (flag s)).issueAccs [a]
      else stay (((flag s).pushAccs k .v [a]).freshId.upStrm k .v fun x => { x with rob := x.rob ++ [r] })

/-- `vst`: active elements of va to a tensor, each under its bounds; a bound fault stands at the first row that holds an element out of
bounds, with the rows before it stored (R377, R126). -/
def execVst (dn km va : Nat) (glob : Bool) (cls : Nat) (s : State) : Out :=
  let c := s.here
  let x := c.vec
  let d := descOf (c.readD dn)
  let addrs := c.active.map (d.elemAddr (c.readK km) x)
  let j0 := s.me.mpos
  .next (s.vStart 0 [] [va] [km] [] none (some x.wcode) (
    match d.vecFault x addrs with
    | some f => s.fault f
    | none =>
      let rows := c.vstRows d (c.readK km) va j0
      match (if d.bact = 3 then rows.find? (fun r => r.oob) else none) with
      | none => s.vstIssue rows d glob cls true id
      | some b =>
        if (rows.takeWhile fun r => !r.oob).all fun r => r.elems.isEmpty then s.fault { cause := cBOUND, cpos := b.row, spos := b.row }
        else s.vstIssue (rows.takeWhile fun r => !r.oob) d glob cls false fun s => s.upStrm s.cur.ctx .v fun x => { x with mpos := b.row }))

/-! ### Tiles (R378) -/

/-- Row and byte offset of the tile element that element e names. -/
def tileElem (km : Half) (x : VecSt) (e : Nat) : Nat × Nat :=
  (km.toNat % 65536 + e / x.nc, km.toNat / 65536 + e % x.nc * x.wb)

/-- Fault of a vector access to a tile: ALIGN before TILE (R358, R378, R154). -/
def State.vecTileFault (s : State) (h : Nat) (km : Half) (act : List Nat) : Option FaultRec :=
  let x := s.here.vec
  let es := act.map (tileElem km x)
  match es with
  | [] => none
  | e0 :: _ =>
    if es.any fun p => decide (p.2 % x.wb ≠ 0) then some { cause := cALIGN, fva := h + e0.1 % 2 ^ 24 * 256 }
    else match s.tileOf s.cur.ctx h with
      | none => some (tileFault 0 h e0.1)
      | some t => (es.find? fun p => decide (t.rows ≤ p.1) || decide (t.rb < p.2 + x.wb)).map fun p => tileFault 0 h p.1

/-- `vtld`: active elements of tile rows; the words are read in class N and land at 8 slots (R378). -/
def execVtld (vd h km cls : Nat) (s : State) : Out :=
  let c := s.here
  let x := c.vec
  let act := c.active
  .next (s.vStart 0 [] [vd] [km] [] none (some x.wcode) (
    match s.vecTileFault h (c.readK km) act with
    | some f => s.fault f
    | none =>
      let rb := match s.tileOf s.cur.ctx h with | some t => t.rb | none => 0
      s.vLoad 8 vd cls h 0 (.tile h) (act.map fun e =>
        let p := tileElem (c.readK km) x e
        (e, elemVas x.wb (p.1 * rb + p.2)))))

/-- `vtst`: active elements of va to tile rows; never held (R378). -/
def execVtst (h km va cls : Nat) (s : State) : Out :=
  let c := s.here
  let x := c.vec
  let act := c.active
  .next (s.vStart 0 [] [va] [km] [] none (some x.wcode) (
    match s.vecTileFault h (c.readK km) act with
    | some f => s.fault f
    | none =>
      if !s.me.classIdle cls then s
      else
        let vals := act.map fun e => (e, c.src x.wb 0 va e)
        let s := vals.foldl (fun s ev =>
          let p := tileElem (c.readK km) x ev.1
          let (s, ok) := s.tileWrite s.cur.ctx .v h p.1 p.2 (bytesOf ev.2 x.wb)
          if ok then s else s.upStrm s.cur.ctx .v fun x => { x with werr := x.werr ++ [⟨cls, 1, 0⟩] }) s
        (s.contribute s.cur.ctx s.ord.nextId (some vals)).finish))

/-! ### Queues (R379, R159) -/

/-- `vpush`: the bytes of va under the shape as one entry of result queue q (R379). -/
def execVpush (va qn : Nat) (s : State) : Out :=
  let c := s.here
  let key := 2 * kindOf .v + qn
  let n := c.vec.count * c.vec.wb
  .next (if c.vHeld [va] [] [] then s
    else if !(c.dvb.get key 0).getLsbD 63 then s.faultC cSTREAM
    else if Config.queueDepth ≤ (c.rq.get key []).length then s
    else (s.upHere fun c => { c with rq := c.rq.set key (c.rq.get key [] ++
      [⟨n, BitVec.ofNat 16384 ((c.readV va).toNat % 2 ^ (8 * n))⟩]) }).finish)

/-- `vpop`: the head entry of operand queue q into vd; SHAPE for another length, and the entry stays (R379). -/
def execVpop (vd qn : Nat) (s : State) : Out :=
  let c := s.here
  let x := c.vec
  let key := 2 * kindOf .v + qn
  .next (if c.vHeld [vd] [] [] then s
    else match c.oq.get key [] with
      | [] => s
      | it :: rest =>
        if it.len ≠ x.count * x.wb then s.faultC cSHAPE
        else s.vRoom 1 ((s.upHere fun c => { c with oq := c.oq.set key rest }).vEmit 4 x.wb vd
          [(vd, (List.range x.count).map fun e => (e, elemOf x.wb it.data e))] [] 0))

/-! ### Deferral (R383 to R386) -/

/-- `vdefer`: appends one entry per active element whose condition is not zero; STREAM beyond 1,024 entries (R384). -/
def execVdefer (va tag : Nat) (s : State) : Out :=
  let c := s.here
  let x := c.vec
  let k := x.ord
  .next (s.vStart k [va] [x.dsel] [] [] (some 2) (some 2) (
    let es := (c.active.filter fun e => c.src 4 0 x.dsel e ≠ 0).map fun e =>
      Defer.mk e va tag ((c.jet 0 va k e).map (BitVec.ofNat 32))
    if 1024 < x.defer.length + es.length then s.faultC cSTREAM
    else (s.upHere fun c => { c with vec := { c.vec with defer := c.vec.defer ++ es } }).finish))

/-- `vdrain`: pops the leading entries of one tag into a dense group and sets the predicate and the scatter list (R385, R236). -/
def execVdrain (vd pn : Nat) (s : State) : Out :=
  let c := s.here
  let x := c.vec
  let k := x.ord
  let tag := match x.defer with | d :: _ => d.tag | [] => 0
  let es := (x.defer.takeWhile fun d => d.tag == tag).take (Nat.min x.count 512)
  .next (s.vStart k [vd] [] [] [pn] (some 2) none (
    let outs := groupOuts vd k (((List.range es.length).zip es).map fun p => (p.1, p.2.words.map BitVec.toNat))
    s.vRoom (outs.length + 2) ((s.upHere fun c => { c with vec := { c.vec with defer := c.vec.defer.drop es.length } }).vEmit 8 4 vd outs
      [.p pn es.length 2, .scatter (es.map fun d => (d.b, d.e, d.words.length))] 0)))

/-- `vscatb`: element i of each coefficient goes to the position that entry i of the scatter list names; they enter the vector word in the
order of writing (R386). One that writes more than 32 registers waits for ever in exposed mode (R250; DEDUCED, notes/assumptions/99.md). -/
def execVscatb (va : Nat) (s : State) : Out :=
  let c := s.here
  let x := c.vec
  let k := x.ord
  let ps := ((List.range x.scatter.length).zip x.scatter).flatMap fun (p : Nat × Nat × Nat × Nat) =>
    ((List.range (k + 1)).filter fun j => decide (p.2.1 + j ≤ 63)).map fun j => (p.2.1 + j, p.2.2.1, elemOf 4 (c.readV (va + j)) p.1)
  let regs := (ps.map Prod.fst).eraseDups
  let listHeld := !x.exposed && x.landing.any fun l => l.writes.any fun w => match w with | .scatter _ => true | _ => false
  .next (if listHeld then s
    else s.vStart k [va] regs [] [] (some 2) none (
      let id := s.ord.nextId
      let ls := x.records id s.cur.pc 8 4 64 0 (regs.map fun r =>
        let m := packV 4 ((ps.filter fun p => p.1 == r).map Prod.snd)
        VWrite.v r m.1 m.2)
      s.vRoom ls.length (
        let s := s.upHere fun c => { c with vec := { c.vec with landing := c.vec.landing ++ ls } }
        (s.contribute s.cur.ctx id (some (ps.map Prod.snd))).freshId.issued id (x.exposed || ls.isEmpty))))

end Sys2Proof.Machine
end

