-- ==== Sys2Proof/Machine/Dispatch.lean ====
section
/-!
DEFINITION. Sys2Proof/Machine/Dispatch.lean: one arm per instruction, each a direct call of its meaning.
-/

namespace Sys2Proof.Machine

/-- The meaning of every instruction and event, by name. -/
def exec (i : Instr) (s : State) : Host.Outcome State Fault Refusal :=
  match i with
  | .blk cnt len => Sys2Proof.Machine.execBlk cnt len s
  | .wait n => Sys2Proof.Machine.execWait n s
  | .endS => Sys2Proof.Machine.execEndS s
  | .brk imm => Sys2Proof.Machine.execBrk imm s
  | .eret => Sys2Proof.Machine.execEret s
  | .halt => Sys2Proof.Machine.execHalt s
  | .rdv => Sys2Proof.Machine.execRdv s
  | .ret => Sys2Proof.Machine.execRet s
  | .svc imm => Sys2Proof.Machine.execSvc imm s
  | .syncPrefix push wset gen slot sense => Sys2Proof.Machine.execSyncPrefix push wset gen slot sense s
  | .br off => Sys2Proof.Machine.execBr off s
  | .bg slot sense off => Sys2Proof.Machine.execBg slot sense off s
  | .rpt g step mask n => Sys2Proof.Machine.execRpt g step mask n s
  | .csrr reg csr => Sys2Proof.Machine.execCsrr reg csr s
  | .csrw csr reg => Sys2Proof.Machine.execCsrw csr reg s
  | .csrwi csr imm => Sys2Proof.Machine.execCsrwi csr imm s
  | .sigc => Sys2Proof.Machine.execSigc s
  | .dstc ga gb gc => Sys2Proof.Machine.execDstc ga gb gc s
  | .dstcSram ga gb gc => Sys2Proof.Machine.execDstcSram ga gb gc s
  | .gsetImm slot val => Sys2Proof.Machine.execGsetImm slot val s
  | .gclr slot => Sys2Proof.Machine.execGclr slot s
  | .mov gd ga => Sys2Proof.Machine.execMov gd ga s
  | .add gd ga gb => Sys2Proof.Machine.execAdd gd ga gb s
  | .sub gd ga gb => Sys2Proof.Machine.execSub gd ga gb s
  | .and gd ga gb => Sys2Proof.Machine.execAnd gd ga gb s
  | .or gd ga gb => Sys2Proof.Machine.execOr gd ga gb s
  | .xor gd ga gb => Sys2Proof.Machine.execXor gd ga gb s
  | .shl gd ga gb => Sys2Proof.Machine.execShl gd ga gb s
  | .shr gd ga gb => Sys2Proof.Machine.execShr gd ga gb s
  | .sar gd ga gb => Sys2Proof.Machine.execSar gd ga gb s
  | .mul gd ga gb => Sys2Proof.Machine.execMul gd ga gb s
  | .mulh gd ga gb => Sys2Proof.Machine.execMulh gd ga gb s
  | .mulhu gd ga gb => Sys2Proof.Machine.execMulhu gd ga gb s
  | .div gd ga gb => Sys2Proof.Machine.execDiv gd ga gb s
  | .divu gd ga gb => Sys2Proof.Machine.execDivu gd ga gb s
  | .rem gd ga gb => Sys2Proof.Machine.execRem gd ga gb s
  | .remu gd ga gb => Sys2Proof.Machine.execRemu gd ga gb s
  | .min gd ga gb => Sys2Proof.Machine.execMin gd ga gb s
  | .max gd ga gb => Sys2Proof.Machine.execMax gd ga gb s
  | .minu gd ga gb => Sys2Proof.Machine.execMinu gd ga gb s
  | .maxu gd ga gb => Sys2Proof.Machine.execMaxu gd ga gb s
  | .slt gd ga gb => Sys2Proof.Machine.execSlt gd ga gb s
  | .sltu gd ga gb => Sys2Proof.Machine.execSltu gd ga gb s
  | .seq gd ga gb => Sys2Proof.Machine.execSeq gd ga gb s
  | .sne gd ga gb => Sys2Proof.Machine.execSne gd ga gb s
  | .sel gd ga gb => Sys2Proof.Machine.execSel gd ga gb s
  | .addi gd ga imm => Sys2Proof.Machine.execAddi gd ga imm s
  | .slti gd ga imm => Sys2Proof.Machine.execSlti gd ga imm s
  | .andi gd ga imm => Sys2Proof.Machine.execAndi gd ga imm s
  | .ori gd ga imm => Sys2Proof.Machine.execOri gd ga imm s
  | .xori gd ga imm => Sys2Proof.Machine.execXori gd ga imm s
  | .shli gd ga n => Sys2Proof.Machine.execShli gd ga n s
  | .shri gd ga n => Sys2Proof.Machine.execShri gd ga n s
  | .sari gd ga n => Sys2Proof.Machine.execSari gd ga n s
  | .li gd imm hw => Sys2Proof.Machine.execLi gd imm hw s
  | .lik gd imm hw => Sys2Proof.Machine.execLik gd imm hw s
  | .ld gd gb off sx lsz cls => Sys2Proof.Machine.execLd gd gb off sx lsz cls s
  | .st gb gs off glob lsz cls => Sys2Proof.Machine.execSt gb gs off glob lsz cls s
  | .ldAcq gd gb scope sx lsz cls => Sys2Proof.Machine.execLdAcq gd gb scope sx lsz cls s
  | .stRel gb gs scope glob lsz cls => Sys2Proof.Machine.execStRel gb gs scope glob lsz cls s
  | .amoadd gd gb gs scope form cls => Sys2Proof.Machine.execAmoadd gd gb gs scope form cls s
  | .amoand gd gb gs scope form cls => Sys2Proof.Machine.execAmoand gd gb gs scope form cls s
  | .amoor gd gb gs scope form cls => Sys2Proof.Machine.execAmoor gd gb gs scope form cls s
  | .amoxor gd gb gs scope form cls => Sys2Proof.Machine.execAmoxor gd gb gs scope form cls s
  | .amomin gd gb gs scope form cls => Sys2Proof.Machine.execAmomin gd gb gs scope form cls s
  | .amomax gd gb gs scope form cls => Sys2Proof.Machine.execAmomax gd gb gs scope form cls s
  | .amoswp gd gb gs scope form cls => Sys2Proof.Machine.execAmoswp gd gb gs scope form cls s
  | .cas gd gb gs scope form cls => Sys2Proof.Machine.execCas gd gb gs scope form cls s
  | .wadd gb gs f64 cls => Sys2Proof.Machine.execWadd gb gs f64 cls s
  | .cread gd gb f64 cls => Sys2Proof.Machine.execCread gd gb f64 cls s
  | .fence scope mask => Sys2Proof.Machine.execFence scope mask s
  | .spill gf gb n glob cls => Sys2Proof.Machine.execSpill gf gb n glob cls s
  | .fill gf gb n cls => Sys2Proof.Machine.execFill gf gb n cls s
  | .pf gb off cls => Sys2Proof.Machine.execPf gb off cls s
  | .bz ga off => Sys2Proof.Machine.execBz ga off s
  | .bnz ga off => Sys2Proof.Machine.execBnz ga off s
  | .call off => Sys2Proof.Machine.execCall off s
  | .jt ga gb n => Sys2Proof.Machine.execJt ga gb n s
  | .fork set om ov oy => Sys2Proof.Machine.execFork set om ov oy s
  | .talloc h ga gb => Sys2Proof.Machine.execTalloc h ga gb s
  | .tfree h => Sys2Proof.Machine.execTfree h s
  | .dld dn gr cls => Sys2Proof.Machine.execDld dn gr cls s
  | .dset dn gr field => Sys2Proof.Machine.execDset dn gr field s
  | .dget gr dn field => Sys2Proof.Machine.execDget gr dn field s
  | .dst gr dn glob cls => Sys2Proof.Machine.execDst gr dn glob cls s
  | .gsetReg ga slot => Sys2Proof.Machine.execGsetReg ga slot s
  | .qdepth gd qn oper kind => Sys2Proof.Machine.execQdepth gd qn oper kind s
  | .tsig ga => Sys2Proof.Machine.execTsig ga s
  | .mzero acc pair => Sys2Proof.Machine.execMzero acc pair s
  | .astc acc => Sys2Proof.Machine.execAstc acc s
  | .mma acc da db z cls => Sys2Proof.Machine.execMma acc da db z cls s
  | .mmaRange acc da db os oc z cls => Sys2Proof.Machine.execMmaRange acc da db os oc z cls s
  | .mdrain dn acc ro rnd glob cls => Sys2Proof.Machine.execMdrain dn acc ro rnd glob cls s
  | .mdraint h acc ro rnd fmt cls => Sys2Proof.Machine.execMdraint h acc ro rnd fmt cls s
  | .mld acc h ro cls => Sys2Proof.Machine.execMld acc h ro cls s
  | .wq acc dq dw os cls => Sys2Proof.Machine.execWq acc dq dw os cls s
  | .oadd od oa ob => Sys2Proof.Machine.execOadd od oa ob s
  | .osub od oa ob => Sys2Proof.Machine.execOsub od oa ob s
  | .omul od oa ob => Sys2Proof.Machine.execOmul od oa ob s
  | .oand od oa ob => Sys2Proof.Machine.execOand od oa ob s
  | .oshl od oa ob => Sys2Proof.Machine.execOshl od oa ob s
  | .oshr od oa ob => Sys2Proof.Machine.execOshr od oa ob s
  | .omin od oa ob => Sys2Proof.Machine.execOmin od oa ob s
  | .omax od oa ob => Sys2Proof.Machine.execOmax od oa ob s
  | .oaddi od oa imm => Sys2Proof.Machine.execOaddi od oa imm s
  | .oli od imm => Sys2Proof.Machine.execOli od imm s
  | .qpop h pr qn => Sys2Proof.Machine.execQpop h pr qn s
  | .qpush h pr qn => Sys2Proof.Machine.execQpush h pr qn s
  | .barm ro bar => Sys2Proof.Machine.execBarm ro bar s
  | .bwait bar => Sys2Proof.Machine.execBwait bar s
  | .cpyTensorTile h dn pr cnt bar cls => Sys2Proof.Machine.execCpyTensorTile h dn pr cnt bar cls s
  | .cpyTileTensor dn h pr glob cnt bar cls => Sys2Proof.Machine.execCpyTileTensor dn h pr glob cnt bar cls s
  | .cpyTensorTensor dd ds pr glob cnt bar cls => Sys2Proof.Machine.execCpyTensorTensor dd ds pr glob cnt bar cls s
  | .cpyTileTile hd hs pr cls => Sys2Proof.Machine.execCpyTileTile hd hs pr cls s
  | .cpys dd ds pr dg cls => Sys2Proof.Machine.execCpys dd ds pr dg cls s
  | .cpf dn pr cls => Sys2Proof.Machine.execCpf dn pr cls s
  | .wld dw ds pr cls => Sys2Proof.Machine.execWld dw ds pr cls s
  | .rput dd ds pr cnt bar cls => Sys2Proof.Machine.execRput dd ds pr cnt bar cls s
  | .rget dd ds pr cnt bar cls => Sys2Proof.Machine.execRget dd ds pr cnt bar cls s
  | .vmode exposed => Sys2Proof.Machine.execVmode exposed s
  | .vadd vd va vb => Sys2Proof.Machine.execVadd vd va vb s
  | .vsub vd va vb => Sys2Proof.Machine.execVsub vd va vb s
  | .vmul vd va vb => Sys2Proof.Machine.execVmul vd va vb s
  | .vfma vd va vb => Sys2Proof.Machine.execVfma vd va vb s
  | .vdiv vd va vb => Sys2Proof.Machine.execVdiv vd va vb s
  | .vmin vd va vb => Sys2Proof.Machine.execVmin vd va vb s
  | .vmax vd va vb => Sys2Proof.Machine.execVmax vd va vb s
  | .vrcp vd va => Sys2Proof.Machine.execVrcp vd va s
  | .vsqrt vd va => Sys2Proof.Machine.execVsqrt vd va s
  | .vrsqrt vd va => Sys2Proof.Machine.execVrsqrt vd va s
  | .vexp2 vd va => Sys2Proof.Machine.execVexp2 vd va s
  | .vlog2 vd va => Sys2Proof.Machine.execVlog2 vd va s
  | .vsin vd va => Sys2Proof.Machine.execVsin vd va s
  | .vcos vd va => Sys2Proof.Machine.execVcos vd va s
  | .vtanh vd va => Sys2Proof.Machine.execVtanh vd va s
  | .vsigm vd va => Sys2Proof.Machine.execVsigm vd va s
  | .vneg vd va => Sys2Proof.Machine.execVneg vd va s
  | .vabs vd va => Sys2Proof.Machine.execVabs vd va s
  | .vaddF16 vd va vb => Sys2Proof.Machine.execVaddF16 vd va vb s
  | .vsubF16 vd va vb => Sys2Proof.Machine.execVsubF16 vd va vb s
  | .vmulF16 vd va vb => Sys2Proof.Machine.execVmulF16 vd va vb s
  | .vfmaF16 vd va vb => Sys2Proof.Machine.execVfmaF16 vd va vb s
  | .vminF16 vd va vb => Sys2Proof.Machine.execVminF16 vd va vb s
  | .vmaxF16 vd va vb => Sys2Proof.Machine.execVmaxF16 vd va vb s
  | .vaddBf16 vd va vb => Sys2Proof.Machine.execVaddBf16 vd va vb s
  | .vsubBf16 vd va vb => Sys2Proof.Machine.execVsubBf16 vd va vb s
  | .vmulBf16 vd va vb => Sys2Proof.Machine.execVmulBf16 vd va vb s
  | .vfmaBf16 vd va vb => Sys2Proof.Machine.execVfmaBf16 vd va vb s
  | .vminBf16 vd va vb => Sys2Proof.Machine.execVminBf16 vd va vb s
  | .vmaxBf16 vd va vb => Sys2Proof.Machine.execVmaxBf16 vd va vb s
  | .viadd vd va vb => Sys2Proof.Machine.execViadd vd va vb s
  | .visub vd va vb => Sys2Proof.Machine.execVisub vd va vb s
  | .vimul vd va vb => Sys2Proof.Machine.execVimul vd va vb s
  | .vimad vd va vb => Sys2Proof.Machine.execVimad vd va vb s
  | .vand vd va vb => Sys2Proof.Machine.execVand vd va vb s
  | .vor vd va vb => Sys2Proof.Machine.execVor vd va vb s
  | .vxor vd va vb => Sys2Proof.Machine.execVxor vd va vb s
  | .vshl vd va vb => Sys2Proof.Machine.execVshl vd va vb s
  | .vshr vd va vb => Sys2Proof.Machine.execVshr vd va vb s
  | .vsar vd va vb => Sys2Proof.Machine.execVsar vd va vb s
  | .vimin vd va vb => Sys2Proof.Machine.execVimin vd va vb s
  | .vimax vd va vb => Sys2Proof.Machine.execVimax vd va vb s
  | .viadds vd va vb => Sys2Proof.Machine.execViadds vd va vb s
  | .visubs vd va vb => Sys2Proof.Machine.execVisubs vd va vb s
  | .vimulh vd va vb => Sys2Proof.Machine.execVimulh vd va vb s
  | .vineg vd va => Sys2Proof.Machine.execVineg vd va s
  | .vnot vd va => Sys2Proof.Machine.execVnot vd va s
  | .viabs vd va => Sys2Proof.Machine.execViabs vd va s
  | .vfeq vd va vb => Sys2Proof.Machine.execVfeq vd va vb s
  | .vfne vd va vb => Sys2Proof.Machine.execVfne vd va vb s
  | .vflt vd va vb => Sys2Proof.Machine.execVflt vd va vb s
  | .vfle vd va vb => Sys2Proof.Machine.execVfle vd va vb s
  | .vfslt vd va vb => Sys2Proof.Machine.execVfslt vd va vb s
  | .vfsle vd va vb => Sys2Proof.Machine.execVfsle vd va vb s
  | .vfun vd va vb => Sys2Proof.Machine.execVfun vd va vb s
  | .vieq vd va vb => Sys2Proof.Machine.execVieq vd va vb s
  | .vilt vd va vb => Sys2Proof.Machine.execVilt vd va vb s
  | .vile vd va vb => Sys2Proof.Machine.execVile vd va vb s
  | .viltu vd va vb => Sys2Proof.Machine.execViltu vd va vb s
  | .vileu vd va vb => Sys2Proof.Machine.execVileu vd va vb s
  | .vsel vd va vb => Sys2Proof.Machine.execVsel vd va vb s
  | .vcvt vd va rv rnd conv => Sys2Proof.Machine.execVcvt vd va rv rnd conv s
  | .vpack vd va rv rnd fmt => Sys2Proof.Machine.execVpack vd va rv rnd fmt s
  | .vpackCb4 vd va dn rv rnd => Sys2Proof.Machine.execVpackCb4 vd va dn rv rnd s
  | .vunpack vd va rv rnd fmt => Sys2Proof.Machine.execVunpack vd va rv rnd fmt s
  | .vunpackCb4 vd va dn rv rnd => Sys2Proof.Machine.execVunpackCb4 vd va dn rv rnd s
  | .vrsum vd va => Sys2Proof.Machine.execVrsum vd va s
  | .vrmin vd va => Sys2Proof.Machine.execVrmin vd va s
  | .vrmax vd va => Sys2Proof.Machine.execVrmax vd va s
  | .virsum vd va => Sys2Proof.Machine.execVirsum vd va s
  | .virmin vd va => Sys2Proof.Machine.execVirmin vd va s
  | .virmax vd va => Sys2Proof.Machine.execVirmax vd va s
  | .vrany va slot => Sys2Proof.Machine.execVrany va slot s
  | .vrall va slot => Sys2Proof.Machine.execVrall va slot s
  | .vmov vd va => Sys2Proof.Machine.execVmov vd va s
  | .vtrn vd va => Sys2Proof.Machine.execVtrn vd va s
  | .vbce vd va km => Sys2Proof.Machine.execVbce vd va km s
  | .vbck vd km => Sys2Proof.Machine.execVbck vd km s
  | .vext km va => Sys2Proof.Machine.execVext km va s
  | .jseed vd va => Sys2Proof.Machine.execJseed vd va s
  | .jconst vd va => Sys2Proof.Machine.execJconst vd va s
  | .jget vd va n => Sys2Proof.Machine.execJget vd va n s
  | .jput vd va n => Sys2Proof.Machine.execJput vd va n s
  | .jdiff vd va => Sys2Proof.Machine.execJdiff vd va s
  | .vld vd dn km cls => Sys2Proof.Machine.execVld vd dn km cls s
  | .vst dn km va glob cls => Sys2Proof.Machine.execVst dn km va glob cls s
  | .vtld vd h km cls => Sys2Proof.Machine.execVtld vd h km cls s
  | .vtst h km va cls => Sys2Proof.Machine.execVtst h km va cls s
  | .vpop vd qn => Sys2Proof.Machine.execVpop vd qn s
  | .vpush va qn => Sys2Proof.Machine.execVpush va qn s
  | .vshape rows cols w => Sys2Proof.Machine.execVshape rows cols w s
  | .psetImm pn count w => Sys2Proof.Machine.execPsetImm pn count w s
  | .psetK pn km w => Sys2Proof.Machine.execPsetK pn km w s
  | .kadd kd ka kb => Sys2Proof.Machine.execKadd kd ka kb s
  | .ksub kd ka kb => Sys2Proof.Machine.execKsub kd ka kb s
  | .kmul kd ka kb => Sys2Proof.Machine.execKmul kd ka kb s
  | .kand kd ka kb => Sys2Proof.Machine.execKand kd ka kb s
  | .kor kd ka kb => Sys2Proof.Machine.execKor kd ka kb s
  | .kshl kd ka kb => Sys2Proof.Machine.execKshl kd ka kb s
  | .kshr kd ka kb => Sys2Proof.Machine.execKshr kd ka kb s
  | .kmin kd ka kb => Sys2Proof.Machine.execKmin kd ka kb s
  | .kmax kd ka kb => Sys2Proof.Machine.execKmax kd ka kb s
  | .kaddi kd ka imm => Sys2Proof.Machine.execKaddi kd ka imm s
  | .vdefer va tag => Sys2Proof.Machine.execVdefer va tag s
  | .vdrain vd pn => Sys2Proof.Machine.execVdrain vd pn s
  | .vscatb va => Sys2Proof.Machine.execVscatb va s
  | .moduleColdReset => Sys2Proof.Machine.execModuleColdReset s
  | .converterFault dom => Sys2Proof.Machine.execConverterFault dom s
  | .railInjection die col south strip => Sys2Proof.Machine.execRailInjection die col south strip s
  | .railBeatArrival die col south strip => Sys2Proof.Machine.execRailBeatArrival die col south strip s
  | .routerPowerGate die strip col => Sys2Proof.Machine.execRouterPowerGate die strip col s
  | .routerWake die strip col => Sys2Proof.Machine.execRouterWake die strip col s
  | .railTelemetrySample vals => Sys2Proof.Machine.execRailTelemetrySample vals s
  | .coolantWrite v => Sys2Proof.Machine.execCoolantWrite v s
  | .powerControlInterval watts => Sys2Proof.Machine.execPowerControlInterval watts s
  | .dieMarkedUnavailable die => Sys2Proof.Machine.execDieMarkedUnavailable die s
  | .dieUnavailableClear die => Sys2Proof.Machine.execDieUnavailableClear die s
  | .connectorMeasurement idx metric => Sys2Proof.Machine.execConnectorMeasurement idx metric s
  | .evtClear idx => Sys2Proof.Machine.execEvtClear idx s
  | .registerWrite fn off v => Sys2Proof.Machine.execRegisterWrite fn off v s
  | .expertClear fn => Sys2Proof.Machine.execExpertClear fn s
  | .homeTableWrite slot v => Sys2Proof.Machine.execHomeTableWrite slot v s
  | .ffmapWrite m w v => Sys2Proof.Machine.execFfmapWrite m w v s
  | .ownershipWrite idx v => Sys2Proof.Machine.execOwnershipWrite idx v s
  | .pctlWrite vf word v => Sys2Proof.Machine.execPctlWrite vf word v s
  | .wwinWrite vf word v => Sys2Proof.Machine.execWwinWrite vf word v s
  | .queueEnable vf q v => Sys2Proof.Machine.execQueueEnable vf q v s
  | .queueDrain vf q v => Sys2Proof.Machine.execQueueDrain vf q v s
  | .queueAbort vf q v => Sys2Proof.Machine.execQueueAbort vf q v s
  | .pidxWrite vf q v => Sys2Proof.Machine.execPidxWrite vf q v s
  | .cardFetch => Sys2Proof.Machine.execCardFetch s
  | .cardFetchDone => Sys2Proof.Machine.execCardFetchDone s
  | .cardFetchFault => Sys2Proof.Machine.execCardFetchFault s
  | .cheadWrite vf q v => Sys2Proof.Machine.execCheadWrite vf q v s
  | .missSignal m => Sys2Proof.Machine.execMissSignal m s
  | .admissionRateRise m => Sys2Proof.Machine.execAdmissionRateRise m s
  | .translationWalkDone die => Sys2Proof.Machine.execTranslationWalkDone die s
  | .tlbinvPage ctx => Sys2Proof.Machine.execTlbinvPage ctx s
  | .tlbinvAsid ctx => Sys2Proof.Machine.execTlbinvAsid ctx s
  | .tlbinvPartition ctx => Sys2Proof.Machine.execTlbinvPartition ctx s
  | .tlbinvDone ctx => Sys2Proof.Machine.execTlbinvDone ctx s
  | .counterHalving m => Sys2Proof.Machine.execCounterHalving m s
  | .migrationStart m => Sys2Proof.Machine.execMigrationStart m s
  | .migrationCopyDone m => Sys2Proof.Machine.execMigrationCopyDone m s
  | .migrationAcksComplete m => Sys2Proof.Machine.execMigrationAcksComplete m s
  | .firstTouchBind => Sys2Proof.Machine.execFirstTouchBind s
  | .pullFetch => Sys2Proof.Machine.execPullFetch s
  | .pullFetchDone bytes => Sys2Proof.Machine.execPullFetchDone bytes s
  | .pullFailed => Sys2Proof.Machine.execPullFailed s
  | .escapeChannelSwitch kind idx => Sys2Proof.Machine.execEscapeChannelSwitch kind idx s
  | .drstGo die => Sys2Proof.Machine.execDrstGo die s
  | .quiesceStart => Sys2Proof.Machine.execQuiesceStart s
  | .quiesceDrainDone => Sys2Proof.Machine.execQuiesceDrainDone s
  | .drainTimeout ups dns => Sys2Proof.Machine.execDrainTimeout ups dns s
  | .drstJoin die => Sys2Proof.Machine.execDrstJoin die s
  | .linkFailure a b ups dns => Sys2Proof.Machine.execLinkFailure a b ups dns s
  | .kMessage die line => Sys2Proof.Machine.execKMessage die line s
  | .krMessage die line => Sys2Proof.Machine.execKrMessage die line s
  | .errorCompletion die line => Sys2Proof.Machine.execErrorCompletion die line s
  | .earlyStoreError die line => Sys2Proof.Machine.execEarlyStoreError die line s
  | .schedulerStep => Sys2Proof.Machine.execSchedulerStep s
  | .budgetExhausted inst => Sys2Proof.Machine.execBudgetExhausted inst s
  | .poolSliceEnd core kind => Sys2Proof.Machine.execPoolSliceEnd core kind s
  | .saveAreaRetry => Sys2Proof.Machine.execSaveAreaRetry s
  | .streamSave ctx st => Sys2Proof.Machine.execStreamSave ctx st s
  | .deadlock ctx => Sys2Proof.Machine.execDeadlock ctx s
  | .epochRelease key => Sys2Proof.Machine.execEpochRelease key s
  | .epochFree key => Sys2Proof.Machine.execEpochFree key s
  | .dieRetire die => Sys2Proof.Machine.execDieRetire die s
  | .dieReturnToService die => Sys2Proof.Machine.execDieReturnToService die s
  | .scoreWrite die v => Sys2Proof.Machine.execScoreWrite die v s
  | .registerFileScrub ctx word => Sys2Proof.Machine.execRegisterFileScrub ctx word s
  | .sramScrub w => Sys2Proof.Machine.execSramScrub w s
  | .hbmSweep m row => Sys2Proof.Machine.execHbmSweep m row s
  | .historyRowVisit m => Sys2Proof.Machine.execHistoryRowVisit m s
  | .eccWriteback => Sys2Proof.Machine.execEccWriteback s
  | .checkpoint vf => Sys2Proof.Machine.execCheckpoint vf s
  | .restore vf => Sys2Proof.Machine.execRestore vf s
  | .firmwareLoad => Sys2Proof.Machine.execFirmwareLoad s
  | .dieCheck die src => Sys2Proof.Machine.execDieCheck die src s
  | .moduleCheck die src => Sys2Proof.Machine.execModuleCheck die src s
  | .mcstatClear => Sys2Proof.Machine.execMcstatClear s
  | .dovetailBind ctx reg => Sys2Proof.Machine.execDovetailBind ctx reg s
  | .dovetailDelivery ctx reg => Sys2Proof.Machine.execDovetailDelivery ctx reg s
  | .dovetailArrival idx => Sys2Proof.Machine.execDovetailArrival idx s
  | .instructionDiscard ctx st => Sys2Proof.Machine.execInstructionDiscard ctx st s
  | .resultLanding ctx => Sys2Proof.Machine.execResultLanding ctx s
  | .faultDelivery ctx => Sys2Proof.Machine.execFaultDelivery ctx s
  | .kStepCommit ctx => Sys2Proof.Machine.execKStepCommit ctx s
  | .copyByteCommit ctx => Sys2Proof.Machine.execCopyByteCommit ctx s
  | .s2Read ctx st cls => Sys2Proof.Machine.execS2Read ctx st cls s
  | .s2aFill ctx st cls => Sys2Proof.Machine.execS2aFill ctx st cls s
  | .s3EarlyStore ctx st cls => Sys2Proof.Machine.execS3EarlyStore ctx st cls s
  | .s4GlobalSend ctx st cls => Sys2Proof.Machine.execS4GlobalSend ctx st cls s
  | .s5GlobalDone die line => Sys2Proof.Machine.execS5GlobalDone die line s
  | .s6Fence ctx st cls => Sys2Proof.Machine.execS6Fence ctx st cls s
  | .globalAckTimeout ctx st cls => Sys2Proof.Machine.execGlobalAckTimeout ctx st cls s
  | .h1PlaceEarly die line => Sys2Proof.Machine.execH1PlaceEarly die line s
  | .h2Propagate line id => Sys2Proof.Machine.execH2Propagate line id s
  | .h3Hold die line => Sys2Proof.Machine.execH3Hold die line s
  | .h4Perform line => Sys2Proof.Machine.execH4Perform line s
  | .h5ServeFill die line => Sys2Proof.Machine.execH5ServeFill die line s
  | .v1Update die line => Sys2Proof.Machine.execV1Update die line s
  | .v2Confirm die line => Sys2Proof.Machine.execV2Confirm die line s
  | .v3Invalidate die line => Sys2Proof.Machine.execV3Invalidate die line s
  | .v4FillReply die line => Sys2Proof.Machine.execV4FillReply die line s
  | .v5Propagated die line => Sys2Proof.Machine.execV5Propagated die line s
  | .homeTableWriteComplete => Sys2Proof.Machine.execHomeTableWriteComplete s
  | .linkRejoin a b => Sys2Proof.Machine.execLinkRejoin a b s
  | .sealedSlotStart die => Sys2Proof.Machine.execSealedSlotStart die s
  | .farEndAcknowledgement ctx id => Sys2Proof.Machine.execFarEndAcknowledgement ctx id s
  | .weightDieQueryResult ctx => Sys2Proof.Machine.execWeightDieQueryResult ctx s
  | .interlockedCompletion ctx => Sys2Proof.Machine.execInterlockedCompletion ctx s

end Sys2Proof.Machine
end

