-- ==== Sys2Proof/Machine/Run.lean ====
section
/-!
DEFINITION. Sys2Proof/Machine/Run.lean: the turn of a stream, and the rotation of a control core among its contexts (R135).
-/

namespace Sys2Proof.Machine

/-- Whether the instruction that executes issues: its stream is not as before. -/
def State.issues? (s : State) (i : Instr) : Bool :=
  match exec i s with
  | .next t => decide (t.strm s.cur.ctx s.cur.st ≠ s.me)
  | _ => false

/-- Whether the control stream of a context has an instruction that can issue (R135). -/
def State.issuable (s : State) (k : Nat) : Bool :=
  match s.turnOf k .c with
  | (s, some i) => s.issues? i
  | (_, none) => false

/-- Contexts of a control core that its rotation reaches before context `k`: those behind the one that issued last (R135). -/
def State.sooner (s : State) (k : Nat) : List Nat :=
  let last := s.rot.get (k / 4) 3
  (((List.range 4).map fun j => (last + 1 + j) % 4).takeWhile fun j => j != k % 4).map fun j => k / 4 * 4 + j

/-- A stream's turn. The control core issues from the first context in rotation that has an issuable instruction (R135). -/
def State.runStream (s : State) (k : Nat) (st : Strm) : Host.Outcome State Fault Refusal :=
  match s.turnOf k st with
  | (s, none) => .next s
  | (s, some i) =>
    if st ≠ .c then exec i s
    else if (s.sooner k).any s.issuable then .next s
    else exec i (if s.issues? i then { s with rot := s.rot.set (k / 4) (k % 4) } else s)

end Sys2Proof.Machine
end

