-- ==== Sys2Proof/Machine/Menu.lean ====
section
/-!
DEFINITION. Sys2Proof/Machine/Menu.lean: what can come next of itself, in one list: the order in which the module acts when no plan is
given goes round this list (DESIGN CHOICE, notes/assumptions/1.md). An entry whose conditions do not hold changes nothing.
-/

namespace Sys2Proof.Machine

/-- What can come next of itself: a stream's turn, or an event that needs nothing from outside, with the meaning `exec` gives it. -/
inductive Auto where
  | run (k : Nat) (st : Strm)
  | s2Read (k : Nat) (st : Strm) (cls : Nat)
  | s2aFill (k : Nat) (st : Strm) (cls : Nat)
  | s3EarlyStore (k : Nat) (st : Strm) (cls : Nat)
  | s4GlobalSend (k : Nat) (st : Strm) (cls : Nat)
  | s6Fence (k : Nat) (st : Strm) (cls : Nat)
  | globalAckTimeout (k : Nat) (st : Strm) (cls : Nat)
  | h1PlaceEarly (die line : Nat)
  | h2Propagate (line id : Nat)
  | h3Hold (die line : Nat)
  | h4Perform (line : Nat)
  | h5ServeFill (die line : Nat)
  | kMessage (die line : Nat)
  | v1Update (die line : Nat)
  | v2Confirm (die line : Nat)
  | v3Invalidate (die line : Nat)
  | v4FillReply (die line : Nat)
  | v5Propagated (die line : Nat)
  | s5GlobalDone (die line : Nat)
  | krMessage (die line : Nat)
  | errorCompletion (die line : Nat)
  | earlyStoreError (die line : Nat)
  | kStepCommit (k : Nat)
  | copyByteCommit (k : Nat)
  | weightDieQueryResult (k : Nat)
  | interlockedCompletion (k : Nat)
  | tlbinv (k : Nat)
  | tlbinvDone (k : Nat)
  | deadlock (k : Nat)
  | dovetailBind (k reg : Nat)
  | dovetailDelivery (k reg : Nat)
  | dovetailArrival (idx : Nat)
  | streamSave (k : Nat) (st : Strm)
  | translationWalkDone (die : Nat)
  | counterHalving (m : Nat)
  | migrationStart (m : Nat)
  | migrationCopyDone (m : Nat)
  | migrationAcksComplete (m : Nat)
  | missSignal (m : Nat)
  | admissionRateRise (m : Nat)
  | homeTableWriteComplete
  | firstTouchBind (slot : Nat)
  | pullFetch
  | eccWriteback
  | cardFetch
  | cardFetchDone
  | schedulerStep
  | saveAreaRetry
  | quiesceStart
  | quiesceDrainDone
  | budgetExhausted (inst : Nat)
  | epochRelease (key : Nat)
  | epochFree (key : Nat)
  | railInjection (die col : Nat) (south : Bool) (strip : Nat)
  | railBeatArrival (die col : Nat) (south : Bool) (strip : Nat)
deriving DecidableEq, Repr

/-- Contexts that run a grid point. -/
def State.liveCtxs (s : State) : List Nat := ((s.ctxs.filter fun e => e.2.live).map Prod.fst).eraseDups

/-- Class-queue transitions of a stream, for each class with an access in its queue (R170, R176, R180). -/
def State.queueActs (s : State) (k : Nat) (st : Strm) : List Auto :=
  (((s.strm k st).cq.flatMap Access.classes).eraseDups).flatMap fun cls =>
    [.s2Read k st cls, .s2aFill k st cls, .s3EarlyStore k st cls, .s4GlobalSend k st cls, .s6Fence k st cls, .globalAckTimeout k st cls]

/-- What a context does: its streams, their accesses, its engines, dovetails and stops. -/
def State.ctxActs (s : State) (k : Nat) : List Auto :=
  (allStrms.flatMap fun st => .run k st :: s.queueActs k st) ++
  [.kStepCommit k, .copyByteCommit k, .weightDieQueryResult k, .interlockedCompletion k, .tlbinv k, .tlbinvDone k, .deadlock k] ++
  ((List.range 6).flatMap fun r => [.dovetailBind k r, .dovetailDelivery k r]) ++
  (if (s.ctx k).sc.stopReq then allStrms.map fun st => .streamSave k st else [])

/-- What homes do with the messages on the up channels and with held lines (R171, R199). -/
def State.homeActs (s : State) : List Auto :=
  (s.ord.up.flatMap fun u => [.h1PlaceEarly u.die u.line, .h3Hold u.die u.line, .h5ServeFill u.die u.line, .kMessage u.die u.line]) ++
  (s.ord.held.map fun h => .h4Perform h.1) ++
  (s.ord.ua.map fun u => .h2Propagate u.1 u.2.1)

/-- What die views do with the messages on the down channels (R172, R199, R49, R436). -/
def State.viewActs (s : State) : List Auto :=
  s.ord.dn.flatMap fun d =>
    [.v1Update d.die d.line, .v2Confirm d.die d.line, .v3Invalidate d.die d.line, .v4FillReply d.die d.line, .v5Propagated d.die d.line,
     .s5GlobalDone d.die d.line, .krMessage d.die d.line, .errorCompletion d.die d.line, .earlyStoreError d.die d.line]

/-- What memory dies and translation do (02_package_memory.md, R74, R121). -/
def State.memActs (s : State) : List Auto :=
  ((s.mem.missq.filter fun e => !e.2.isEmpty).map fun e => .translationWalkDone e.1) ++
  ((List.range 4).flatMap fun m =>
    [.counterHalving m, .migrationStart m, .migrationCopyDone m, .migrationAcksComplete m, .missSignal m, .admissionRateRise m]) ++
  (((s.ord.up.filter fun u => u.msg.waits && decide (s.homeAt u = .bind)).map fun u => .firstTouchBind u.slot)) ++
  [.homeTableWriteComplete, .pullFetch, .eccWriteback]

/-- What the scheduler, the compare engine, the quiesce sequencer and the rails do (R16, R17, R47, R75, R112, R158). -/
def State.taskActs (s : State) : List Auto :=
  [.cardFetch, .cardFetchDone, .schedulerStep, .saveAreaRetry, .quiesceStart, .quiesceDrainDone] ++
  (s.sched.insts.map fun i => .budgetExhausted i.id) ++
  (s.prot.keys.flatMap fun e => [.epochRelease e.key, .epochFree e.key]) ++
  ((List.range s.fab.transit.length).map fun i => .dovetailArrival i) ++
  (s.fab.railWait.flatMap fun b => [.railInjection b.die b.col b.south b.src]) ++
  (s.fab.beats.flatMap fun b => [.railBeatArrival b.die b.col b.south b.dst])

/-- Everything that can come next of itself. -/
def State.menu (s : State) : List Auto :=
  s.taskActs ++ s.memActs ++ s.homeActs ++ s.viewActs ++ s.liveCtxs.flatMap s.ctxActs

/-- The scope that a context's TLBINV asks for (R39). -/
def State.tlbinvAct (s : State) (k : Nat) : Out :=
  match fld (s.ctx k).tlbinv.toNat 61 2 with
  | 0 => execTlbinvPage k s
  | 1 => execTlbinvAsid k s
  | _ => execTlbinvPartition k s

/-- Does what comes next of itself. -/
def State.auto (s : State) (a : Auto) : Out :=
  match a with
  | .run k st => s.runStream k st
  | .s2Read k st cls => .next (s.readHead k st cls 0)
  | .s2aFill k st cls => execS2aFill k st cls s
  | .s3EarlyStore k st cls => .next (s.storeHead k st cls 0)
  | .s4GlobalSend k st cls => execS4GlobalSend k st cls s
  | .s6Fence k st cls => execS6Fence k st cls s
  | .globalAckTimeout k st cls => execGlobalAckTimeout k st cls s
  | .h1PlaceEarly die line => execH1PlaceEarly die line s
  | .h2Propagate line id => execH2Propagate line id s
  | .h3Hold die line => execH3Hold die line s
  | .h4Perform line => execH4Perform line s
  | .h5ServeFill die line => execH5ServeFill die line s
  | .kMessage die line => execKMessage die line s
  | .v1Update die line => execV1Update die line s
  | .v2Confirm die line => execV2Confirm die line s
  | .v3Invalidate die line => execV3Invalidate die line s
  | .v4FillReply die line => execV4FillReply die line s
  | .v5Propagated die line => execV5Propagated die line s
  | .s5GlobalDone die line => execS5GlobalDone die line s
  | .krMessage die line => execKrMessage die line s
  | .errorCompletion die line => execErrorCompletion die line s
  | .earlyStoreError die line => execEarlyStoreError die line s
  | .kStepCommit k => execKStepCommit k s
  | .copyByteCommit k => execCopyByteCommit k s
  | .weightDieQueryResult k => execWeightDieQueryResult k s
  | .interlockedCompletion k => execInterlockedCompletion k s
  | .tlbinv k => s.tlbinvAct k
  | .tlbinvDone k => execTlbinvDone k s
  | .deadlock k => execDeadlock k s
  | .dovetailBind k reg => execDovetailBind k reg s
  | .dovetailDelivery k reg => execDovetailDelivery k reg s
  | .dovetailArrival idx => execDovetailArrival idx s
  | .streamSave k st => execStreamSave k st s
  | .translationWalkDone die => execTranslationWalkDone die s
  | .counterHalving m => execCounterHalving m s
  | .migrationStart m => execMigrationStart m s
  | .migrationCopyDone m => execMigrationCopyDone m s
  | .migrationAcksComplete m => execMigrationAcksComplete m s
  | .missSignal m => execMissSignal m s
  | .admissionRateRise m => execAdmissionRateRise m s
  | .homeTableWriteComplete => execHomeTableWriteComplete s
  | .firstTouchBind slot => .next (s.bindTouch slot (List.range 16))
  | .pullFetch => execPullFetch s
  | .eccWriteback => execEccWriteback s
  | .cardFetch => execCardFetch s
  | .cardFetchDone => execCardFetchDone s
  | .schedulerStep => execSchedulerStep s
  | .saveAreaRetry => execSaveAreaRetry s
  | .quiesceStart => execQuiesceStart s
  | .quiesceDrainDone => execQuiesceDrainDone s
  | .budgetExhausted inst => execBudgetExhausted inst s
  | .epochRelease key => execEpochRelease key s
  | .epochFree key => execEpochFree key s
  | .railInjection die col south strip => execRailInjection die col south strip s
  | .railBeatArrival die col south strip => execRailBeatArrival die col south strip s

/-- What the world does to the module's circuits (notes/assumptions/98.md). -/
def State.upset (s : State) (u : Upset) : State :=
  match u with
  | .arith h => { s with hits := s.hits ++ [h] }
  | .word w flip => s.flipWord w flip

/-- With no plan, the list of what can happen is gone round (notes/assumptions/1.md). -/
def State.ownAct (s : State) : Auto := s.menu.getD (s.turn % s.menu.length) .schedulerStep

/-- Cycles pass on a die (R30, notes/assumptions/4.md): one at most while something moves in the fabric. -/
def State.pass (s : State) (die n : Nat) : State :=
  { s with cyc := s.cyc.set die (s.cyc.get die 0 + BitVec.ofNat 64 (if s.fab.still then n else Nat.min n 1)) }

/-- Writes of the host that no window takes in recovery: every one but those of FWCTL (R133). -/
def refusedInRecovery (i : Instr) : Bool :=
  match i with
  | .registerWrite .pf off _ => !decide (0x4600 ≤ off ∧ off < 0x4610)
  | .registerWrite (.vf _) _ _ | .coolantWrite _ | .evtClear _ | .expertClear _ | .homeTableWrite .. | .ffmapWrite .. | .ownershipWrite .. => true
  | .pctlWrite .. | .wwinWrite .. | .queueEnable .. | .queueDrain .. | .queueAbort .. | .pidxWrite .. | .cheadWrite .. | .drstGo _ => true
  | .drstJoin _ | .dieRetire _ | .dieReturnToService _ | .scoreWrite .. | .checkpoint _ | .restore _ | .mcstatClear => true
  | _ => false

/-- An event that the plan names; an instruction of a stream is no event, and names nothing. -/
def State.happen (s : State) (i : Instr) : Out :=
  if i.isEvent && !(s.pf.recovery && refusedInRecovery i) then exec i s else .next s

/-! ### A word at the next fetch -/

/-- Where `withFetchWord` puts a word: behind a two-word header at address 0 of partition 0, identifier 0. -/
def fetchPc : Nat := 4

/-- Maps page 0 of identifier 0 of partition 0 for compute die 0, on slot 0, backed by frame 0 of memory die 0. -/
def State.mapPage0 (s : State) : State :=
  let tlb : List TlbEntry := [{ asid := 0, vf := 0, size := 16, vpage := 0, gpa := 0, rd := true, w := true, x := true }]
  let copy := (s.mem.homeCopy.get 0 []).set 0 0x80000000
  { s with
    mem := { s.mem with
      tlb := s.mem.tlb.set 0 (tlb ++ s.mem.tlb.get 0 [])
      homeCopy := s.mem.homeCopy.set 0 copy
      stage2 := s.mem.stage2.set 0 0x80000000 }
    pf := { s.pf with htwin := s.pf.htwin.set 0 { w0 := 0, w1 := 1 } } }

/-- Puts bytes at the start of slot 0, in memory and VALID in the view of compute die 0, from which code is fetched. -/
def State.putCode (s : State) (a : Nat) (bs : List Byte) : State :=
  let s := (s.hbmRaw a bs)
  let words := (List.range (bs.length / 8 + 2)).map (a / 8 + ·)
  let view := ((List.range bs.length).zip bs).foldl (fun (t : AMap DvByte) b => t.set (a + b.1) { valid := true, val := b.2 }) (s.ord.dv.get 0 [])
  { s with
    mem := { s.mem with hbmCheck := words.foldl (fun (t : AMap (BitVec 8)) w => t.del w) s.mem.hbmCheck }
    ord := { s.ord with dv := s.ord.dv.set 0 view } }

/-- Context 0 at a boundary of one stream, inside an open block, or outside for a header. -/
def Ctx.atWord (c : Ctx) (st : Strm) (header : Bool) : Ctx :=
  let bs : List Block := if header then [] else [⟨0, 4095, 1⟩]
  let x : StreamSt := { stat := .run, pc := fetchPc, fp := fetchPc, blocks := bs }
  let c := { c with live := true, vf := 0, team := { c.team with asid := 0 }, frec := [], regCheck := [], mustDeliver := false, vec := { c.vec with landing := [] } }
  (if st = .m ∨ st = .y then (if st = .m then { c with mat := { c.mat with queue := [] } } else { c with cpy := { c.cpy with queue := [] } }) else c).setStrm
    st x

/-- The module with a word of the opcode table at the next fetch: in context 0, in the stream in which the word is read, whose turn comes
next. -/
def State.placeWord (s : State) (nbits w : Nat) : State :=
  let (st, header) := match tableChoice nbits w with
    | some (st, i) => (st, isHeader i)
    | none => (.c, false)
  let s := s.mapPage0.putCode fetchPc (tableBytes nbits w)
  let own := (List.range 3).foldl (fun (t : AMap (BitVec 32)) e => t.set e 0x40000000) s.pf.own
  let pctl := s.pf.pctl.map fun p => (p.1, { p.2 with w0 := p.2.w0 &&& 0xBFFFFFFF })
  { s with
    plan := .run 0 st :: s.plan
    rot := s.rot.set 0 3
    pf := { s.pf with left := s.pf.left.filter (· ≠ 0), own := own, pctl := pctl } }.setCtx 0 ((s.ctx 0).atWord st header)

end Sys2Proof.Machine
end

