-- ==== Sys2Proof/Machine/Step.lean ====
section
/-!
DEFINITION. Sys2Proof/Machine/Step.lean: one step of the module: what the plan names next, or with no plan the next entry of the list of
what can happen, is done (notes/assumptions/1.md).
-/

namespace Sys2Proof.Machine

/-- A cycle passes on every die: in the fabric, and for the contexts that are blocked (R16, R30, R96; notes/assumptions/4.md). -/
def State.cycleOn (s : State) : State := ({ s with now := s.now + 1 } : State).tick.watch

/-- One step: one cycle. With no plan, a scheduler step begins in every fourth cycle of L0 (R75). -/
def step (s : State) : Host.Outcome State Fault Refusal :=
  match s.plan with
  | [] =>
    let s' := s.cycleOn
    if (s'.cycle Config.linkDie).toNat % 4 = 0 then execSchedulerStep s' else ({ s' with turn := s.turn + 1 } : State).auto s.ownAct
  | a :: rest =>
    let s' := ({ s with plan := rest } : State).cycleOn
    match a with
    | .run k st => if 1023 < k then .fault .noSuchContext else s'.runStream k st
    | .ev i pick => ({ s' with pick := pick } : State).happen i
    | .cycles die n => .next (s'.pass die n)
    | .upset u => .next (s'.upset u)

/-- The module with a word of the opcode table at the next fetch (notes/assumptions/5.md). -/
def State.withFetchWord (s : State) (nbits w : Nat) : State := s.placeWord nbits w

end Sys2Proof.Machine
end

