-- ==== Sys2Proof/Machine/Window.lean ====
section
/-!
DEFINITION. Sys2Proof/Machine/Window.lean: what the host reads in the windows of the functions (R52, R53). A read changes nothing.
-/

namespace Sys2Proof.Machine

/-- A 32-bit word of a list of fields: value, low bit. -/
def packWord (fs : List (Nat × Nat)) : BitVec 32 := BitVec.ofNat 32 ((fs.map fun f => f.1 * 2 ^ f.2).foldl (· + ·) 0)

/-- A Bool as a field. -/
def flagNat (b : Bool) : Nat := if b then 1 else 0

/-! ### Capabilities (R53) -/

/-- Capabilities of a function: ID and body word1 (Table 3-3). -/
def capabilities (fn : Fn) : List (Nat × Nat) :=
  match fn with
  | .pf => [(2, 768 + 16 * 2 ^ 16 + 4 * 2 ^ 24), (3, 512 + 7 * 2 ^ 16), (4, 16 + 64 * 2 ^ 8 + 8 * 2 ^ 16), (5, 1), (6, 7), (8, 8 + 2 ^ 4), (9, 1)]
  | .vf _ => [(1, 4 + 16 * 2 ^ 8), (6, 7), (7, 5), (9, 1)]

/-- A word of the capability list: 16-byte entries one behind the other, NEXT 0 in the last (R53, notes/assumptions/32.md). -/
def capWord (fn : Fn) (off : Nat) : BitVec 32 :=
  let cs := capabilities fn
  let n := off / 16
  match cs[n]? with
  | none => 0
  | some c =>
    match off % 16 with
    | 0 => packWord [(if n + 1 < cs.length then 16 * (n + 1) else 0, 16), (1, 8), (c.1, 0)]
    | 4 => BitVec.ofNat 32 c.2
    | _ => 0

/-! ### The management window (Table 3-2) -/

/-- A word of a rail telemetry slot (Table 1-6); a slot that names no rail reads zero (R23). -/
def State.railWord (s : State) (off : Nat) : BitVec 32 :=
  let r := s.pf.rails.get (off / 16) {}
  if !namesRail (off / 16) then 0
  else match off % 16 with
    | 0 => r.vmv
    | 4 => r.ima
    | 8 => r.temp.zeroExtend 32
    | 12 => r.seq
    | _ => 0

/-- DCAP of a die (Table 1-8). -/
def State.dcap (s : State) (die : Nat) : BitVec 32 :=
  let p := s.pf.power.get die {}
  packWord [(p.thr die, 30), (p.fstep, 24), (p.capw.getD (Config.staticLimit die), 12), (p.pwrw % 2 ^ 12, 0)]

/-- CONN of a connector (Table 1-9). -/
def Conn.word (c : Conn) : BitVec 32 := packWord [(c.stat, 30), (flagNat c.evt, 29), (c.metric % 2 ^ 16, 0)]

/-- DRST (Table 2-8); GO and JOIN are write-only. -/
def State.drst (s : State) : BitVec 32 := packWord [(s.pf.phase, 28), (flagNat s.pf.tmo, 25), (s.pf.drstDie, 0)]

/-- A word of DLIVE (Table 2-9). -/
def State.dlive (s : State) (w : Nat) : BitVec 32 :=
  packWord (((List.range Config.dies).filter fun d => s.isLive d && decide (d / 32 = w)).map fun d => (1, d % 32))

/-- DSUSP of a compute die (Table 5-4). -/
def Susp.word (x : Susp) : BitVec 32 := packWord [(flagNat x.ret, 31), (x.clean, 16), (x.score, 0)]

/-- A word of ECCLOG (Table 5-5). -/
def EccLog.word (e : EccLog) (off : Nat) : BitVec 32 :=
  match off with
  | 0 => e.cecnt
  | 4 => e.uecnt
  | 8 => e.addrl
  | 12 => packWord [(e.kind, 28), (e.addrh.toNat, 0)]
  | _ => 0

/-- A word of FWCTL (R133). -/
def State.fwctl (s : State) (off : Nat) : BitVec 32 :=
  match off with
  | 0 => s.pf.fwAddr.truncate 32
  | 4 => (s.pf.fwAddr >>> 32).truncate 32
  | 8 => s.pf.fwLen
  | 12 => BitVec.ofNat 32 s.pf.fwStatus
  | _ => 0

/-- A word of MCSTAT (Table 11-8). -/
def McStat.word (x : McStat) (off : Nat) : BitVec 32 :=
  match off with
  | 4 => packWord [(flagNat x.valid, 31), (x.kind, 29), (x.die, 23), (x.src, 19)]
  | _ => 0

/-- A word of a two-word register. -/
def Two.word (t : Two) (w : Nat) : BitVec 32 := if w = 0 then t.w0 else if w = 1 then t.w1 else 0

/-- A word of PCTL (Table 3-5). -/
def Pctl.word (p : Pctl) (w : Nat) : BitVec 32 := if w = 0 then p.w0 else if w = 1 then p.w1 else if w = 2 then p.w2 else p.w3

/-- The word of the MSI-X table or its pending bits at an offset of a function's window (Table 3-1): address, data, and vector control
with the mask bit (notes/assumptions/33.md). -/
def State.msixWord (s : State) (fn : Fn) (off : Nat) : BitVec 32 :=
  let at_ := fun n => 16 * fnIx fn + n
  if off < 0x8100 then (if off % 16 = 12 then packWord [(flagNat (s.pf.msixMask.get (at_ ((off - 0x8000) / 16)) true), 0)]
    else s.pf.msixTab.get (4 * at_ ((off - 0x8000) / 16) + off % 16 / 4) 0)
  else if off = 0x9000 then packWord ((List.range 16).map fun n => (flagNat (s.pf.msixPend.get (at_ n) false), n))
  else 0

/-- The 32-bit word that the host reads at an aligned offset of the management window (Table 3-2); an offset in no region reads zero.
In recovery the window answers only at FWCTL (R133; notes/assumptions/89.md). -/
def State.pfRead (s : State) (off : Nat) : BitVec 32 :=
  let pf := s.pf
  if off % 4 ≠ 0 ∨ (pf.recovery ∧ ¬ (0x4600 ≤ off ∧ off < 0x4610)) then 0
  else if off < 0x100 then capWord .pf off
  else if off = 0x100 then packWord [(flagNat pf.expert, 0)]
  else if off = 0x1000 then pf.coolant
  else if 0x1100 ≤ off ∧ off < 0x1100 + 4 * Config.dies then s.dcap ((off - 0x1100) / 4)
  else if 0x2000 ≤ off ∧ off < 0x2000 + 16 * 150 then s.railWord (off - 0x2000)
  else if 0x3000 ≤ off ∧ off < 0x3000 + 4 * 10 then (pf.conn.get ((off - 0x3000) / 4) {}).word
  else if off = 0x4000 then packWord [(flagNat pf.migEn, 31), (pf.migThr, 0)]
  else if off = 0x4100 then s.drst
  else if off = 0x4108 then s.dlive 0
  else if off = 0x410C then s.dlive 1
  else if 0x4200 ≤ off ∧ off < 0x4240 then (pf.susp.get ((off - 0x4200) / 4) {}).word
  else if 0x4300 ≤ off ∧ off < 0x4300 + 16 * Config.dies then (pf.ecc.get ((off - 0x4300) / 16) {}).word (off % 16)
  else if 0x4600 ≤ off ∧ off < 0x4610 then s.fwctl (off - 0x4600)
  else if 0x4700 ≤ off ∧ off < 0x4710 then pf.savewin.get ((off - 0x4700) / 4) 0
  else if 0x4800 ≤ off ∧ off < 0x4808 then pf.mcstat.word (off - 0x4800)
  else if 0x4900 ≤ off ∧ off < 0x4900 + 8 * 512 then (pf.wwin.get ((off - 0x4900) / 8) {}).word (off % 8 / 4)
  else if 0x8000 ≤ off ∧ off < 0xA000 then s.msixWord .pf off
  else if 0x10000 ≤ off ∧ off < 0x10000 + 8 * 512 then (pf.htwin.get ((off - 0x10000) / 8) {}).word (off % 8 / 4)
  else if 0x20000 ≤ off ∧ off < 0x20000 + 16 * 512 then (pf.ase.get ((off - 0x20000) / 16) {}).word (off % 16 / 4)
  else if 0x30000 ≤ off ∧ off < 0x30000 + 4 * 768 then pf.own.get ((off - 0x30000) / 4) 0
  else if 0x40000 ≤ off ∧ off < 0x40000 + 16 * 512 then (s.pctl ((off - 0x40000) / 16)).word (off % 16 / 4)
  else if 0x50000 ≤ off ∧ off < 0x50000 + 4 * 16 then BitVec.ofNat 32 (pf.slice.get ((off - 0x50000) / 4) 16)
  else if 0x60000 ≤ off ∧ off < 0x68000 then s.ffWord ((off - 0x60000) / 0x2000) (off % 0x2000 / 4)
  else if 0x1000000 ≤ off ∧ off < 0x1000000 + 4 * 262144 then s.mem.home.get ((off - 0x1000000) / 4) 0
  else 0

/-! ### A function window -/

/-- QCFG of a queue (Table 3-7). -/
def Queue.qcfg (x : Queue) : Nat :=
  flagNat x.en * 2 ^ 31 + flagNat x.abort * 2 ^ 30 + flagNat x.nopre * 2 ^ 29 + x.vec * 2 ^ 16 + x.clog * 2 ^ 8 + x.qlog

/-- A 32-bit word of a 64-bit value. -/
def half64 (v : Word) (off : Nat) : BitVec 32 := if off % 8 = 0 then v.truncate 32 else (v >>> 32).truncate 32

/-- The word at an offset of a queue's block (Table 3-7). -/
def Queue.word (x : Queue) (off : Nat) : BitVec 32 :=
  if off < 8 then half64 x.qbase off
  else if off = 0x08 then BitVec.ofNat 32 x.qcfg
  else if off = 0x10 then x.pidx
  else if off = 0x14 then x.cidx
  else if off = 0x18 ∨ off = 0x1C then half64 x.cbase off
  else if off = 0x20 then x.chead
  else if off = 0x24 then x.ctail
  else if off = 0x28 then packWord [(x.infl % 2 ^ 16, 16), (x.cause, 4), (x.stat, 0)]
  else 0

/-- A word of a remote connection entry (Table 17-5). -/
def Conn17.word (c : Conn17) (w : Nat) : BitVec 32 :=
  match w with
  | 0 => c.w0
  | 1 | 2 | 3 | 4 => (c.gid >>> (32 * (w - 1))).truncate 32
  | 5 => c.rkey
  | _ => 0

/-- The 32-bit word that the host reads at an aligned offset of a function window (R52). -/
def State.vfRead (s : State) (vf off : Nat) : BitVec 32 :=
  let x := s.vfs.get vf {}
  if off % 4 ≠ 0 ∨ s.pf.recovery then 0
  else if off < 0x100 then capWord (.vf vf) off
  else if off = 0x100 then packWord [(flagNat x.expert, 0)]
  else if 0x200 ≤ off ∧ off < 0x208 then half64 x.ckbase off
  else if 0x208 ≤ off ∧ off < 0x210 then half64 x.cklen off
  else if off = 0x210 then packWord [(flagNat x.rst, 30), (flagNat x.pullok, 29), (x.ckstatus, 0)]
  else if 0x1000 ≤ off ∧ off < 0x1400 then (x.queues.get ((off - 0x1000) / 0x100) {}).word (off % 0x100)
  else if 0x4000 ≤ off ∧ off < 0x6000 then (x.conns.get ((off - 0x4000) / 32) {}).word (off % 32 / 4)
  else if 0x8000 ≤ off ∧ off < 0xA000 then s.msixWord (.vf vf) off
  else 0

end Sys2Proof.Machine
end

