-- ==== Sys2Proof/Safety.lean ====
section
/-!
DEFINITION. Sys2Proof/Safety.lean: the terms in which claims speak of states: the canonical form of memory, what a byte of memory
reads as, and what an instruction leaves as it was.
-/

namespace Sys2Proof.Machine

/-! ### Memory -/

/-- Byte `a` of the HBM of the memory dies. -/
def State.hbmByte (s : State) (a : Nat) : Byte := memGet Config.powerOnByte s.mem.hbm a

/-- Byte `a` of the weight memory (R398). -/
def State.weightAt (s : State) (a : Nat) : Byte := memGet Config.powerOnByte s.mem.weight a

/-- The three memories are in their canonical form. -/
def State.memWf (s : State) : Prop :=
  Memory.wf Config.powerOnByte s.mem.hbm = true ∧ Memory.wf Config.hostPowerOnByte s.mem.host = true ∧
    Memory.wf Config.powerOnByte s.mem.weight = true

/-- Every byte reads as before: of the HBM, of host memory, of weight memory, of every die's view, and of every tile. -/
structure State.sameBytes (s t : State) : Prop where
  hbm : ∀ a, t.hbmByte a = s.hbmByte a
  host : ∀ a, t.hostByte a = s.hostByte a
  weight : ∀ a, t.weightAt a = s.weightAt a
  view : ∀ die loc, t.dvByte die loc = s.dvByte die loc
  tile : ∀ key, t.tile key = s.tile key

/-! ### What an instruction leaves as it was -/

/-- Nothing outside the executing context has changed but the count of identifiers. -/
structure State.sameElsewhere (s t : State) : Prop where
  rest : t = { s with ctxs := t.ctxs, ord := { s.ord with nextId := t.ord.nextId } }
  ctxs : ∀ j, j ≠ s.cur.ctx → t.ctx j = s.ctx j

/-- What can retire in the executing stream has retired: every turn sees to it before an instruction executes (R143). -/
def State.settled (s : State) : Prop :=
  match s.me.rob with
  | [] => True
  | r :: _ => r.done = false ∨ r.err ≠ 0 ∨ pushTokens s.here.tok (pushKeys s.cur.st r.push) = none

/-- How the list of unretired instructions and the token queues go on when the executing instruction has issued: complete and first, it
retires with its pushes at once when they have room; else it waits behind the earlier ones, and no token moves (R143, R174). -/
def State.entered (s t : State) (done : Bool) : Prop :=
  (done = true ∧ s.me.rob = [] ∧ t.me.rob = [] ∧ pushTokens s.here.tok (pushKeys s.cur.st s.me.pushes) = some t.here.tok) ∨
  (t.here.tok = s.here.tok ∧
    ∃ r : Rob, t.me.rob = s.me.rob ++ [r] ∧ r.done = done ∧ r.push = s.me.pushes ∧ r.pc = s.cur.pc ∧ r.err = 0)

/-- The executing instruction has issued, with `f` as its effect on its context and `go` as the way its stream goes on: one more issue slot
of a vector stream has passed, the instruction is among the unretired ones or has retired, and every other register of the context, of the
other contexts and of the module, and every byte, is as before. -/
structure State.issues (s t : State) (done : Bool) (go : StreamSt → StreamSt) (f : Ctx → Ctx) : Prop where
  elsewhere : s.sameElsewhere t
  bytes : s.sameBytes t
  stream : t.me = { go ((f s.here).strm s.cur.st) with rob := t.me.rob }
  entered : s.entered t done
  ctx : t.here =
    { (f s.here).setStrm s.cur.st t.me with
      tok := t.here.tok
      idleFrom := (s.cycle (dieOf s.cur.ctx)).toNat
      vec := if s.cur.st = .v then { (f s.here).vec with slot := (f s.here).vec.slot + 1 } else (f s.here).vec }

/-- The stored words of register `r` of the g registers, of two words each, have fresh check bits; g0 has none (R434). -/
def Ctx.checkG (c : Ctx) (r : Nat) : AMap (BitVec 7) := c.regCheck.filter fun e => decide (r = 0) || e.1 / 2 != r

/-- The stored words of shape register `r`, of 16 words each behind the g registers, have fresh check bits (R434). -/
def Ctx.checkD (c : Ctx) (r : Nat) : AMap (BitVec 7) := c.regCheck.filter fun e => !(decide (64 + 16 * r ≤ e.1) && decide (e.1 < 80 + 16 * r))

/-- The executing instruction has issued with effect `f`, and its stream stands behind it. -/
abbrev State.passes (s t : State) (done : Bool) (f : Ctx → Ctx) : Prop := s.issues t done (fun x => x.advance s.cur.next) f

/-- The executing instruction has issued with effect `f`, and its stream goes on at address `a`; blocks that do not hold `a` are closed. -/
abbrev State.goesTo (s t : State) (a : Nat) (f : Ctx → Ctx) : Prop := s.issues t true (fun x => x.leave (keepBlocks x.blocks a) a) f

/-- The executing instruction has taken the fault `r`: its stream's record holds it, with the stream and the PC of the instruction, and the
stream has stopped; every other register, and every byte, is as before (R239, R241, R316). -/
structure State.faults (s t : State) (r : FaultRec) : Prop where
  elsewhere : s.sameElsewhere t
  bytes : s.sameBytes t
  record : (t.here.frec.get (strmIx s.cur.st) {}).valid = true ∧
    t.here.frec.get (strmIx s.cur.st) {} =
      { r with valid := true, st := s.cur.st, pc := s.cur.pc, since := s.now,
               cpos := (t.here.frec.get (strmIx s.cur.st) {}).cpos, spos := (t.here.frec.get (strmIx s.cur.st) {}).spos }
  stream : t.me = { s.me with faulted := true }
  ctx : t.here = { s.here.setStrm s.cur.st t.me with frec := t.here.frec }
  others : ∀ n, n ≠ strmIx s.cur.st → t.here.frec.get n {} = s.here.frec.get n {}

/-- The executing instruction may take a fault: every earlier one of its stream has retired, and no record of the stream is VALID (R239). -/
def State.mayFault (s : State) : Prop := s.me.rob = [] ∧ (s.here.frec.get (strmIx s.cur.st) {}).valid = false

/-- Every control stream of a team's contexts has ended. -/
def State.teamEnded (s : State) (team : Nat) : Bool :=
  s.ctxs.all fun e => !e.2.live || decide (e.2.team.team ≠ team) || decide (e.2.sc.stat = .ended)

/-! ### What the manual's tables say of the control stream's arithmetic -/

/-- Bits [127:64] of an exact product. -/
def high64 (x : Int) : Word := (BitVec.ofInt 128 x).extractLsb' 64 64

/-- 1 for a condition that holds, else 0. -/
def oneIf (p : Prop) [Decidable p] : Word := if p then 1 else 0

/-- Destination, source registers and result of the control stream's integer instructions, from the values of the g registers
(Table 15-1, R318 to R322). -/
def aluSpec (i : Instr) (g : Nat → Word) : Option (Nat × List Nat × Word) :=
  let u := fun r => ((g r).toNat : Int)
  let sg := fun r => (g r).toInt
  let by_ := fun r => (g r).toNat % 64
  match i with
  | .mov d a => some (d, [a], g a)
  | .add d a b => some (d, [a, b], BitVec.ofInt 64 (u a + u b))
  | .sub d a b => some (d, [a, b], BitVec.ofInt 64 (u a - u b))
  | .and d a b => some (d, [a, b], g a &&& g b)
  | .or d a b => some (d, [a, b], g a ||| g b)
  | .xor d a b => some (d, [a, b], g a ^^^ g b)
  | .shl d a b => some (d, [a, b], BitVec.ofInt 64 (u a * 2 ^ by_ b))
  | .shr d a b => some (d, [a, b], BitVec.ofInt 64 (u a / 2 ^ by_ b))
  | .sar d a b => some (d, [a, b], BitVec.ofInt 64 (sg a / 2 ^ by_ b))
  | .mul d a b => some (d, [a, b], BitVec.ofInt 64 (u a * u b))
  | .mulh d a b => some (d, [a, b], high64 (sg a * sg b))
  | .mulhu d a b => some (d, [a, b], high64 (u a * u b))
  | .div d a b => some (d, [a, b],
      if g b = 0 then BitVec.ofInt 64 (-1)
      else if sg a = -2 ^ 63 ∧ sg b = -1 then BitVec.ofInt 64 (-2 ^ 63)
      else BitVec.ofInt 64 ((sg a).tdiv (sg b)))
  | .divu d a b => some (d, [a, b], if g b = 0 then BitVec.ofInt 64 (2 ^ 64 - 1) else BitVec.ofInt 64 (u a / u b))
  | .rem d a b => some (d, [a, b],
      if g b = 0 then g a
      else if sg a = -2 ^ 63 ∧ sg b = -1 then 0
      else BitVec.ofInt 64 (sg a - sg b * (sg a).tdiv (sg b)))
  | .remu d a b => some (d, [a, b], if g b = 0 then g a else BitVec.ofInt 64 (u a - u b * (u a / u b)))
  | .min d a b => some (d, [a, b], BitVec.ofInt 64 (Min.min (sg a) (sg b)))
  | .max d a b => some (d, [a, b], BitVec.ofInt 64 (Max.max (sg a) (sg b)))
  | .minu d a b => some (d, [a, b], BitVec.ofInt 64 (Min.min (u a) (u b)))
  | .maxu d a b => some (d, [a, b], BitVec.ofInt 64 (Max.max (u a) (u b)))
  | .slt d a b => some (d, [a, b], oneIf (sg a < sg b))
  | .sltu d a b => some (d, [a, b], oneIf (u a < u b))
  | .seq d a b => some (d, [a, b], oneIf (g a = g b))
  | .sne d a b => some (d, [a, b], oneIf (g a ≠ g b))
  | .sel d a b => some (d, [d, a, b], if g d ≠ 0 then g a else g b)
  | .addi d a imm => some (d, [a], BitVec.ofInt 64 (sg a + imm))
  | .slti d a imm => some (d, [a], oneIf (sg a < imm))
  | .andi d a imm => some (d, [a], g a &&& BitVec.ofNat 64 imm)
  | .ori d a imm => some (d, [a], g a ||| BitVec.ofNat 64 imm)
  | .xori d a imm => some (d, [a], g a ^^^ BitVec.ofNat 64 imm)
  | .shli d a n => some (d, [a], BitVec.ofInt 64 (u a * 2 ^ n))
  | .shri d a n => some (d, [a], BitVec.ofInt 64 (u a / 2 ^ n))
  | .sari d a n => some (d, [a], BitVec.ofInt 64 (sg a / 2 ^ n))
  | .li d imm hw => some (d, [], BitVec.ofNat 64 imm <<< (16 * hw))
  | .lik d imm hw => some (d, [d], (g d &&& ~~~((0xFFFF : Word) <<< (16 * hw))) ||| (BitVec.ofNat 64 imm <<< (16 * hw)))
  | _ => none

/-! ### What the manual's tables say of the control stream's memory instructions -/

/-- An access that an instruction asks for: its g sources, classes that a fence or acquire in it covers (0 for none), VA, size and
alignment, kind of check (0 read, 1 write, 2 both), the accesses that enter the class queues for given locations and error code, and the
g register that waits for the value. -/
structure MemSpec where
  srcs : List Nat
  sync : Nat
  va : Nat
  size : Nat
  align : Nat
  check : Nat
  accs : List Nat → Nat → List Access
  dest : Option Nat

/-- What the control stream's memory instructions of classes 0 and 1 ask for (R323 to R331, R349). -/
def State.memSpec (s : State) (i : Instr) : Option MemSpec :=
  let id := s.ord.nextId
  let pc := s.cur.pc
  let ea := fun gb (off : Int) => ((((s.readG gb).toNat : Int) + off) % 2 ^ 64).toNat
  let rd := fun cls sink va acq locs e => ({ newAccess id cls .read (readParts locs) sink va pc e s.clock with acq := acq } : Access)
  let wr := fun cls glob w va locs e =>
    newAccess id cls (if glob then .global else .early) (groupParts (withBytes locs w)) .none va pc e s.clock
  let fe := fun scope va => newAccess id 0 (.fence 65535 scope) [] .none va pc 0 s.clock
  let amo := fun op gd gb gs scope form cls =>
    let va := ea gb 0
    some ({ srcs := [gb, gs] ++ (if op = 7 then [gd] else []), sync := if form = 0 then 0 else 65535, va := va, size := 8, align := 8, check := 2
            accs := fun locs e => (if form = 2 then [fe scope va] else []) ++
              [{ newAccess id cls (.amo op (s.readG gs) (s.readG gd)) (groupParts (withBytes locs (s.readG gs).toNat)) (.gOld gd) va pc e s.clock with
                 acq := decide (form = 1) }]
            dest := some gd } : MemSpec)
  match i with
  | .ld gd gb off sx lsz cls =>
    let va := ea gb (off * 2 ^ lsz)
    some ⟨[gb], 0, va, 2 ^ lsz, 2 ^ lsz, 0, fun l e => [rd cls (.gReg gd (2 ^ lsz) sx) va false l e], some gd⟩
  | .ldAcq gd gb _ sx lsz cls =>
    let va := ea gb 0
    some ⟨[gb], 65535, va, 2 ^ lsz, 2 ^ lsz, 0, fun l e => [rd cls (.gReg gd (2 ^ lsz) sx) va true l e], some gd⟩
  | .cread gd gb f64 cls =>
    let va := ea gb 0
    some ⟨[gb], 0, va, 32, 32, 0, fun l e => [rd cls (.gCell gd f64) va false l e], some gd⟩
  | .st gb gs off glob lsz cls =>
    let va := ea gb (off * 2 ^ lsz)
    some ⟨[gb, gs], 0, va, 2 ^ lsz, 2 ^ lsz, 1, fun l e => [wr cls glob (s.readG gs).toNat va l e], none⟩
  | .stRel gb gs scope glob lsz cls =>
    let va := ea gb 0
    some ⟨[gb, gs], 65535, va, 2 ^ lsz, 2 ^ lsz, 1, fun l e => [fe scope va, wr cls glob (s.readG gs).toNat va l e], none⟩
  | .wadd gb gs f64 cls =>
    let va := ea gb 0
    let v := if f64 then s.readG gs else (s.readG gs).setWidth 32 |>.setWidth 64
    some ⟨[gb, gs], 0, va, 32, 32, 2, fun l e => [newAccess id cls (.wadd f64 v) (readParts l) .none va pc e s.clock], none⟩
  | .dst gr dn glob cls =>
    some ⟨[gr], 0, (s.readG gr).toNat, 64, 64, 1, fun l e =>
      [newAccess id cls (if glob then .global else .early) ((withBytes l (s.here.readD dn).toNat).map fun b => ⟨b.1 / 64, [b]⟩) .none
        (s.readG gr).toNat pc e s.clock], none⟩
  | .amoadd gd gb gs scope form cls => amo 0 gd gb gs scope form cls
  | .amoand gd gb gs scope form cls => amo 1 gd gb gs scope form cls
  | .amoor gd gb gs scope form cls => amo 2 gd gb gs scope form cls
  | .amoxor gd gb gs scope form cls => amo 3 gd gb gs scope form cls
  | .amomin gd gb gs scope form cls => amo 4 gd gb gs scope form cls
  | .amomax gd gb gs scope form cls => amo 5 gd gb gs scope form cls
  | .amoswp gd gb gs scope form cls => amo 6 gd gb gs scope form cls
  | .cas gd gb gs scope form cls => amo 7 gd gb gs scope form cls
  | _ => none

/-- The bytes from VA `va` on that an access checks, in order. -/
def vasOf (va n : Nat) : List Nat := (List.range n).map (va + ·)

/-- The g register of an access, if it has one, waits for it. -/
def Ctx.pendDest (c : Ctx) (dest : Option Nat) (id : Nat) : Ctx :=
  match dest with
  | some gd => c.pendG gd id
  | none => c

/-- What a memory instruction makes of its context: its destination waits, its accesses stand at the end of the class queues. -/
def Ctx.withAccs (c : Ctx) (st : Strm) (dest : Option Nat) (id : Nat) (as_ : List Access) : Ctx :=
  (c.pendDest dest id).upStrm st fun x => { x with cq := x.cq ++ as_ }

/-! ### What the manual says of transfers -/

/-- Sources, whether the transfer is taken, and the target of the branches of R301, R302 and R335. -/
def State.branchSpec (s : State) (i : Instr) : Option (List Nat × Bool × Nat) :=
  let tgt := fun (off : Int) => (((s.cur.pc : Int) + 2 * off) % 2 ^ 64).toNat
  match i with
  | .br off => some ([], true, tgt off)
  | .bz ga off => some ([ga], decide (s.readG ga = 0), tgt off)
  | .bnz ga off => some ([ga], decide (s.readG ga ≠ 0), tgt off)
  | .bg slot sense off =>
    match s.here.readGuard slot with
    | .unresolved => none
    | .isTrue => some ([], sense, tgt off)
    | .isFalse => some ([], !sense, tgt off)
  | _ => none

/-- The streams that a `fork` names, with the addresses of their entry blocks, in the order m, v, y (R340). -/
def State.forkSpec (s : State) (set : Nat) (om ov oy : Int) : List (Strm × Nat) :=
  (if bit set 0 then [(.m, s.relTo om)] else []) ++ (if bit set 1 then [(.v, s.relTo ov)] else []) ++
    (if bit set 2 then [(.y, s.relTo oy)] else [])

/-- Sources, slot and value of the guard writes of R350. -/
def State.guardSpec (s : State) (i : Instr) : Option (List Nat × Nat × Guard) :=
  match i with
  | .gsetImm slot v => some ([], slot, if v then .isTrue else .isFalse)
  | .gclr slot => some ([], slot, .unresolved)
  | .gsetReg ga slot => some ([ga], slot, if s.readG ga ≠ 0 then .isTrue else .isFalse)
  | _ => none

/-! ### What the manual's tables say of the vector stream's results -/

/-- A result that a vector instruction makes: the order of its groups and their first registers; other v, k and p registers that it
touches; whether it finds what it waits for; whether it is legal; the widths that VSHAPE.W and p(GP) must have, and the other conditions of
SHAPE; whether its descriptor passes the checks of R150; its latency; the bytes of its elements; the register that waits (64: none); elements by destination register; other writes; flags;
the words that enter the vector word of class 2; and what issuing changes at once. -/
structure VecSpec where
  order : Nat := 0
  groups : List Nat := []
  vs : List Nat := []
  ks : List Nat := []
  ps : List Nat := []
  ready : Bool := true
  legal : Bool := true
  width : Option Nat := none
  governed : Option Nat := none
  shape : Bool := true
  desc : Bool := true
  lat : Nat
  wb : Nat := 4
  vd : Nat := 64
  outs : VOuts := []
  extra : List VWrite := []
  flags : Nat := 0
  words : List (Nat × Nat) := []
  also : Ctx → Ctx := id

/-- The widths that an instruction needs are in force. -/
def VecSpec.fits (v : VecSpec) (c : Ctx) : Bool :=
  (match v.width with | some w => w == c.vec.wcode | none => true) &&
    (match v.governed with | some w => !c.vec.gpen || (c.readP c.vec.gp).2 == w | none => true) && v.shape

/-- Every group lies within v63. -/
def VecSpec.inFile (v : VecSpec) : Bool := v.groups.all fun b => decide (b + v.order ≤ 63)

/-- In interlocked mode a register that the instruction touches waits for a pending result. -/
def VecSpec.held (v : VecSpec) (c : Ctx) : Bool := c.vHeld (v.groups.flatMap (groupOf · v.order) ++ v.vs) v.ks v.ps

/-- The words of an instruction enter the vector word in class 2, behind those of earlier loads. -/
def Ctx.signed (c : Ctx) (tag : Nat) (words : Option (List (Nat × Nat))) : Ctx :=
  if c.team.pclass ≠ 2 then c
  else
    let r := drainSign c.sv.vacc c.vec.words (c.vec.sign ++ [match words with | some es => .elems es | none => .await tag])
    { c with vec := { c.vec with sign := r.2.2, words := r.2.1 }, sv := { c.sv with vacc := r.1 } }

/-- What a result writes: its elements by destination register, and the other writes. -/
def VecSpec.writes (v : VecSpec) : List VWrite := (v.outs.map fun o => VWrite.v o.1 (packV v.wb o.2).1 (packV v.wb o.2).2) ++ v.extra

/-- Flags that land with write j of n: those of coefficient j, and with the last write those of every later coefficient (R237). -/
def VecSpec.flagsOf (v : VecSpec) (n j : Nat) : Nat := (if j + 1 = n then v.flags / 2 ^ (5 * j) else v.flags / 2 ^ (5 * j) % 32) * 2 ^ (5 * j)

/-- The context behind the issue of a result: each of its writes is pending, due `lat` slots on in exposed mode (R160, R161, R250). -/
def VecSpec.apply (v : VecSpec) (id pc : Nat) (c : Ctx) : Ctx :=
  let ls : List Landing := v.writes.zipIdx.map fun p =>
    { tag := id, slot := if c.vec.exposed then some (c.vec.slot + v.lat) else none, ready := true, writes := [p.1]
      flags := BitVec.ofNat 32 (v.flagsOf v.writes.length p.2), elems := [], wb := v.wb, vd := v.vd, pc := pc, rob := id, err := 0 }
  let c := v.also c
  ({ c with vec := { c.vec with landing := c.vec.landing ++ ls } } : Ctx).signed id (some v.words)

/-- In exposed mode at most 32 results are pending, one for each write (R250). -/
def Ctx.vRoomFor (c : Ctx) (n : Nat) : Prop := c.vec.exposed = true → c.vec.landing.length + n ≤ 32

/-- No commit point of the vector stream waits for its word (R106, R108). -/
def Ctx.noSeal (c : Ctx) : Prop := c.vec.words = [] ∧ ∀ n, SignItem.seal n ∉ c.vec.sign


/-- The same result with its elements as the words of the vector word. -/
def VecSpec.plain (v : VecSpec) : VecSpec := { v with words := v.outs.flatMap Prod.snd }

/-- The vector instructions that make results (Tables 16-4 to 16-8, R298, R359 to R375, R379 to R382, R385, R386, R309). -/
def State.vecSpec (s : State) (i : Instr) : Option VecSpec :=
  let c := s.here
  let x := c.vec
  let act := c.active
  let w := 8 * x.wb
  let regs := fun (vd : Nat) (va : VSrc) (vb : Option VSrc) => vd :: va.reg :: (match vb with | some b => [b.reg] | none => [])
  -- FP32, whole jets
  let jets := fun (lat vd top : Nat) (groups vs : List Nat) (f : Nat → List (Nat × Nat)) (flagged : Bool) =>
    some ({ order := x.ord, groups := groups, vs := vs, width := some 2, governed := some 2, lat := lat, vd := vd
            outs := (List.range (top + 1)).map fun j => (vd + j, act.map fun e => (e, ((f e).map Prod.fst).getD j 0))
            flags := if flagged then act.foldl (fun a e => a ||| slotFlags ((f e).map Prod.snd)) 0 else 0 } : VecSpec).plain
  let fp := fun (o : FOp) (base per vd : Nat) (va : VSrc) (vb : Option VSrc) =>
    let rd := fun (b : VSrc) (e : Nat) => (c.jet b.dir b.reg x.ord e).map (fmtF32.read x.flush)
    jets (base + x.ord * per) vd x.ord (regs vd va vb) []
      (fun e => jetOp x.arith o x.ord (rd va e) (match vb with | some b => rd b e | none => []) (rd ⟨0, vd⟩ e)) true
  let copy := fun (f : List Nat → List Nat → List Nat) (vd : Nat) (va : VSrc) (vb : Option VSrc) =>
    jets (4 + x.ord) vd x.ord (regs vd va vb) []
      (fun e => (f (c.jet va.dir va.reg x.ord e) (match vb with | some b => c.jet b.dir b.reg x.ord e | none => [])).map fun y => (y, 0)) false
  -- one register of elements of any width
  let one := fun (lat wb vd : Nat) (vs : List Nat) (width : Option Nat) (gov : Nat) (f : Nat → Nat × Nat) =>
    ({ vs := vs, width := width, governed := some gov, lat := lat, wb := wb, vd := vd, outs := [(vd, act.map fun e => (e, (f e).1))]
       flags := act.foldl (fun a e => a ||| (f e).2) 0 } : VecSpec)
  let half := fun (f : FFmt) (o : FOp) (lat vd : Nat) (va vb : VSrc) =>
    let rd := fun (b : VSrc) (e : Nat) => f.read x.flush (c.src 2 b.dir b.reg e)
    some (one lat 2 vd [vd, va.reg, vb.reg] (some 1) 1 fun e => f.op x.arith o (rd va e) (rd vb e) (rd ⟨0, vd⟩ e)).plain
  let halfMin := fun (f : FFmt) (most : Bool) (vd : Nat) (va vb : VSrc) =>
    some (one 4 2 vd [vd, va.reg, vb.reg] (some 1) 1 fun e =>
      ((minMaxJet f x.flush most [c.src 2 va.dir va.reg e] [c.src 2 vb.dir vb.reg e]).getD 0 0, 0)).plain
  let int := fun (f : Nat → Nat → Nat → Int) (lat vd : Nat) (va : VSrc) (vb : Option VSrc) =>
    some (one lat x.wb vd (regs vd va vb) none x.wcode fun e =>
      ((f (c.src x.wb va.dir va.reg e) (match vb with | some b => c.src x.wb b.dir b.reg e | none => 0) (c.src x.wb 0 vd e) % 2 ^ w).toNat, 0)).plain
  let sg := toSigned w
  let clamp := fun (v : Int) => if v < -2 ^ (w - 1) then -2 ^ (w - 1) else if 2 ^ (w - 1) ≤ v then 2 ^ (w - 1) - 1 else v
  let fcmp := fun (rel : Int → Bool) (unord signal : Bool) (vd : Nat) (va vb : VSrc) =>
    some (one 4 4 vd [vd, va.reg, vb.reg] (some 2) 2 fun e =>
      let a := fmtF32.read x.flush (c.src 4 va.dir va.reg e)
      let b := fmtF32.read x.flush (c.src 4 vb.dir vb.reg e)
      if a = .nan ∨ b = .nan then (if unord then 1 else 0, if signal then fInvalid else 0) else (if rel (cmpFv a b) then 1 else 0, 0)).plain
  let icmp := fun (rel : Nat → Nat → Bool) (vd : Nat) (va vb : VSrc) =>
    some (one 4 x.wb vd [vd, va.reg, vb.reg] none x.wcode fun e =>
      (if rel (c.src x.wb va.dir va.reg e) (c.src x.wb vb.dir vb.reg e) then 1 else 0, 0)).plain
  -- moves of view elements, jet by jet for elements of 32 bits
  let move := fun (base per vd : Nat) (va : VSrc) (ks : List Nat) (shape : Bool) (ix : Nat → Nat) =>
    some ({ order := x.moveOrd, groups := [vd, va.reg], ks := ks, governed := some x.wcode, shape := shape, lat := base + x.moveOrd * per, wb := x.wb
            vd := vd, outs := (List.range (x.moveOrd + 1)).map fun j => (vd + j, act.map fun e => (e, c.src x.wb va.dir (va.reg + j) (ix e))) }
          : VecSpec).plain
  let reduce := fun (vd : Nat) (va : VSrc) (vals : List Nat) (flags : Nat) =>
    some ({ order := x.ord, groups := [vd, va.reg], width := some 2, governed := some 2, lat := 10 + 2 * x.ord, vd := vd, flags := flags
            outs := (List.range (x.ord + 1)).map fun j => (vd + j, act.map fun e => (e, vals.getD j 0)) } : VecSpec).plain
  let rmin := fun (most : Bool) (vd : Nat) (va : VSrc) =>
    let pick := minMaxJet fmtF32 x.flush most
    reduce vd va (match act.map (c.jet va.dir va.reg x.ord) with | [] => [] | j :: js => js.foldl pick (pick j j)) 0
  let ired := fun (f : List Nat → Nat) (vd : Nat) (va : VSrc) =>
    some (one 10 x.wb vd [vd, va.reg] none x.wcode fun _ => (f (act.map (c.src x.wb va.dir va.reg)), 0)).plain
  let guardOf := fun (f : List Nat → Bool) (va : VSrc) (slot : Nat) =>
    some ({ vs := [va.reg], governed := some x.wcode, lat := 10, wb := x.wb
            extra := [.g slot (f (act.map (c.src x.wb va.dir va.reg)))] } : VecSpec)
  let index := fun (kd : Nat) (srcs : List Nat) (v : Half) => some ({ ks := kd :: srcs, lat := 2, extra := [.k kd v] } : VecSpec)
  let pred := fun (pn count wc : Nat) (ks : List Nat) =>
    some ({ ks := ks, ps := [pn], legal := wc != 3 && decide (count ≤ x.count), lat := 2, extra := [.p pn count wc] } : VecSpec)
  let dith := fun (code n : Nat) (c : Ctx) => if code = 4 then { c with vec := { c.vec with dphase := (x.dphase + 7 * n) % 48 } } else c
  let pack := fun (fmt ext vd : Nat) (va : VSrc) (rv : Bool) (rnd : Nat) (desc : Bool) =>
    let mx := decide (10 ≤ fmt)
    let code := if rv then x.rnd else rnd
    let r := packRow fmt code x.dphase ext
      ((List.range x.count).map fun e => if act.contains e then some (fmtF32.read x.flush (c.src 4 va.dir va.reg e)) else none)
    some ({ vs := [vd, va.reg] ++ (if mx then [vd + 1] else []), desc := desc, legal := !mx || vd != 63, width := some 2, governed := some 2
            lat := 10, wb := 1, vd := vd, outs := (vd, byteElems r.1) :: (if mx then [(vd + 1, byteElems r.2.1)] else []), flags := r.2.2 % 32
            words := wordsOf r.1.length r.1 (c.readV vd) ++ (if mx then wordsOf r.2.1.length r.2.1 (c.readV (vd + 1)) else [])
            also := dith code (if mx then 2 else 1) } : VecSpec)
  let unpack := fun (fmt ext vd : Nat) (va : VSrc) (rv : Bool) (rnd : Nat) (desc : Bool) =>
    let mx := decide (10 ≤ fmt)
    let code := if rv then x.rnd else rnd
    let byte := fun (r b : Nat) => elemOf 1 (c.readV r) b
    let v := one 10 4 vd ([vd, va.reg] ++ if mx then [va.reg + 1] else []) (some 2) 2 fun e =>
      fmtF32.convert { code := if code = 4 then 0 else code, flush := x.flush } (rowElem fmt (byte va.reg) (byte (va.reg + 1)) ext e)
    some { v.plain with desc := desc, legal := va.dir == 0 && (!mx || va.reg != 63) }
  match i with
  | .vadd vd va vb => fp .add 4 1 vd va (some vb)
  | .vsub vd va vb => fp .sub 4 1 vd va (some vb)
  | .vmul vd va vb => fp .mul 6 2 vd va (some vb)
  | .vfma vd va vb => fp .fma 6 2 vd va (some vb)
  | .vdiv vd va vb => fp .div 12 6 vd va (some vb)
  | .vrcp vd va => fp .rcp 12 6 vd va none
  | .vsqrt vd va => fp .sqrt 12 6 vd va none
  | .vrsqrt vd va => fp .rsqrt 12 6 vd va none
  | .vexp2 vd va => fp (.fn .exp2) 16 6 vd va none
  | .vlog2 vd va => fp (.fn .log2) 16 6 vd va none
  | .vsin vd va => fp (.fn .sin) 16 6 vd va none
  | .vcos vd va => fp (.fn .cos) 16 6 vd va none
  | .vtanh vd va => fp (.fn .tanh) 16 6 vd va none
  | .vsigm vd va => fp (.fn .sigm) 16 6 vd va none
  | .vmin vd va vb => copy (minMaxJet fmtF32 x.flush false) vd va (some vb)
  | .vmax vd va vb => copy (minMaxJet fmtF32 x.flush true) vd va (some vb)
  | .vneg vd va => copy (fun a _ => negJet fmtF32 x.flush a) vd va none
  | .vabs vd va => copy (fun a _ => absJet fmtF32 x.flush a) vd va none
  | .vaddF16 vd va vb => half fmtF16 .add 4 vd va vb
  | .vsubF16 vd va vb => half fmtF16 .sub 4 vd va vb
  | .vmulF16 vd va vb => half fmtF16 .mul 6 vd va vb
  | .vfmaF16 vd va vb => half fmtF16 .fma 6 vd va vb
  | .vminF16 vd va vb => halfMin fmtF16 false vd va vb
  | .vmaxF16 vd va vb => halfMin fmtF16 true vd va vb
  | .vaddBf16 vd va vb => half fmtBf16 .add 4 vd va vb
  | .vsubBf16 vd va vb => half fmtBf16 .sub 4 vd va vb
  | .vmulBf16 vd va vb => half fmtBf16 .mul 6 vd va vb
  | .vfmaBf16 vd va vb => half fmtBf16 .fma 6 vd va vb
  | .vminBf16 vd va vb => halfMin fmtBf16 false vd va vb
  | .vmaxBf16 vd va vb => halfMin fmtBf16 true vd va vb
  | .viadd vd va vb => int (fun a b _ => (a : Int) + b) 4 vd va (some vb)
  | .visub vd va vb => int (fun a b _ => (a : Int) - b) 4 vd va (some vb)
  | .vimul vd va vb => int (fun a b _ => (a : Int) * b) 6 vd va (some vb)
  | .vimad vd va vb => int (fun a b d => (a : Int) * b + d) 6 vd va (some vb)
  | .vand vd va vb => int (fun a b _ => ((a &&& b : Nat) : Int)) 4 vd va (some vb)
  | .vor vd va vb => int (fun a b _ => ((a ||| b : Nat) : Int)) 4 vd va (some vb)
  | .vxor vd va vb => int (fun a b _ => ((a ^^^ b : Nat) : Int)) 4 vd va (some vb)
  | .vshl vd va vb => int (fun a b _ => (a : Int) * 2 ^ (b % w)) 4 vd va (some vb)
  | .vshr vd va vb => int (fun a b _ => (a : Int) / 2 ^ (b % w)) 4 vd va (some vb)
  | .vsar vd va vb => int (fun a b _ => sg a / 2 ^ (b % w)) 4 vd va (some vb)
  | .vimin vd va vb => int (fun a b _ => if sg a ≤ sg b then sg a else sg b) 4 vd va (some vb)
  | .vimax vd va vb => int (fun a b _ => if sg a ≤ sg b then sg b else sg a) 4 vd va (some vb)
  | .viadds vd va vb => int (fun a b _ => clamp (sg a + sg b)) 4 vd va (some vb)
  | .visubs vd va vb => int (fun a b _ => clamp (sg a - sg b)) 4 vd va (some vb)
  | .vimulh vd va vb => int (fun a b _ => sg a * sg b / 2 ^ w) 6 vd va (some vb)
  | .vineg vd va => int (fun a _ _ => -(a : Int)) 4 vd va none
  | .vnot vd va => int (fun a _ _ => -1 - (a : Int)) 4 vd va none
  | .viabs vd va => int (fun a _ _ => if sg a < 0 then -sg a else sg a) 4 vd va none
  | .vfeq vd va vb => fcmp (fun d => decide (d = 0)) false false vd va vb
  | .vfne vd va vb => fcmp (fun d => decide (d ≠ 0)) true false vd va vb
  | .vflt vd va vb => fcmp (fun d => decide (d < 0)) false false vd va vb
  | .vfle vd va vb => fcmp (fun d => decide (d ≤ 0)) false false vd va vb
  | .vfslt vd va vb => fcmp (fun d => decide (d < 0)) false true vd va vb
  | .vfsle vd va vb => fcmp (fun d => decide (d ≤ 0)) false true vd va vb
  | .vfun vd va vb => fcmp (fun _ => false) true false vd va vb
  | .vieq vd va vb => icmp (fun a b => decide (a = b)) vd va vb
  | .vilt vd va vb => icmp (fun a b => decide (sg a < sg b)) vd va vb
  | .vile vd va vb => icmp (fun a b => decide (sg a ≤ sg b)) vd va vb
  | .viltu vd va vb => icmp (fun a b => decide (a < b)) vd va vb
  | .vileu vd va vb => icmp (fun a b => decide (a ≤ b)) vd va vb
  | .vsel vd va vb =>
    some ({ order := x.moveOrd, groups := [vd, va.reg, vb.reg], governed := some x.wcode, lat := 4 + x.moveOrd, wb := x.wb, vd := vd
            outs := (List.range (x.moveOrd + 1)).map fun j => (vd + j, act.map fun e =>
              (e, if c.src x.wb 0 vd e = 0 then c.src x.wb vb.dir (vb.reg + j) e else c.src x.wb va.dir (va.reg + j) e)) } : VecSpec).plain
  | .vcvt vd va rv rnd conv =>
    let sb := widthBytes (convWidths conv).1
    let db := widthBytes (convWidths conv).2
    let code := if rv then x.rnd else rnd
    let v := one 6 db vd [vd, va.reg] none (convWidths conv).2 fun e =>
      convElem conv { code := code, dith := dithAt (e % x.nc) x.dphase, flush := x.flush } (c.src sb va.dir va.reg e)
    some { v.plain with shape := decide (x.count * Nat.max sb db ≤ 2048), also := dith code 1 }
  | .vpack vd va rv rnd fmt => pack (7 + fmt) 0 vd va rv rnd true
  | .vpackCb4 vd va dn rv rnd => pack 9 (c.dext.get dn 0).toNat vd va rv rnd !(descOf (c.readD dn)).bad
  | .vunpack vd va rv rnd fmt => unpack (7 + fmt) 0 vd va rv rnd true
  | .vunpackCb4 vd va dn rv rnd => unpack 9 (c.dext.get dn 0).toNat vd va rv rnd !(descOf (c.readD dn)).bad
  | .vrsum vd va =>
    let sum := fun (j : Nat) =>
      let r := sumFv x.arith (act.map fun e => fmtF32.read x.flush (c.src 4 va.dir (va.reg + j) e))
      ((fmtF32.write x.arith r.1).1, (fmtF32.write x.arith r.1).2 ||| if r.2 then fInvalid else 0)
    let js := (List.range (x.ord + 1)).map sum
    reduce vd va (js.map Prod.fst) (if act = [] then 0 else slotFlags (js.map Prod.snd))
  | .vrmin vd va => rmin false vd va
  | .vrmax vd va => rmin true vd va
  | .virsum vd va => ired (fun xs => xs.sum % 2 ^ w) vd va
  | .virmin vd va => ired (bestOf false w) vd va
  | .virmax vd va => ired (bestOf true w) vd va
  | .vrany va slot => guardOf (fun xs => xs.any fun y => decide (y ≠ 0)) va slot
  | .vrall va slot => guardOf (fun xs => xs.all fun y => decide (y ≠ 0)) va slot
  | .vmov vd va => move 4 1 vd va [] true fun e => e
  | .vtrn vd va => move 4 1 vd va [] (decide (x.nc ≤ 32)) fun d => d % x.nr * x.nc + d / x.nr
  | .vbce vd va km => move 6 1 vd va [km] (decide ((c.readK km).toNat < x.count)) fun _ => (c.readK km).toNat
  | .vbck vd km => some { (one 4 x.wb vd [vd] none x.wcode fun _ => ((c.readK km).toNat % 2 ^ w, 0)).plain with ks := [km] }
  | .vext km va =>
    some { vs := [va.reg], ks := [km], shape := decide (x.viewIdx < x.count), lat := 2, wb := x.wb
           extra := [.k km (BitVec.ofNat 32 (c.src x.wb va.dir va.reg x.viewIdx))] }
  | .jseed vd va => jets 4 vd x.ord [vd] [va.reg] (fun e => (c.src 4 va.dir va.reg e, 0) :: (0x3F800000, 0) :: []) false
  | .jconst vd va => jets 4 vd x.ord [vd] [va.reg] (fun e => [(c.src 4 va.dir va.reg e, 0)]) false
  | .jget vd va n => (jets 4 vd 0 [va.reg] [vd] (fun e => [(c.src 4 va.dir (va.reg + n) e, 0)]) false).map
      fun v => { v with legal := decide (n ≤ x.ord) }
  | .jput vd va n => (jets 4 (vd + n) 0 [vd] [va.reg] (fun e => [(c.src 4 va.dir va.reg e, 0)]) false).map
      fun v => { v with legal := decide (n ≤ x.ord) }
  | .jdiff vd va => jets 6 vd x.ord [vd, va.reg] [] (fun e => diffJet x.arith (c.jet va.dir va.reg x.ord e)) true
  | .vpop vd qn =>
    match c.oq.get (2 * kindOf .v + qn) [] with
    | [] => some { vs := [vd], ready := false, lat := 4 }
    | it :: rest =>
      some ({ vs := [vd], shape := it.len == x.count * x.wb, lat := 4, wb := x.wb, vd := vd
              outs := [(vd, (List.range x.count).map fun e => (e, elemOf x.wb it.data e))]
              also := fun c => { c with oq := c.oq.set (2 * kindOf .v + qn) rest } } : VecSpec).plain
  | .psetImm pn count wc => pred pn count wc []
  | .psetK pn km wc => pred pn (c.readK km).toNat wc [km]
  | .kadd kd ka kb => index kd [ka, kb] (c.readK ka + c.readK kb)
  | .ksub kd ka kb => index kd [ka, kb] (c.readK ka - c.readK kb)
  | .kmul kd ka kb => index kd [ka, kb] (c.readK ka * c.readK kb)
  | .kand kd ka kb => index kd [ka, kb] (c.readK ka &&& c.readK kb)
  | .kor kd ka kb => index kd [ka, kb] (c.readK ka ||| c.readK kb)
  | .kshl kd ka kb => index kd [ka, kb] (c.readK ka <<< ((c.readK kb).toNat % 32))
  | .kshr kd ka kb => index kd [ka, kb] (c.readK ka >>> ((c.readK kb).toNat % 32))
  | .kmin kd ka kb => index kd [ka, kb] (BitVec.ofInt 32 (Min.min (c.readK ka).toInt (c.readK kb).toInt))
  | .kmax kd ka kb => index kd [ka, kb] (BitVec.ofInt 32 (Max.max (c.readK ka).toInt (c.readK kb).toInt))
  | .kaddi kd ka imm => index kd [ka] (BitVec.ofInt 32 ((c.readK ka).toInt + imm))
  | .csrr kd n =>
    if s.cur.st ≠ .v then none
    else (index kd [] (BitVec.ofNat 32 (s.csr s.cur.ctx .v n))).map fun v =>
      { v with legal := csrReads .v n, ready := !c.csrHeld n }
  | .vdrain vd pn =>
    let tag := match x.defer with | d :: _ => d.tag | [] => 0
    let es := (x.defer.takeWhile fun d => d.tag == tag).take (Nat.min x.count 512)
    some ({ order := x.ord, groups := [vd], ps := [pn], width := some 2, lat := 8, vd := vd
            outs := (List.range (x.ord + 1)).map fun j =>
              (vd + j, ((List.range es.length).zip es).map fun p => (p.1, (p.2.words.map BitVec.toNat).getD j 0))
            extra := [.p pn es.length 2, .scatter (es.map fun d => (d.b, d.e, d.words.length))]
            also := fun c => { c with vec := { c.vec with defer := c.vec.defer.drop es.length } } } : VecSpec).plain
  | .vscatb va =>
    let ps := ((List.range x.scatter.length).zip x.scatter).flatMap fun (p : Nat × Nat × Nat × Nat) =>
      ((List.range (x.ord + 1)).filter fun j => decide (p.2.1 + j ≤ 63)).map fun j => (p.2.1 + j, p.2.2.1, elemOf 4 (c.readV (va + j)) p.1)
    let rs := (ps.map Prod.fst).eraseDups
    some { order := x.ord, groups := [va], vs := rs, width := some 2, lat := 8
           ready := x.exposed || !x.landing.any fun l => l.writes.any fun y => match y with | .scatter _ => true | _ => false
           outs := rs.map fun r => (r, (ps.filter fun p => p.1 == r).map Prod.snd), words := ps.map Prod.snd }
  | _ => none

/-- What one write of a landing result makes of its context: one register, guard slot or the scatter list, of a vector register the bits
of its mask (R160, R356). -/
def VWrite.shows (w : VWrite) (c c' : Ctx) : Prop :=
  match w with
  | .v r m x => c' = { c with vec := { c.vec with v := c'.vec.v } } ∧
      ∀ n, c'.readV n = if n = r then (c.readV r &&& ~~~m) ||| (x &&& m) else c.readV n
  | .k r x => c' = { c with vec := { c.vec with k := c'.vec.k } } ∧ ∀ n, c'.readK n = if n = r then x else c.readK n
  | .p r n w => c' = { c with vec := { c.vec with p := c'.vec.p } } ∧ ∀ j, c'.readP j = if j = r then (n, w) else c.readP j
  | .g r x => c' = { c with guard := c'.guard } ∧
      ∀ n, c'.readGuard n = if n = r then (if x then .isTrue else .isFalse) else c.readGuard n
  | .scatter l => c' = { c with vec := { c.vec with scatter := l } }

/-- The addresses that the active elements of a `vld` or `vst` name. -/
def Ctx.elemAddrs (c : Ctx) (dn km : Nat) : List (Option Nat) := c.active.map ((descOf (c.readD dn)).elemAddr (c.readK km) c.vec)

/-- A result that waits for an access (R160). -/
def Ctx.awaits (c : Ctx) (id pc lat vd : Nat) (elems : List (Nat × List Nat)) : Ctx :=
  let l : Landing :=
    { tag := id, slot := if c.vec.exposed then some (c.vec.slot + lat) else none, ready := false, writes := [], flags := 0, elems := elems
      wb := c.vec.wb, vd := vd, pc := pc, rob := id, err := 0 }
  ({ c with vec := { c.vec with landing := c.vec.landing ++ [l] } } : Ctx).signed id none

/-- Nothing that an access of one vector register at v, kM and the governed width needs is missing (R358). -/
def Ctx.vFree (c : Ctx) (v km : Nat) : Prop :=
  c.vHeld [v] [km] [] = false ∧ (c.vec.gpen = true → (c.readP c.vec.gp).2 = c.vec.wcode)

/-! ### What the manual says of the engines' instructions -/

/-- The words of the matrix stream's queue and of the copy stream's (Tables 17-7, 14-1): those a stream decodes and its engine carries. -/
def engineWord (st : Strm) (i : Instr) : Bool :=
  match i with
  | .mzero .. | .astc _ | .mma .. | .mmaRange .. | .mdrain .. | .mdraint .. | .mld .. | .wq .. => decide (st = .m)
  | .barm .. | .bwait _ | .cpyTensorTile .. | .cpyTileTensor .. | .cpyTensorTensor .. | .cpyTileTile .. | .cpys .. | .cpf .. | .wld ..
  | .rput .. | .rget .. => decide (st = .y)
  | .oadd .. | .osub .. | .omul .. | .oand .. | .oshl .. | .oshr .. | .omin .. | .omax .. | .oaddi .. | .oli .. | .qpop .. | .qpush .. | .sigc =>
    decide (st = .m ∨ st = .y)
  | .csrr _ n => decide (st = .m ∨ st = .y) && csrReads st n
  | .csrw n _ | .csrwi n _ => decide (st = .m ∨ st = .y) && csrWrites st n
  | _ => false

/-- Nothing stands before the executing instruction in its engine, it has no prefix, and no error from outside stands for its stream or in
the register file. -/
structure State.alone (s : State) : Prop where
  rob : s.me.rob = []
  queue : s.here.queue s.cur.st = []
  pfx : s.me.pfx = none
  rpt : s.me.rpt = none
  runs : s.me.faulted = false ∧ s.me.stopReq = false
  clean : s.here.regCheck = [] ∧ s.hitOf s.cur.ctx s.cur.st = none

/-- Packets of tile rows have been handed to the die's fabric behind those that wait; of the fabric and of the rest, the tiles apart, nothing
else has changed (R16, R153). -/
def State.sendsRows (s u : State) : Prop :=
  u = { s with tiles := u.tiles, fab := { s.fab with slices := u.fab.slices, pktNext := u.fab.pktNext } } ∧ s.fab.slices <+: u.fab.slices

/-- What the engine instructions that are done at once make of their context (R390, R401, R406, R309, R312). -/
def State.engineSpec (s : State) (i : Instr) : Option (Ctx → Ctx) :=
  let st := s.cur.st
  let o := s.here.readO st
  let w := fun (d : Nat) (v : Int) => some fun (c : Ctx) => c.writeO st d (BitVec.ofInt 32 v)
  let u := fun r => ((o r).toNat : Int)
  let mat := fun (f : MatSt → MatSt) => some fun (c : Ctx) => { c with mat := f c.mat }
  if !engineWord st i then none
  else match i with
  | .oadd d a b => w d (u a + u b)
  | .osub d a b => w d (u a - u b)
  | .omul d a b => w d (u a * u b)
  | .oand d a b => some fun c => c.writeO st d (o a &&& o b)
  | .oshl d a b => w d (u a * 2 ^ ((o b).toNat % 32))
  | .oshr d a b => w d (u a / 2 ^ ((o b).toNat % 32))
  | .omin d a b => w d (Min.min (o a).toInt (o b).toInt)
  | .omax d a b => w d (Max.max (o a).toInt (o b).toInt)
  | .oaddi d a imm => w d (u a + imm)
  | .oli d imm => w d imm
  | .mzero a pair => mat fun x => { x with acc := if pair then (x.acc.set (a / 2 * 2) 0).set (a / 2 * 2 + 1) 0 else x.acc.set a 0 }
  | .astc a => mat fun x => { x with astat := x.astat &&& ~~~((31 : Half) <<< (5 * a)) }
  | .barm r b => some fun c => { c with cpy := { c.cpy with bar := c.cpy.bar.set b (c.cpy.bar.get b 0 + o r) } }
  | .bwait b => if (s.here.cpy.bar.get b 0).toInt ≤ 0 then some id else none
  | .csrr d n => some fun c => c.writeO st d (BitVec.ofNat 32 (s.csr s.cur.ctx st n))
  | .csrw _ r => mat fun x => { x with astat := BitVec.ofNat 32 ((o r).toNat % 2 ^ 28) }
  | .csrwi _ imm => mat fun x => { x with astat := BitVec.ofNat 32 (imm % 2 ^ 28) }
  | .sigc => if s.here.team.pclass ≠ 2 then some id else none
  | _ => none

/-- Operands, first K-step and number of K-steps of an `mma` (R391). -/
def State.mmaSpec (s : State) (i : Instr) : Option (Nat × Bool × Nat × Desc × Desc × Nat × Nat) :=
  let go := fun acc da db z cls (range : Option (Nat × Nat)) =>
    let a := descOf (s.here.readD da)
    let b := descOf (s.here.readD db)
    let ks := Nat.min (kStepLen a.fmt) (kStepLen b.fmt)
    let steps := (a.e0 + 1 + ks - 1) / ks
    some (acc, z, cls, a, b, match range with
      | some (os, oc) => ((s.here.readO .m os).toNat, (s.here.readO .m oc).toNat)
      | none => (0, steps))
  match i with
  | .mma acc da db z cls => go acc da db z cls none
  | .mmaRange acc da db os oc z cls => go acc da db z cls (some (os, oc))
  | _ => none

/-- The checks of R392. -/
def mmaRefused (acc : Nat) (a b : Desc) (first count : Nat) : Prop :=
  a.bad = true ∨ b.bad = true ∨ kindOfFmt a.fmt ≠ kindOfFmt b.fmt ∨ a.e0 ≠ b.e0 ∨ 128 < a.e1 + 1 ∨ 64 < b.e1 + 1 ∨
    (a.fmt = 0 ∧ acc % 2 = 1) ∨ (a.e0 + 1 + Nat.min (kStepLen a.fmt) (kStepLen b.fmt) - 1) / Nat.min (kStepLen a.fmt) (kStepLen b.fmt) < first + count

/-- An engine instruction has taken a fault at its beginning: it stands in the queue with nothing committed, the record names it, and the
stream has stopped (R239). -/
structure State.entryFaults (s t : State) (i : Instr) (r : FaultRec) : Prop where
  elsewhere : s.sameElsewhere t
  bytes : s.sameBytes t
  stopped : t.me.faulted = true
  record : ∃ cp sp, t.here.frec.get (strmIx s.cur.st) {} =
    { r with valid := true, st := s.cur.st, pc := s.cur.pc, since := s.now, cpos := cp, spos := sp, entry := 0 }
  entry : ∃ q, t.here.queue s.cur.st = [q] ∧ q.instr = i ∧ q.cpos = 0 ∧ q.faulted = true
  regs : t.here.mat.acc = s.here.mat.acc ∧ t.here.mat.astat = s.here.mat.astat ∧ t.here.mat.o = s.here.mat.o ∧
    t.here.cpy.o = s.here.cpy.o ∧ t.here.cpy.bar = s.here.cpy.bar

/-- The executing engine instruction stands alone in its queue, begun or not, and its own registers apart nothing else of the engines has
changed. -/
structure State.takesUp (s t : State) (i : Instr) (q : QEntry) : Prop where
  elsewhere : s.sameElsewhere t
  queue : t.here.queue s.cur.st = [q]
  instr : q.instr = i ∧ q.pc = s.cur.pc ∧ q.cpos = 0 ∧ q.done = false ∧ q.faulted = false
  rob : t.me.rob = [⟨q.id, false, 0, s.cur.pc, 0, [], none⟩]
  offs : t.here.mat.o = s.here.mat.o ∧ t.here.cpy.o = s.here.cpy.o ∧ t.here.cpy.bar = s.here.cpy.bar

/-- The data bytes of a class 2 store of the control stream that enter its signature word behind the address (R107). -/
def State.heldBytes (s : State) (i : Instr) : List Byte :=
  match i with
  | .st _ gs _ _ lsz _ => bytesOf (s.readG gs).toNat (2 ^ lsz)
  | .dst _ dn _ _ => bytesOf (s.here.readD dn).toNat 64
  | .wadd _ gs f64 _ => bytesOf (s.readG gs).toNat (if f64 then 8 else 4)
  | .amoadd _ _ gs .. | .amoand _ _ gs .. | .amoor _ _ gs .. | .amoxor _ _ gs .. | .amomin _ _ gs .. | .amomax _ _ gs .. | .amoswp _ _ gs .. =>
    bytesOf (s.readG gs).toNat 8
  | _ => []

/-! ### What the manual says of the ordering machine -/

/-- The access `a` stands in the class queues of a stream between `pre` and `post`, with an identifier of its own. -/
def StreamSt.queues (x : StreamSt) (pre : List Access) (a : Access) (post : List Access) : Prop :=
  x.cq = pre ++ a :: post ∧ ∀ e ∈ pre ++ post, e.id ≠ a.id

/-- Nothing else of the module than its contexts, its ordering machine and its latency windows has changed, and no other context. -/
def State.onlyOrder (s t : State) (k : Nat) : Prop :=
  t = { s with ctxs := t.ctxs, ord := t.ord, mem := { s.mem with window := t.mem.window, missSig := t.mem.missSig } } ∧
    ∀ j, j ≠ k → t.ctx j = s.ctx j

/-- The bytes of `bs` have become `f` of themselves in the view of `die`, and every other byte of every view is as before. -/
def State.viewSet (s t : State) (die : Nat) (bs : List (Nat × Byte)) (f : DvByte → Byte → DvByte) : Prop :=
  ∀ d l, t.dvByte d l =
    match bs.find? fun b => b.1 == l with
    | some b => if d = die then f (s.dvByte die l) b.2 else s.dvByte d l
    | none => s.dvByte d l

/-- A byte that holds no pending identifier becomes VALID with a value and its writer; another stays (Table 7-4). -/
def takeByte (id : Nat) (old : DvByte) (v : Byte) : DvByte :=
  if old.pend = none then { valid := true, val := v, writer := id, pend := none } else old

/-- A byte that holds no pending identifier becomes INVALID; another stays (V3). -/
def dropByte (old : DvByte) (_ : Byte) : DvByte := if old.pend = none then { old with valid := false } else old

/-- Bytes of the next part of an access that move in a step for which `n` bytes are named: all of them when the access is single-copy atomic or
`n` is 0 (R168). -/
def Access.stepBytes (a : Access) (p : Sys2Proof.Machine.Part) (n : Nat) : List (Nat × Byte) :=
  if a.single = true ∨ n = 0 then p.bytes else p.bytes.take n

/-- The parts left of `p :: rest` when its first `n` bytes have moved. -/
def partsLeft (p : Sys2Proof.Machine.Part) (rest : List Sys2Proof.Machine.Part) (n : Nat) : List Sys2Proof.Machine.Part :=
  if p.bytes.length ≤ n then rest else { p with bytes := p.bytes.drop n } :: rest

/-- A stream may send a message: the die is not draining, and the slot is open to its partition (R47, R60). -/
def State.maySend (s : State) (k : Nat) : Prop := s.slotOpen (dieOf k) (s.ctx k).vf = true ∧ s.draining (dieOf k) = false

/-- Only the ordering machine has changed, and who waits for a line. -/
def State.onlyWaiters (s t : State) : Prop :=
  t = { s with ord := t.ord, mem := { s.mem with waiters := t.mem.waiters, fillBad := t.mem.fillBad } }

/-- Only the ordering machine has changed. -/
def State.onlyOrd (s t : State) : Prop := t = { s with ord := t.ord }

/-- The bytes `bs` of a granule at HBM address `addr` have been written, and every other byte of the HBM is as before. -/
def State.hbmSet (s t : State) (addr : Nat) (bs : List (Nat × Byte)) : Prop :=
  (∀ b ∈ bs, t.hbmByte (addr + b.1 % 2 ^ 21) = b.2) ∧ ∀ a, (∀ b ∈ bs, a ≠ addr + b.1 % 2 ^ 21) → t.hbmByte a = s.hbmByte a

/-- The message at the head of UP(die, line) waits at a FREE line whose home answers it: the granule is at address `addr` of memory die `m`,
which admits the message in this cycle (R33, R35, R60, R74, R171). -/
def State.arrives (s : State) (die line : Nat) (u : Up) (m addr : Nat) : Prop :=
  s.upHead die line = some u ∧ s.lineFree line = true ∧ s.homeAt u = .at_ m addr ∧ s.slotOpen (Config.memDie m) u.vf = true ∧
    s.admits m u.vf = true ∧ s.mem.hbmCheck = [] ∧ s.memWf

/-- The messages that a home sends: one to each of a list of dies. -/
def downTo (dies : List Nat) (line at_ : Nat) (m : DnMsg) : List Dn := dies.map fun d => ⟨d, line, m, false, at_⟩

/-! ### What the manual says of translation and of granules -/

/-- Lowest VA bit and number of VA bits that index a table of a level, with log2 of the table's size (Table 2-4). -/
def tableLevel (level : Nat) : Nat × Nat × Nat :=
  match level with
  | 0 => (43, 13, 16)
  | 1 => (30, 13, 16)
  | 2 => (21, 9, 12)
  | _ => (16, 5, 8)

/-- Guest-physical address of the entry that a virtual address selects in a table of a level (R36). -/
def entryAddr (va base level : Nat) : Nat := base + 8 * fld va (tableLevel level).1 (tableLevel level).2.1

/-- ADDR of a stage-1 entry (Table 2-5). -/
def entryTarget (e : Nat) : Nat := 256 * fld e 8 40

/-- A malformed entry of a level (R37): a reserved bit is not zero, LEAF is 1 at level 0 or 0 at level 3, or ADDR is not aligned to the page
it maps or the table it points to. -/
def malformed (level e : Nat) : Prop :=
  fld e 48 16 ≠ 0 ∨ fld e 5 3 ≠ 0 ∨ (bit e 1 = true ∧ level = 0) ∨ (bit e 1 = false ∧ level = 3) ∨
    (bit e 1 = true ∧ entryTarget e % 2 ^ (tableLevel level).1 ≠ 0) ∨
    (bit e 1 = false ∧ level < 3 ∧ entryTarget e % 2 ^ (tableLevel (level + 1)).2.2 ≠ 0)

/-- The table entries `es`, from the table at `base` of a level on, are valid pointers and lead to the table at `to`. -/
def State.leads (s : State) (die vf va base level : Nat) (es : List Nat) (tgt : Nat) : Prop :=
  match es with
  | [] => base = tgt
  | e :: rest => s.tableEntry die vf (entryAddr va base level) = (.page 0 0 true true true, e) ∧ bit e 0 = true ∧ bit e 1 = false ∧
      ¬ malformed level e ∧ s.leads die vf va (entryTarget e) (level + 1) rest tgt

/-- Only the memory system has changed. -/
def State.onlyMem (s t : State) : Prop := t = { s with mem := t.mem }

/-- The home-table entry of a slot has become `v` in L0 and in every live die, and every other entry of every copy is as before (R34). -/
def State.homeSet (s t : State) (slot : Nat) (v : BitVec 32) : Prop :=
  (∀ g, t.masterHome g = if g = slot then v else s.masterHome g) ∧
    ∀ d g, t.homeEntry d g = if g = slot ∧ d < Config.dies ∧ s.isLive d = true then v.toNat else s.homeEntry d g

/-- Bit f of the free-frame map of memory die `m` (R35). -/
def State.frameFree (s : State) (m f : Nat) : Bool := (s.ffWord m (f / 32)).getLsbD (f % 32)

/-- Frame f of memory die `m` has become free or taken, and no other frame has changed. -/
def State.frameSet (s t : State) (m f : Nat) (free : Bool) : Prop :=
  ∀ n g, n < 4 → g < 2 ^ 16 → t.frameFree n g = if n = m ∧ g = f then free else s.frameFree n g

/-- The stage-2 entry of a slot at memory die `m` has become `v`, and no other entry has changed. -/
def State.stage2Set (s t : State) (m slot v : Nat) : Prop :=
  ∀ n g, g < Config.slots → t.stage2 n g = if n = m ∧ g = slot then v else s.stage2 n g

/-- Memory die `m` is the first, from quadrant q on, that is live and has a free frame, and f is its lowest (R43). -/
def State.firstRoom (s : State) (q m f : Nat) : Prop :=
  ∃ j, j < 4 ∧ m = (q + j) % 4 ∧ s.isLive (Config.memDie m) = true ∧ s.lowestFree m = some f ∧
    ∀ i, i < j → s.isLive (Config.memDie ((q + i) % 4)) = false ∨ s.lowestFree ((q + i) % 4) = none

/-! ### What the manual says of stored words -/

/-- The log entry of a corrected or an uncorrectable error at a place (Table 5-5). -/
def EccLog.entry (e : EccLog) (place : Nat × Nat × Nat) (bad : Bool) : EccLog :=
  let up := fun (x : BitVec 32) => if x = 0xFFFFFFFF then x else x + 1
  { kind := place.2.1, addrh := BitVec.ofNat 16 (place.2.2 / 2 ^ 32), addrl := BitVec.ofNat 32 place.2.2
    uecnt := if bad then up e.uecnt else e.uecnt, cecnt := if bad then e.cecnt else up e.cecnt }

/-- The stored word `w` has become its corrected data `d` with fresh check bits, and every other stored word is as before. -/
def State.corrected (s t : State) (w : EccWord) (d : Nat) : Prop :=
  t.planted w = false ∧ t.wordData w = d ∧
    ∀ v, (∀ m n m' n', v = .hbm m n → w = .hbm m' n' → n ≠ n') → v ≠ w → t.planted v = s.planted v ∧ t.wordData v = s.wordData v

/-- The HBM words named by `words` that hold a single-bit error have been corrected, and every other HBM word is as before; nothing else but
logs and history has changed. -/
def State.swept (s t : State) (words : Nat → Prop) : Prop :=
  (∀ w d, words w → s.planted (.hbm 0 w) = true → s.readWord (.hbm 0 w) = .fixed d → t.planted (.hbm 0 w) = false ∧ t.hbmWord w = d) ∧
  (∀ w, ¬ (words w ∧ s.planted (.hbm 0 w) = true ∧ ∃ d, s.readWord (.hbm 0 w) = .fixed d) →
    t.planted (.hbm 0 w) = s.planted (.hbm 0 w) ∧ t.hbmWord w = s.hbmWord w) ∧
  t = { s with mem := { s.mem with hbm := t.mem.hbm, hbmCheck := t.mem.hbmCheck, history := t.mem.history }, pf := { s.pf with ecc := t.pf.ecc } }

/-! ### What the manual says of the function windows -/

/-- Only the physical function's registers have changed. -/
def State.onlyPf (s t : State) : Prop := t = { s with pf := t.pf }

/-- What a write of a management-window register of one 32-bit word makes of the physical function's registers, by offset, where the manual gives
the register no other behaviour (Table 3-2). -/
def pfRegister (pf : PfSt) (off v : Nat) : Option PfSt :=
  let w := BitVec.ofNat 32 v
  if off = 0x4000 then some { pf with migEn := bit v 31, migThr := v % 256 }
  else if off = 0x4100 then some { pf with drstDie := v % 64 }
  else if off = 0x4600 then some { pf with fwAddr := (pf.fwAddr >>> 32 <<< 32) ||| w.zeroExtend 64 }
  else if off = 0x4604 then some { pf with fwAddr := (pf.fwAddr &&& 0xFFFFFFFF) ||| (w.zeroExtend 64 <<< 32) }
  else if off = 0x4608 then some { pf with fwLen := w }
  else none

/-- Two weight windows share no unit (R398). -/
def apart (a b : Two) : Prop :=
  let lo := fun (w : Two) => fld w.w0.toNat 0 12
  let n := fun (w : Two) => fld w.w1.toNat 0 13
  n a = 0 ∨ n b = 0 ∨ lo a + n a ≤ lo b ∨ lo b + n b ≤ lo a

/-- Every grid point that stood at a place has left it or is to leave it: a preload that stands `on` it is withdrawn, and what runs and has
`lost` it is stopping, or is due to be pre-empted by the next scheduler step (R75, R119, Table 4-6). -/
def State.vacates (t : State) (on lost : Inst → Bool) : Prop :=
  ∀ i ∈ t.sched.insts, (on i = true → i.stat ≠ .preloaded) ∧ (lost i = true → i.stat = .running → i.stopping = true ∨ i.due = true)

/-- A message on an interrupt entry of a function: sent when the entry is granted and not masked, pending when it is masked; nothing else of the
registers has changed (R69). -/
def State.messages (s t : State) (fn : Fn) (e : Nat) : Prop :=
  let k := 16 * fnIx fn + e
  let masked := s.pf.msixMask.get k true
  t.pf = { s.pf with msixOut := t.pf.msixOut, msixPend := t.pf.msixPend } ∧
    t.pf.msixOut = (if e < s.vectors fn ∧ masked = false then (fn, e) :: s.pf.msixOut else s.pf.msixOut) ∧
    ∀ n, t.pf.msixPend.get n false = if n = k ∧ e < s.vectors fn ∧ masked = true then true else s.pf.msixPend.get n false

/-- A queue of a partition has become `x`, and no other register of a function window has changed. -/
def State.queueSet (s t : State) (vf q : Nat) (x : Queue) : Prop :=
  t.queue vf q = x ∧ (∀ r, r ≠ q → t.queue vf r = s.queue vf r) ∧ (∀ n, n ≠ vf → t.vfs.get n {} = s.vfs.get n {}) ∧
    t.vfs.get vf {} = { s.vfs.get vf {} with queues := (t.vfs.get vf {}).queues }

/-- The conditions of R62 on a queue's configuration. -/
def State.queueConfigured (s : State) (vf : Nat) (x : Queue) : Prop :=
  4 ≤ x.qlog ∧ x.qlog ≤ 16 ∧ 4 ≤ x.clog ∧ x.clog ≤ 16 ∧ x.qbase.toNat % 512 = 0 ∧ x.cbase.toNat % 32 = 0 ∧ x.vec < fld (s.pctl vf).w1.toNat 0 12

/-- A queue that runs and has a card to fetch, in a partition that no checkpoint has stopped (R63, R130). -/
def State.hasCard (s : State) (vf q : Nat) : Prop :=
  vf < 512 ∧ q < 4 ∧ (s.vfs.get vf {}).ckstatus ≠ 1 ∧ (s.queue vf q).stat = 1 ∧ (s.queue vf q).pidx ≠ (s.queue vf q).cidx

/-- Every must-be-zero field of a card of 64 quadwords is zero, and SUCCN and FPN are in their ranges (R64). -/
def zeroFields (quad : Nat → Nat) : Prop :=
  let regions := Nat.min (fld (quad 6) 16 5) 16
  fld (quad 0) 25 7 = 0 ∧ fld (quad 0) 14 2 = 0 ∧ fld (quad 1) 57 7 = 0 ∧ fld (quad 3) 56 8 = 0 ∧ fld (quad 4) 56 8 = 0 ∧ fld (quad 5) 56 8 = 0 ∧
    fld (quad 6) 45 19 = 0 ∧ fld (quad 6) 28 4 = 0 ∧ fld (quad 6) 21 3 = 0 ∧ quad 7 = 0 ∧ (∀ i, i < 4 → quad (28 + i) = 0) ∧
    (∀ n, n < 8 → fld (quad (8 + n)) 40 24 = 0 ∧ (fld (quad 0) 16 4 ≤ n → quad (8 + n) = 0)) ∧
    fld (quad 6) 24 4 ≤ 8 ∧ (∀ n, n < 8 → fld (quad 6) 24 4 ≤ n → fld (quad (16 + n / 2)) (32 * (n % 2)) 32 = 0) ∧ fld (quad 6) 16 5 ≤ 16 ∧
    ∀ n, n < 16 → if n < regions then fld (quad (32 + 2 * n)) 56 8 = 0 ∧ fld (quad (33 + 2 * n)) 42 22 = 0
      else quad (32 + 2 * n) = 0 ∧ quad (33 + 2 * n) = 0

/-- Place of `n` in a rotation over `m` members whose next turn is `turn`. -/
def rotated (turn m n : Nat) : Nat := if turn ≤ n then n else n + m

/-! ### What the manual says of power and of the rails -/

/-- Effective cap of a die in watts under a COOLANT value: areas in tenths of cm², CHF in tenths of W/cm² (R25). -/
def capWatts (coolant die : Nat) : Nat :=
  let limit := if die < 16 then 190 else if die < 32 then 40 else if die < 36 then 90 else 150
  let area := if die < 16 then 120 else if die < 32 then 40 else if die < 36 then 50 else 60
  if bit coolant 31 then Nat.min limit (fld coolant 0 16 * area * fld coolant 16 8 / 25600) else limit

/-- Whether a telemetry slot names a rail (R23, Table 1-5). -/
def railSlot (n : Nat) : Prop := (n < 148 ∧ n % 4 < (if 32 ≤ n / 4 ∧ n / 4 < 36 then 4 else 3)) ∨ n = 148 ∨ n = 149

/-- STATE that a measurement of a connector reaches (R29). -/
def connState (idx metric : Nat) : Nat :=
  if idx = 0 then (if 500 ≤ metric then 2 else if 200 ≤ metric then 1 else 0)
  else if 26844 ≤ metric then 2 else if 2684 ≤ metric then 1 else 0

/-- Cycles of a beat between its strips (R16). -/
def Beat.hops (b : Beat) : Nat := if b.src ≤ b.dst then b.dst - b.src else b.src - b.dst

/-- A beat in transit is at a strip of a rail in a cycle of its die. -/
def Beat.isAt (b : Beat) (die col : Nat) (south : Bool) (strip now : Nat) : Prop :=
  b.die = die ∧ b.col = col ∧ b.south = south ∧ now ≤ b.at_ + b.hops ∧
    strip = if south then b.src + (now - b.at_) else b.src - (now - b.at_)

/-! ### What the manual says of dies and links that leave -/

/-- Die `x` has left and has reset: DLIVE does not show it, its views, caches and contexts hold nothing, its counter reads zero, and nothing
travels to or from it on the line channels (R30, R47, R167). -/
def State.hasLeft (s t : State) (x : Nat) : Prop :=
  (∀ d, t.isLive d = (decide (d ≠ x) && s.isLive d)) ∧ t.cycle x = 0 ∧ (∀ l, (t.dvByte x l).readable = false) ∧ t.mem.tlb.get x [] = [] ∧
    t.mem.missq.get x [] = [] ∧ (x < 16 → ∀ k, k / 64 = x → t.ctx k = {}) ∧ (∀ u ∈ t.ord.up, u.die ≠ x) ∧ (∀ d ∈ t.ord.dn, d.die ≠ x) ∧
    (∀ f ∈ t.ord.fills, f.1 ≠ x) ∧ (∀ a, t.hbmByte a = s.hbmByte a) ∧ ∀ d l, d ≠ x → t.dvByte d l = s.dvByte d l

/-- L0 has installed route tables that avoid the dies `avoid` and the links that have failed; dovetail entries on their way have new routes, or
their senders a write error; with none on its way nothing else has changed (R45, R46). -/
def State.retabled (s t : State) (avoid : List Nat) : Prop :=
  t = { s with ctxs := t.ctxs, fab := { s.fab with tabDies := avoid, tabLinks := s.fab.linksDown, transit := t.fab.transit
                                                   railWait := t.fab.railWait, beats := t.fab.beats } } ∧
    (s.fab.transit = [] → t.ctxs = s.ctxs ∧ t.fab.transit = [] ∧ t.fab.railWait = s.fab.railWait ∧ t.fab.beats = s.fab.beats)

/-- The write errors of the stream that pushed a dovetail entry (R159). -/
def State.pushErrs (s : State) (t : Transit) : List WErr := (s.strm t.fromCtx (if t.fromReg / 2 = 0 then .m else if t.fromReg / 2 = 1 then .v else .y)).werr

/-- The grid points on a die are lost: a class 2 grid point keeps no copy there, and the task of any other ends with status 6 and a code, unless
it is ending already (R117, R255). -/
def State.losesOn (s t : State) (die code : Nat) : Prop :=
  (∀ i ∈ s.sched.insts, i.stat = .running → (i.teams.any fun p => p.die == die) = true →
    (∀ k ∈ s.sched.tasks, k.seq = i.seq → k.card.pclass ≠ 2) →
    ∀ k ∈ t.sched.tasks, k.seq = i.seq → ∃ k0 ∈ s.sched.tasks, k0.seq = k.seq ∧ k.ending = some (k0.ending.getD (6, code, 0))) ∧
  ((s.sched.insts.map Inst.id).Nodup → ∀ i ∈ t.sched.insts, i.stat = .running →
    (∃ k ∈ s.sched.tasks, k.seq = i.seq) → (∀ k ∈ s.sched.tasks, k.seq = i.seq → k.card.pclass = 2) → ∀ p ∈ i.teams, p.die ≠ die)

/-- MCSTAT after a machine check: a second one is not logged (R255). -/
def McStat.after (m : McStat) (kind die src : Nat) : McStat := if m.valid then m else ⟨true, kind, die, src⟩

/-! ### What the manual says of the scheduler -/

/-- A completion record has been written at CTAIL of a queue, which is one further, and no other byte of host memory has changed (R63, R66). -/
def State.recorded (s t : State) (vf q : Nat) (r : Record) : Prop :=
  let x := s.queue vf q
  let at_ := (x.cbase.toNat + 32 * (x.ctail.toNat % 2 ^ x.clog)) % 2 ^ 64
  let ph := 1 - x.ctail.toNat / 2 ^ x.clog % 2
  (t.queue vf q).ctail = x.ctail + 1 ∧
    t.hostNat at_ 8 = r.status % 2 ^ 8 * 2 ^ 8 + ph * 2 ^ 24 + r.err % 2 ^ 4 * 2 ^ 28 + r.tag % 2 ^ 32 * 2 ^ 32 ∧
    t.hostNat (at_ + 8) 8 = r.cyc % 2 ^ 48 ∧ t.hostNat (at_ + 16) 8 = r.seq % 2 ^ 48 ∧ t.hostNat (at_ + 24) 8 = r.fva % 2 ^ 64 ∧
    ∀ a, a < at_ ∨ at_ + 32 ≤ a → t.hostByte a = s.hostByte a

/-- A queue's completion ring has room for a record, at an aligned place (R62, R68). -/
def State.ringRoom (s : State) (vf q : Nat) : Prop :=
  let x := s.queue vf q
  x.heldRecs = [] ∧ (x.ctail - x.chead).toNat < 2 ^ x.clog ∧ x.cbase.toNat % 32 = 0 ∧ Memory.wf Config.hostPowerOnByte s.mem.host = true

/-- Check 1 of Table 3-9 on a card and its inline regions: must-be-zero fields are zero and every field lies in its range (Table 3-8). -/
def Card.made (c : Card) : Prop :=
  c.mbz = true ∧ c.version = 1 ∧ c.eng ≠ 0 ∧ 1 ≤ c.nstage ∧ c.nstage ≤ 8 ∧ c.pclass ≤ 2 ∧ c.gx ≠ 0 ∧ c.gy ≠ 0 ∧ c.gz ≠ 0 ∧ c.ttab % 64 = 0 ∧
    c.ovf % 16 = 0 ∧ c.ttabn ≤ 4096 ∧ (c.ttabn = 0 → c.ttab = 0) ∧ (∀ g ∈ c.stages, g.1 ≠ 0 ∧ g.2 % 2 = 0) ∧ ∀ r ∈ c.regions, r.len ≠ 0

/-- Two regions have a byte in common (R77). -/
def Region.overlaps (a b : Region) : Prop := a.base < b.base + b.len ∧ b.base < a.base + a.len

/-- An overlapping pair of regions makes an edge: not both read, and not both wide-cell add (Table 4-2). -/
def edgeTo (us ts : List Region) : Prop :=
  ∃ a ∈ us, ∃ b ∈ ts, a.overlaps b ∧ ¬ (a.mode = 0 ∧ b.mode = 0) ∧ ¬ (a.mode = 3 ∧ b.mode = 3)

/-- A written region overlaps a read one (Table 3-9 check 5). -/
def selfOverlap (rs : List Region) : Prop := ∃ a ∈ rs, ∃ b ∈ rs, (a.mode = 1 ∨ a.mode = 2) ∧ (b.mode = 0 ∨ b.mode = 2) ∧ a.overlaps b

/-- Some compute die has TEAM + 1 cores on which the partition uses engines of every kind that the card needs (Table 3-9 check 4). -/
def State.hasEngines (s : State) (vf : Nat) (c : Card) : Prop :=
  ∃ d, d < 16 ∧ c.team + 1 ≤ ((List.range 16).filter fun col => s.ownsAll vf (16 * d + col) c.eng).length

/-- A scheduler step is due, in a fourth cycle of L0 with no module check in force, and it finds no epoch, no signal, no line of a preload
and no pool engine that serves a partition (R58, R75, R255). -/
def State.quietStep (s : State) : Prop :=
  s.pf.modCheck = false ∧ (s.cycle Config.linkDie).toNat % 4 = 0 ∧ s.prot.epochs = [] ∧ s.sched.tsigs = [] ∧ s.sched.entryLines = [] ∧
    ∀ e ∈ s.pf.own, s.pf.poolNow.get e.1 none = none

/-- Nothing is left for a step's phases but what is fetched: no grid point, and every task waits. -/
def State.onlyWaiting (s : State) : Prop :=
  s.quietStep ∧ s.sched.insts = [] ∧ ∀ t ∈ s.sched.tasks, t.stat = .waiting ∧ t.ending = none ∧ t.underflow = false ∧ t.retry = []

/-- The one fetched card is of a partition that may take it (R63, Table 3-5). -/
def State.oneCard (s : State) (vf q : Nat) (c : Card) : Prop :=
  s.sched.fetched = [(vf, q, c)] ∧ (s.vfs.get vf {}).ckstatus ≠ 1 ∧ (s.pctl vf).w0.getLsbD 31 = true

/-- Every stream of the contexts is asked to stop, every other context is as before, and the grid point `id` has save areas in the order of its
contexts (R95, R249). -/
def State.stops (s t : State) (i : Inst) (areas : List Nat) : Prop :=
  t.pf = s.pf ∧ (∀ k ∈ i.ctxs, ∀ st, t.strm k st = { s.strm k st with stopReq := true }) ∧ (∀ k, k ∉ i.ctxs → t.ctx k = s.ctx k) ∧
    t.mem = s.mem ∧ t.ord = s.ord ∧
    ∃ j ∈ t.sched.insts, j.id = i.id ∧ j.stat = .running ∧ j.stopping = true ∧ j.waitArea = false ∧ j.areas.map Prod.fst = areas ∧ j.teams = i.teams

/-! ### What the manual says of saving and of epochs -/

/-- The grid point `i` holds context `k`, is being stopped, and its stream `st` there is asked to stop and not saved yet (R95, R246). -/
def State.mustSave (s : State) (k : Nat) (st : Strm) (i : Inst) : Prop :=
  s.instOf k = some i ∧ k ∈ i.ctxs ∧ i.stopping = true ∧ (s.strm k st).stopReq = true ∧ (s.strm k st).saved = false

/-- The context as its stream `st` is saved, a control or vector stream: the first one saved fixes the deadlock count (R95). -/
def Ctx.savedWith (c : Ctx) (st : Strm) (x : StreamSt) (now : Nat) : Ctx :=
  { c.setStrm st x with idleFrom := if (allStrms.any fun t => (c.strm t).saved) then c.idleFrom else now - c.idleFrom }

/-- A saved control or vector stream: a `wait` of the control stream in cycles keeps the cycles that remain (R246). -/
def StreamSt.savedAt (x : StreamSt) (st : Strm) (now : Nat) : StreamSt :=
  { x with saved := true, waitN := if st = .v then x.waitN else x.waitN - now }

/-- Streams of a context that have started (R137). -/
def Ctx.started (c : Ctx) (st : Strm) : Prop := (c.strm st).stat = .run

/-- What counts towards the deadlock fault of a context: it lives, some stream has started, and every started stream is blocked with no producer in
flight (R96). -/
def State.deadEnd (s : State) (k : Nat) : Prop :=
  let c := s.ctx k
  c.live = true ∧ (∃ st, c.started st) ∧ (∀ st, (c.strm st).stopReq = false) ∧ (∀ st, c.started st → (c.strm st).faulted = false ∧ s.blocked k st = true) ∧
    s.producing k = false

/-- The accesses that a released epoch's held stores become: fresh identifiers from `first` on, in held order (R113, R189). -/
def releasedAccs (first now : Nat) (as_ : List Access) : List Access :=
  as_.zipIdx.map fun p => { p.1 with id := first + p.2, rob := 0, held := true, acq := false, sink := .none, at_ := now }

/-- The epoch `p` of a key is the next to be performed, and context `k` performs its records (R112, R113; notes/assumptions/97.md). -/
def State.releasing (s : State) (key : Nat) (p : Epoch) (e : EKey) (i : Inst) (k : Nat) : Prop :=
  s.nextReleased key = some p ∧ s.prot.keys.find? (fun e => e.key == key) = some e ∧ s.instOfKey e = some i ∧ i.performer e p = some k

/-- The epoch `p` has become `p'`, and no other epoch has changed. -/
def State.epochSet (s t : State) (p p' : Epoch) : Prop :=
  t.prot = { s.prot with epochs := s.prot.epochs.map fun q => if q.key = p.key ∧ q.n = p.n then p' else q }

/-! ### Steps -/

/-- Whether a word is a sync prefix or `rpt`, which stands before an instruction and waits for nothing (R284, R286, R287). -/
def standsBefore (i : Instr) : Bool := match i with | .syncPrefix .. | .rpt .. => true | _ => false

/-- The state in which the instruction at a stream's boundary has passed its prefix, if it can pass it now: an instruction of an engine's
queue takes its tokens, any other takes them and decides on its guard; a `wait` does not wait for queued instructions (R143, R300). -/
def State.passed (s : State) (k : Nat) (st : Strm) (i : Instr) : Option State :=
  if standsBefore i then some s
  else if queued st i then (if ((s.await k st).strm k st).hasTokens then some (s.await k st) else none)
  else if ((s.ctx k).mayGate st || (match i with | .wait _ => true | _ => false)) && decide ((s.gate k st).2 = some false) then some (s.gate k st).1
  else none

/-- The repeat prefix of a stream as its instruction issues: the order is sampled at the first iteration (R235, R287). -/
def StreamSt.sampled (x : StreamSt) (order : Nat) : Option Rpt := x.rpt.map fun r => { r with k := some (r.k.getD order) }

/-- The instruction that a repeat prefix makes of one for its present iteration (R287); an engine's queue takes the instruction with its
prefix. -/
def StreamSt.repeated (x : StreamSt) (order : Nat) (st : Strm) (i : Instr) : Option Instr :=
  match x.sampled order with
  | none => some i
  | some r => if maskFits st r.mask i then (if queued st i then some i else iteration st r i) else none

/-- The module right after cold reset: at the start, or by a cold reset at any time. -/
def State.afterReset (s : State) : Prop := s = State.reset ∨ ∃ u : State, exec .moduleColdReset u = .next s

end Sys2Proof.Machine
end

