-- ==== Sys2Proof/Certificates/Slice0/Obligations.lean ====
section
/-!
DEFINITION. Sys2Proof/Certificates/Slice0/Obligations.lean: the statements for the provers.
-/

open Sys2Proof Sys2Proof.Machine

/-! ### The control stream -/

/-- R315, R317 to R322: an integer instruction whose sources have been written writes its result, g0 stays 0, and nothing else changes. -/
def Obligations.ControlArithmetic : Prop :=
  ∀ (i : Instr) (s : State) (d : Nat) (srcs : List Nat) (v : Word),
    aluSpec i s.readG = some (d, srcs, v) → s.here.gReady srcs = true → s.settled →
    ∃ t, exec i s = .next t ∧ (∀ r, t.readG r = if r = d ∧ d ≠ 0 then v else s.readG r) ∧
      s.passes t true fun c => { c with g := t.here.g, gpend := c.gpend.filter fun p => p.1 ≠ d, regCheck := c.checkG d }

/-- R323 to R331, R349: a load, store, atomic or wide-cell instruction whose sources are ready and whose address passes the checks puts its
accesses at the end of the class queues, its destination waits for the value, and nothing else changes: no byte is stored yet. In class 2
this holds of the reads. Where the spec leaves a point open it follows the model's reading (notes/assumptions, entry 9). -/
def Obligations.MemoryIssue : Prop :=
  ∀ (i : Instr) (s : State) (m : MemSpec) (locs : List Nat) (e : Nat),
    s.memSpec i = some m → s.here.gReady m.srcs = true → (∀ gr dn glob cls, i = .dst gr dn glob cls → s.here.dReady dn = true) →
    s.me.syncFault m.sync = none → m.va % m.align = 0 →
    s.chkBytes s.cur.ctx m.check (vasOf m.va m.size) = .ok locs e → (s.here.team.pclass ≠ 2 ∨ m.check = 0) → s.settled →
    ∃ t, exec i s = .next t ∧ s.passes t false (fun c => c.withAccs s.cur.st m.dest s.ord.nextId (m.accs locs e))

/-- R323, R239, R316: a memory instruction whose address is misaligned takes ALIGN; one that stage 1 refuses takes XLATE with the kind and
level that translation gives; no register, no byte and no access is changed. -/
def Obligations.MemoryFaults : Prop :=
  ∀ (i : Instr) (s : State) (m : MemSpec),
    s.memSpec i = some m → s.here.gReady m.srcs = true → (∀ gr dn glob cls, i = .dst gr dn glob cls → s.here.dReady dn = true) →
    s.me.syncFault m.sync = none → (s.here.team.pclass ≠ 2 ∨ m.check = 0) → s.mayFault →
    (m.va % m.align ≠ 0 → ∃ t, exec i s = .next t ∧ s.faults t { cause := cALIGN, fva := m.va }) ∧
    (∀ k l va, m.va % m.align = 0 → s.chkBytes s.cur.ctx m.check (vasOf m.va m.size) = .bad k l va → k < 8 →
      ∃ t u : State, exec i s = .next t ∧ u = { s with mem := { s.mem with walkBad := u.mem.walkBad } } ∧
        u.faults t { cause := cXLATE, tkind := k, level := l, fva := va })

/-- R301, R302, R335, R285, R139: a branch that is not taken passes; one that is taken to a block header goes there, and the blocks that do
not hold the target close; one that is taken to anything else takes CTLINT with SUB 0. Where the spec leaves a point open it follows the
model's reading (notes/assumptions, entry 18). -/
def Obligations.Branches : Prop :=
  ∀ (i : Instr) (s : State) (srcs : List Nat) (taken : Bool) (a : Nat),
    s.branchSpec i = some (srcs, taken, a) → s.here.gReady srcs = true → s.settled →
    (taken = false → ∃ t, exec i s = .next t ∧ s.passes t true id) ∧
    (taken = true → s.target s.cur.ctx a = .header → ∃ t, exec i s = .next t ∧ s.goesTo t a id) ∧
    (taken = true → s.target s.cur.ctx a = .other → s.mayFault → ∃ t, exec i s = .next t ∧ s.faults t { cause := cCTLINT })

/-- R336 to R338: `call` writes the return PC to g31 and pushes it, or takes CTLINT with SUB 2 when 512 entries are present; `ret`, the word
0x5002, pops the entry that equals g31 and goes there, header or not, where the blocks open before and holding the return PC stay open with
their counts; with g31 another or the stack empty it takes CTLINT, with SUB 1 or 3, and nothing else changes. -/
def Obligations.CallAndReturn : Prop :=
  ∀ (s : State) (off : Int), s.settled →
    (s.here.shadow.length < 512 → s.target s.cur.ctx (s.relTo off) = .header →
      ∃ t, exec (.call off) s = .next t ∧ s.goesTo t (s.relTo off) fun c =>
        { c.writeG 31 (BitVec.ofNat 64 s.cur.next) with shadow := BitVec.ofNat 64 s.cur.next :: c.shadow }) ∧
    (512 ≤ s.here.shadow.length → s.mayFault → ∃ t, exec (.call off) s = .next t ∧ s.faults t { cause := cCTLINT, sub := 2 }) ∧
    (∀ top rest, s.here.shadow = top :: rest → s.here.gReady [31] = true → s.readG 31 = top →
      ∃ t, exec .ret s = .next t ∧ s.goesTo t top.toNat fun c => { c with shadow := rest }) ∧
    (∀ top rest, s.here.shadow = top :: rest → s.here.gReady [31] = true → s.readG 31 ≠ top → s.mayFault →
      ∃ t, exec .ret s = .next t ∧ s.faults t { cause := cCTLINT, sub := 1 }) ∧
    (s.here.shadow = [] → s.here.gReady [31] = true → s.mayFault → ∃ t, exec .ret s = .next t ∧ s.faults t { cause := cCTLINT, sub := 3 }) ∧
    decodeTableWord 16 0x5002 = some .ret

/-- R339, R323, R338: `jt` falls through for an index of n or more; else it issues one read of 8 bytes in class 0 and stays, or takes ALIGN or
XLATE on the entry's address; when the entry has been read it goes to the block header that the entry names, or takes CTLINT: SUB 4 for an
entry with bits [63:56], SUB 0 for one that names no header, and nothing is kept of the entry, so that a Retry executes `jt` again. Where the
spec leaves a point open it follows the model's reading (notes/assumptions, entry 18). -/
def Obligations.JumpTable : Prop :=
  ∀ (s : State) (ga gb n : Nat), s.settled →
    let va := (s.readG gb + 8 * s.readG ga).toNat
    (s.me.mpos = 0 → (∀ a ∈ s.me.cq ++ s.me.redo.map Prod.fst, a.sink ≠ .jump s.cur.pc) → s.here.gReady [ga, gb] = true →
      (n ≤ (s.readG ga).toNat → ∃ t, exec (.jt ga gb n) s = .next t ∧ s.passes t true id) ∧
      (∀ locs e, (s.readG ga).toNat < n → va % 8 = 0 → s.chkBytes s.cur.ctx 0 (vasOf va 8) = .ok locs e →
        ∃ t r, exec (.jt ga gb n) s = .next t ∧ s.sameElsewhere t ∧ s.sameBytes t ∧ r.done = false ∧
          t.here = s.here.setStrm .c { s.here.sc with
            cq := s.here.sc.cq ++ [newAccess s.ord.nextId 0 .read (readParts locs) (.jump s.cur.pc) va s.cur.pc e s.clock]
            rob := s.here.sc.rob ++ [r] }) ∧
      ((s.readG ga).toNat < n → va % 8 ≠ 0 → s.mayFault → ∃ t, exec (.jt ga gb n) s = .next t ∧ s.faults t { cause := cALIGN, fva := va }) ∧
      (∀ k l v, (s.readG ga).toNat < n → va % 8 = 0 → s.chkBytes s.cur.ctx 0 (vasOf va 8) = .bad k l v → k < 8 → s.mayFault →
        ∃ t u : State, exec (.jt ga gb n) s = .next t ∧ u = { s with mem := { s.mem with walkBad := u.mem.walkBad } } ∧
          u.faults t { cause := cXLATE, tkind := k, level := l, fva := v })) ∧
    (∀ e, s.me.mpos = e + 1 → e < 2 ^ 56 → s.me.faulted = false → s.target s.cur.ctx e = .header →
      ∃ t, exec (.jt ga gb n) s = .next t ∧ s.goesTo t e id) ∧
    (∀ e sub, s.me.mpos = e + 1 → (2 ^ 56 ≤ e ∧ sub = 4 ∨ e < 2 ^ 56 ∧ s.target s.cur.ctx e = .other ∧ sub = 0) → s.mayFault →
      ∃ t u : State, exec (.jt ga gb n) s = .next t ∧ s.faults u { cause := cCTLINT, sub := sub } ∧ t.here.frec = u.here.frec ∧
        s.sameElsewhere t ∧ s.sameBytes t ∧ t.me = { s.me with faulted := true, mpos := 0 })

/-- R340, R137: `fork` starts every named stream at its entry block with no block open when every target is a header and every named stream
is IDLE on an engine that the partition uses here; else it takes CTLINT with SUB 0, or STREAM, and starts none. -/
def Obligations.ForkStarts : Prop :=
  ∀ (s : State) (set : Nat) (om ov oy : Int), s.settled → s.cur.st = .c →
    ((∀ p ∈ s.forkSpec set om ov oy, s.target s.cur.ctx p.2 = .header) →
      ((∀ p ∈ s.forkSpec set om ov oy, (s.here.strm p.1).stat = .idle ∧ s.ownsEngine s.here.vf (s.cur.ctx / 4) (kindOf p.1) = true) →
        ∃ t, exec (.fork set om ov oy) s = .next t ∧ s.passes t true fun c =>
          (s.forkSpec set om ov oy).foldl (fun c p => c.upStrm p.1 fun x =>
            { x with stat := .run, pc := p.2, fp := p.2, blocks := [], pfx := none, rpt := none, discard := false, committed := false, mpos := 0 }) c) ∧
      ((∃ p ∈ s.forkSpec set om ov oy, (s.here.strm p.1).stat ≠ .idle ∨ s.ownsEngine s.here.vf (s.cur.ctx / 4) (kindOf p.1) = false) →
        s.mayFault → ∃ t, exec (.fork set om ov oy) s = .next t ∧ s.faults t { cause := cSTREAM })) ∧
    ((∃ p ∈ s.forkSpec set om ov oy, s.target s.cur.ctx p.2 = .other) → s.mayFault →
      ∃ t, exec (.fork set om ov oy) s = .next t ∧ s.faults t { cause := cCTLINT })

/-- R138, R341, R303: `rdv` retires when no engine stream runs and makes them IDLE, and holds while one runs; `end` of an engine stream makes
it ARRIVED and closes its blocks, and `end` of the control stream waits as `rdv` does, makes them IDLE and ends it. -/
def Obligations.RendezvousAndEnd : Prop :=
  ∀ (s : State), s.me.rob = [] →
    (s.cur.st = .c → s.here.gathered = true → (∃ tok, pushTokens s.here.tok (pushKeys .c s.me.pushes) = some tok) →
      ∃ t, exec .rdv s = .next t ∧ s.passes t true Ctx.allIdle) ∧
    (s.cur.st = .c → s.here.gathered = true → pushTokens s.here.tok (pushKeys .c s.me.pushes) = none →
      ∃ t r, exec .rdv s = .next t ∧ s.passes t true id ∧ t.me.rob = [r] ∧ r.eff = [.idle]) ∧
    (s.here.gathered = false → exec .rdv s = .next s) ∧
    (s.me.syncFault 65535 = none → s.here.team.pclass ≠ 2 → (∃ tok, pushTokens s.here.tok (pushKeys s.cur.st s.me.pushes) = some tok) →
      (s.cur.st ≠ .c → (s.cur.st = .v → s.here.vec.landing = []) →
        ∃ t u : State, exec .endS s = .next t ∧ s.passes u true id ∧ s.sameElsewhere t ∧
          t.here = u.here.upStrm s.cur.st fun x => { x with stat := .arrived, blocks := [] }) ∧
      (s.cur.st = .c → s.here.hmode = false → s.here.gathered = true →
        ∃ t u v : State, exec .endS s = .next t ∧ s.passes u true Ctx.allIdle ∧ s.sameElsewhere v ∧ t = { v with tiles := t.tiles } ∧
          v.here = (u.here.upStrm .c fun x => { x with stat := .ended, blocks := [] }) ∧
          ∀ key, t.tile key =
            if key.level = 0 ∧ key.owner = s.cur.ctx then none
            else if key.level = 1 ∧ key.owner = s.here.team.team ∧ v.teamEnded s.here.team.team then none
            else s.tile key) ∧
      (s.cur.st = .c → s.here.hmode = false → s.here.gathered = false → exec .endS s = .next s))

/-- R344, R345: `talloc` allocates a tile that reads zero, or takes TILE with the SUB of the first condition that holds; `tfree` frees the
handle once nothing in flight reaches it, or takes TILE with SUB 5. -/
def Obligations.TileHandles : Prop :=
  ∀ (s : State) (h ga gb : Nat), s.me.rob = [] →
    let rows := (s.readG ga).toNat
    let rb := (s.readG gb).toNat
    let key := s.here.tileKey s.cur.ctx h
    let units := tileUnits (tileLevel h) rows rb
    let shape := 1 ≤ rows ∧ rows ≤ 65536 ∧ rb % 64 = 0 ∧ 64 ≤ rb ∧ rb ≤ 16384
    let room := s.tileRoom s.cur.ctx (tileLevel h) (units * unitBytes (tileLevel h)) = true
    let share := s.shareFits s.cur.ctx (tileLevel h) units = true
    (s.here.gReady [ga, gb] = true →
      (shape → s.tile key = none → room → share →
        ∃ t u : State, exec (.talloc h ga gb) s = .next t ∧ (∃ x : Tile, t.tile key = some x ∧ x.rows = rows ∧ x.rb = rb ∧ ∀ r b, x.byte r b = 0) ∧
          (∀ j, j ≠ key → t.tile j = s.tile j) ∧ u = { s with tiles := u.tiles } ∧ u.passes t true id) ∧
      (s.mayFault →
        (¬ shape → ∃ t, exec (.talloc h ga gb) s = .next t ∧ s.faults t { cause := cTILE, sub := 1, fva := h }) ∧
        (shape → s.tile key ≠ none → ∃ t, exec (.talloc h ga gb) s = .next t ∧ s.faults t { cause := cTILE, sub := 2, fva := h }) ∧
        (shape → s.tile key = none → ¬ room → ∃ t, exec (.talloc h ga gb) s = .next t ∧ s.faults t { cause := cTILE, sub := 3, fva := h }) ∧
        (shape → s.tile key = none → room → ¬ share →
          ∃ t, exec (.talloc h ga gb) s = .next t ∧ s.faults t { cause := cTILE, sub := 4, fva := h }))) ∧
    ((∀ q ∈ s.here.mat.queue, q.done = true ∨ q.names .m h = false) → (∀ q ∈ s.here.cpy.queue, q.done = true ∨ q.names .y h = false) →
      s.vNames h = false →
      (∀ a ∈ s.here.sv.cq ++ s.here.sv.redo.map Prod.fst, a.kind ≠ .tile h) →
      (s.tile key ≠ none → ∃ t u : State, exec (.tfree h) s = .next t ∧ t.tile key = none ∧ (∀ j, j ≠ key → t.tile j = s.tile j) ∧
        u = { s with tiles := u.tiles } ∧ u.passes t true id) ∧
      (s.tile key = none → s.mayFault → ∃ t, exec (.tfree h) s = .next t ∧ s.faults t { cause := cTILE, sub := 5, fva := h }))

/-- R347, R348, R351: `dset` writes one field of a shape register and `dget` reads one; `dld` issues the read of entry g of the tensor
table, or takes DESC beyond its end; `qdepth` reads the depth of a queue, and 0 for an engine that the partition does not use here. Where
the spec leaves a point open it follows the model's reading (notes/assumptions, entry 20). -/
def Obligations.ShapeRegisters : Prop :=
  ∀ (s : State) (dn gr field cls : Nat), s.settled → s.here.dReady dn = true →
    let lo := (descField field).1
    let w := (descField field).2
    (∃ t, exec (.dget gr dn field) s = .next t ∧
      (∀ r, t.readG r = if r = gr ∧ gr ≠ 0 then BitVec.ofNat 64 ((s.here.readD dn).extractLsb' lo w).toNat else s.readG r) ∧
      s.passes t true fun c => { c with g := t.here.g, gpend := c.gpend.filter fun p => p.1 ≠ gr, regCheck := c.checkG gr }) ∧
    (s.here.gReady [gr] = true →
      (s.cur.st = .c → s.me.rob = [] → (∃ tok, pushTokens s.here.tok (pushKeys .c s.me.pushes) = some tok) →
        ∃ t, exec (.dset dn gr field) s = .next t ∧
        (t.here.readD dn).extractLsb' lo w = (s.readG gr).setWidth w ∧
        (∀ b, b < 512 → (b < lo ∨ lo + w ≤ b) → (t.here.readD dn).getLsbD b = (s.here.readD dn).getLsbD b) ∧
        (∀ r, r ≠ dn → t.here.readD r = s.here.readD r) ∧ s.passes t true fun c => { c with d := t.here.d, regCheck := c.checkD dn }) ∧
      (s.here.team.ttabn ≤ (s.readG gr).toNat → s.mayFault → ∃ t, exec (.dld dn gr cls) s = .next t ∧ s.faults t { cause := cDESC }) ∧
      (∀ locs e, (s.readG gr).toNat < s.here.team.ttabn →
        (s.here.team.ttab + 64 * (s.readG gr).toNat) % 64 = 0 →
        s.chkBytes s.cur.ctx 0 (vasOf (s.here.team.ttab + 64 * (s.readG gr).toNat) 64) = .ok locs e →
        ∃ t, exec (.dld dn gr cls) s = .next t ∧ s.passes t false fun c =>
          { c.withAccs s.cur.st none s.ord.nextId [newAccess s.ord.nextId cls .read (readParts locs) (.shape dn (s.readG gr).toNat false)
              (s.here.team.ttab + 64 * (s.readG gr).toNat) s.cur.pc e s.clock] with dpend := (dn, s.ord.nextId) :: c.dpend })) ∧
    (∀ qn oper kind, ∃ t, exec (.qdepth gr qn oper kind) s = .next t ∧
      (∀ r, t.readG r = if r = gr ∧ gr ≠ 0 then
          (if s.ownsEngine s.here.vf (s.cur.ctx / 4) kind then
            (if oper then BitVec.ofNat 64 (s.here.oq.get (2 * kind + qn) []).length
             else BitVec.ofNat 64 ((s.here.rq.get (2 * kind + qn) []).length + s.inTransit s.cur.ctx (2 * kind + qn)))
           else 0)
        else s.readG r) ∧
      s.passes t true fun c => { c with g := t.here.g, gpend := c.gpend.filter fun p => p.1 ≠ gr, regCheck := c.checkG gr })

/-- R350, R144: a guard write that issues with nothing unretired before it takes effect as it retires: the slot holds the value, the other
slots are as before. -/
def Obligations.GuardWrites : Prop :=
  ∀ (i : Instr) (s : State) (srcs : List Nat) (slot : Nat) (v : Guard),
    s.guardSpec i = some (srcs, slot, v) → s.here.gReady srcs = true → s.cur.st = .c → s.me.rob = [] →
    (∃ tok, pushTokens s.here.tok (pushKeys .c s.me.pushes) = some tok) →
    ∃ t u : State, exec i s = .next t ∧ s.passes u true id ∧ s.sameElsewhere t ∧ t.here = { u.here with guard := t.here.guard } ∧
      t.here.readGuard slot = v ∧ ∀ n, n ≠ slot → t.here.readGuard n = s.here.readGuard n

/-- R332, R334, R342, R176: `fence` enters every class queue of its mask as one access and waits there; `tsig` first fences every class at
system scope; `pf` puts a read of its line into its class queue that returns nothing, and one that fails a check is dropped. Where the spec
leaves a point open it follows the model's reading (notes/assumptions, entry 19). -/
def Obligations.FencesAndSignals : Prop :=
  ∀ (s : State), s.settled → s.here.team.pclass ≠ 2 →
    (∀ scope mask, s.me.syncFault mask = none →
      ∃ t, exec (.fence scope mask) s = .next t ∧ s.passes t false fun c =>
        c.withAccs s.cur.st none s.ord.nextId [newAccess s.ord.nextId 0 (.fence mask scope) [] .none 0 s.cur.pc 0 s.clock]) ∧
    (∀ ga, s.here.gReady [ga] = true → s.me.syncFault 65535 = none →
      ∃ t, exec (.tsig ga) s = .next t ∧ s.passes t false fun c =>
        c.withAccs s.cur.st none s.ord.nextId
          [newAccess s.ord.nextId 0 (.fence 65535 4) [] (.tsig ((s.readG ga).setWidth 32).toNat) 0 s.cur.pc 0 s.clock]) ∧
    (∀ gb off cls, s.here.gReady [gb] = true →
      let line := s.vaOf gb (off * 64) / 64 * 64
      (∀ locs, s.chkBytes s.cur.ctx 0 (vasOf line 64) = .ok locs 0 →
        ∃ t, exec (.pf gb off cls) s = .next t ∧ s.passes t false fun c =>
          c.withAccs s.cur.st none s.ord.nextId [newAccess s.ord.nextId cls .prefetch (readParts locs) .none line s.cur.pc 0 s.clock]) ∧
      (∀ locs e, s.chkBytes s.cur.ctx 0 (vasOf line 64) = .ok locs (e + 1) →
        ∃ t, exec (.pf gb off cls) s = .next t ∧ s.passes t true id) ∧
      (∀ k l va, s.chkBytes s.cur.ctx 0 (vasOf line 64) = .bad k l va →
        ∃ t u : State, exec (.pf gb off cls) s = .next t ∧ u = { s with mem := { s.mem with walkBad := u.mem.walkBad } } ∧ u.passes t true id))

/-- R333: with every register's address permitted, `spill` puts one 8-byte store and `fill` one 8-byte read for each register into the class
queue, in ascending register order at ascending addresses, and the registers of a `fill` wait for their values. Where the spec leaves a
point open it follows the model's reading (notes/assumptions, entry 37). -/
def Obligations.SpillAndFill : Prop :=
  ∀ (s : State) (gf gb n cls : Nat) (locs : Nat → List Nat) (e : Nat → Nat), s.settled → s.me.mpos = 0 →
    (s.readG gb).toNat % 8 = 0 →
    let va := fun j => ((s.readG gb).toNat + 8 * j) % 2 ^ 64
    (∀ glob, s.here.team.pclass ≠ 2 → s.here.gReady (gb :: (List.range (n + 1)).map (gf + ·)) = true →
      (∀ j, j ≤ n → s.chkBytes s.cur.ctx 1 (vasOf (va j) 8) = .ok (locs j) (e j)) →
      ∃ t, exec (.spill gf gb n glob cls) s = .next t ∧ s.passes t false fun c =>
        c.withAccs s.cur.st none s.ord.nextId ((List.range (n + 1)).map fun j =>
          { newAccess (s.ord.nextId + j) cls (if glob then .global else .early) (groupParts (withBytes (locs j) (s.readG (gf + j)).toNat)) .none
              (va j) s.cur.pc (e j) s.clock with rob := s.ord.nextId, unit := j })) ∧
    (s.here.gReady [gb] = true → (∀ j, j ≤ n → s.chkBytes s.cur.ctx 0 (vasOf (va j) 8) = .ok (locs j) (e j)) →
      ∃ t, exec (.fill gf gb n cls) s = .next t ∧ s.passes t false fun c =>
        ((List.range (n + 1)).foldl (fun c j => c.pendG (gf + j) (s.ord.nextId + j)) c).withAccs s.cur.st none s.ord.nextId
          ((List.range (n + 1)).map fun j =>
            { newAccess (s.ord.nextId + j) cls .read (readParts (locs j)) (.gReg (gf + j) 8 false) (va j) s.cur.pc (e j) s.clock with
              rob := s.ord.nextId, unit := j }))

/-- R297, R313, R314: in a partition without the privilege the diagnostic stores take PRIV; with it, in class 2, PROTECT; else `dstc` puts a
store of the codeword into class 0, and `dstc.sram` of a VA writes the word into the die's view, VALID, with its check bits. -/
def Obligations.DiagnosticStores : Prop :=
  ∀ (s : State) (ga gb gc : Nat), s.here.gReady [ga, gb, gc] = true →
    (s.isPriv s.here.vf = false → s.mayFault →
      (∃ t, exec (.dstc ga gb gc) s = .next t ∧ s.faults t { cause := cPRIV }) ∧
      (∃ t, exec (.dstcSram ga gb gc) s = .next t ∧ s.faults t { cause := cPRIV })) ∧
    (s.isPriv s.here.vf = true → s.here.team.pclass = 2 → s.mayFault →
      (∃ t, exec (.dstc ga gb gc) s = .next t ∧ s.faults t { cause := cPROTECT }) ∧
      (∃ t, exec (.dstcSram ga gb gc) s = .next t ∧ s.faults t { cause := cPROTECT })) ∧
    (s.isPriv s.here.vf = true → s.here.team.pclass ≠ 2 → s.settled →
      let va := (s.readG ga).toNat
      let w64 := dstcWord 64 7 (s.readG gb).toNat (s.readG gc).toNat
      let w32 := dstcWord 32 6 (s.readG gb).toNat (s.readG gc).toNat
      (∀ locs e, va % 8 = 0 → s.chkBytes s.cur.ctx 1 (vasOf va 8) = .ok locs e →
        ∃ t, exec (.dstc ga gb gc) s = .next t ∧ s.passes t false fun c =>
          c.withAccs s.cur.st none s.ord.nextId [newAccess s.ord.nextId 0 (.dstc (BitVec.ofNat 8 w64.2)) (groupParts (withBytes locs w64.1)) .none
            va s.cur.pc e s.clock]) ∧
      (∀ loc, va < 2 ^ 63 → va % 4 = 0 → s.me.classIdle 0 = true → s.chkBytes s.cur.ctx 1 (vasOf va 4) = .ok [loc, loc + 1, loc + 2, loc + 3] 0 →
        ∃ t u : State, exec (.dstcSram ga gb gc) s = .next t ∧ u.passes t true id ∧ u = { s with ord := u.ord } ∧
          (∀ j, j < 4 → (t.dvByte (dieOf s.cur.ctx) (loc + j)).valid = true ∧ (t.dvByte (dieOf s.cur.ctx) (loc + j)).val = byteOf w32.1 j) ∧
          (∀ die l, die ≠ dieOf s.cur.ctx ∨ l < loc ∨ loc + 4 ≤ l → t.dvByte die l = s.dvByte die l) ∧
          (loc % 4 = 0 → w32.2 ≠ eccCode 32 6 w32.1 → (t.ord.dvCheck.get (dieOf s.cur.ctx) []).get (loc / 4) 0 = BitVec.ofNat 7 w32.2)))

/-- R103, R107, R329: in class 2 an atomic that returns its old value takes PROTECT; a plain store, wide-cell add or atomic that returns
nothing enters the open epoch of its copy as a held store, its address and data enter the signature word, and it retires; no byte is stored.
Where the spec leaves a point open it follows the model's reading (notes/assumptions, entries 59 and 96). -/
def Obligations.HeldStores : Prop :=
  ∀ (i : Instr) (s : State) (m : MemSpec), s.memSpec i = some m → s.here.team.pclass = 2 → s.cur.st = .c → m.check ≠ 0 →
    s.here.gReady m.srcs = true → (∀ gr dn glob cls, i = .dst gr dn glob cls → s.here.dReady dn = true) →
    (m.dest.getD 0 ≠ 0 → s.mayFault → ∃ t, exec i s = .next t ∧ s.faults t { cause := cPROTECT }) ∧
    (∀ locs err a ek, m.dest.getD 0 = 0 → (∀ gd gb gs sc f cls, i ≠ .cas gd gb gs sc f cls) → m.sync = 0 → s.settled → m.va % m.align = 0 →
      s.chkBytes s.cur.ctx m.check (vasOf m.va m.size) = .ok locs err → m.accs locs err = [a] → s.ekey s.cur.ctx .c = some ek →
      let n := a.records
      let p := s.epoch ek.key s.me.epoch
      s.holdStalls s.cur.ctx .c = false → s.me.recs + n < Config.epochRecords → p.stat ≠ .release → (s.sigLog ek.key).count ≤ s.me.epoch →
      p.key = ek.key → p.n = s.me.epoch →
      ∃ t u : State, exec i s = .next t ∧ u = { s with prot := { s.prot with epochs := u.prot.epochs } } ∧
        u.passes t true (fun c => c.upStrm .c fun x =>
          { x with crc := crcBytes x.crc (bytesOf m.va 8 ++ s.heldBytes i), recs := x.recs + n }) ∧
        t.epoch ek.key s.me.epoch =
          { p with recs := p.recs.set s.here.team.copy (p.recs.get s.here.team.copy [] ++ [.store { a with sink := .none } m.va]) })

/-! ### Words of every stream -/

/-- R282 to R289, R300, R312: a header opens its block or, at depth 4 or past the end of an enclosing block, is an illegal instruction; a
prefix stands before the next word; `wait` n holds its stream for n + 1 cycles of the die's counter, or n + 1 issue slots of the vector
stream; `sigc` does nothing outside class 2. -/
def Obligations.StreamWords : Prop :=
  ∀ (s : State), s.settled →
    (∀ cnt len, s.me.blocks.length < 4 → (∀ b ∈ s.me.blocks, s.cur.pc + 2 * len ≤ b.hdr + 2 * b.len) →
      ∃ t, exec (.blk cnt len) s = .next t ∧ s.passes t true fun c => c.upStrm s.cur.st fun x => { x with blocks := ⟨s.cur.pc, len, cnt⟩ :: x.blocks }) ∧
    (∀ cnt len, (4 ≤ s.me.blocks.length ∨ ∃ b ∈ s.me.blocks, b.hdr + 2 * b.len < s.cur.pc + 2 * len) → s.mayFault →
      ∃ t, exec (.blk cnt len) s = .next t ∧ s.faults t { cause := cILLEGAL }) ∧
    (∀ push wset gen slot sense, (push ≠ 0 ∨ wset ≠ 0 ∨ gen = true) →
      ∃ t, exec (.syncPrefix push wset gen slot sense) s = .next t ∧ s.sameElsewhere t ∧ s.sameBytes t ∧
        t.here = s.here.upStrm s.cur.st fun x => { x with pfx := some ⟨push, wset, gen, slot, sense, false, false⟩, fp := s.cur.next }) ∧
    (∀ g step mask n, mask ≠ 0 →
      ∃ t, exec (.rpt g step mask n) s = .next t ∧ s.sameElsewhere t ∧ s.sameBytes t ∧
        t.here = s.here.upStrm s.cur.st fun x => { x with rpt := some ⟨g, step, mask, n + 1, 0, none⟩, fp := s.cur.next }) ∧
    (∀ n, s.cur.st ≠ .v → ∃ t u : State, exec (.wait n) s = .next t ∧ s.passes u true id ∧ s.sameElsewhere t ∧
      t.here = u.here.upStrm s.cur.st fun x => { x with waitN := s.clock + n + 1 }) ∧
    (∀ n, s.cur.st = .v → s.me.waitN = 0 → s.here.vec.landing = [] → ∃ t, exec (.wait n) s = .next t ∧ t.here.vec.slot = s.here.vec.slot + n + 1 ∧
      s.passes t true fun c => { c with vec := { c.vec with slot := c.vec.slot + n } }) ∧
    (s.cur.st = .c ∨ s.cur.st = .v → s.here.team.pclass ≠ 2 → ∃ t, exec .sigc s = .next t ∧ s.passes t true id)

/-- R304, R239, R241: `brk` and `svc` raise their traps: the instruction passes, and the record of its stream names the trap, the immediate
and the instruction's PC; the stream stops. Where the spec leaves a point open it follows the model's reading (notes/assumptions, entry 39).
-/
def Obligations.Traps : Prop :=
  ∀ (s : State) (imm : Nat), s.mayFault →
    (∃ t u : State, exec (.brk imm) s = .next t ∧ s.passes u true id ∧ u.faults t { cause := cBREAK, sub := imm }) ∧
    (∃ t u : State, exec (.svc imm) s = .next t ∧ s.passes u true id ∧ u.faults t { cause := cSVC, sub := imm })

/-- R183, R242, R244, R285: with HVEC.EN = 1 and HMODE = 0, at an instruction boundary and once what R183 waits for is over, a VALID record is
delivered: the control stream's PC is saved in HSTAT, HMODE is set,
and the control stream goes on at the handler's entry block, with the blocks that hold it open; no other register changes. With HVEC.EN = 0
the task of a class 0 or 1 instance ends with status 6, ERR and FVA. -/
def Obligations.FaultDelivery : Prop :=
  ∀ (s : State) (k : Nat) (f : FaultRec), (s.ctx k).live = true → (s.ctx k).sc.stopReq = false → (s.ctx k).firstFault = some f →
    let c := s.ctx k
    let entry := c.hvec.toNat % 2 ^ 56
    (c.hvec.getLsbD 63 = true → c.hmode = false → s.target k entry = .header → (c.sc.faulted = true ∨ c.sc.inside = false) →
      (∀ st, (st = .c ∨ (c.frec.get (strmIx st) {}).valid = true) → s.left183 k st = true) →
      ∃ t, exec (.faultDelivery k) s = .next t ∧ t = { s with ctxs := t.ctxs } ∧ (∀ j, j ≠ k → t.ctx j = s.ctx j) ∧
        (t.ctx k).hpc = BitVec.ofNat 56 c.sc.pc ∧ (t.ctx k).hmode = true ∧
        (t.ctx k).sc = { c.sc with faulted := false, waitN := 0, pc := entry, fp := entry, blocks := c.sc.blocks.filter (fun b => b.holds entry),
                                   pfx := none, rpt := none, discard := false, committed := false, mpos := 0 } ∧
        t.ctx k = { c with hpc := (t.ctx k).hpc, hmode := true, mustDeliver := false, dvbWait := [], hsave := (t.ctx k).hsave, sc := (t.ctx k).sc } ∧
        ∃ h, (t.ctx k).hsave = some h ∧ h.blocks = c.sc.blocks ∧ h.pfx = c.sc.pfx ∧ h.rpt = c.sc.rpt ∧ h.pc = c.sc.pc) ∧
    (c.hvec.getLsbD 63 = false → c.team.pclass ≠ 2 →
      ∃ t, exec (.faultDelivery k) s = .next t ∧ t.sched.tasks = s.sched.tasks.map fun x =>
        if x.seq = c.team.seq ∧ x.ending = none then { x with ending := some (6, (s.firstRecord k).err, (s.firstRecord k).fva) } else x)

/-- R243, R305: `eret` in a handler whose delivered records ask for Retry or Skip clears those records, clears HMODE and returns the control
stream to HSTAT.PC with the blocks that delivery saved; no g register and no byte changes. Outside a handler it is an illegal instruction.
Where the spec leaves a point open it follows the model's reading (notes/assumptions, entry 28). -/
def Obligations.HandlerReturn : Prop :=
  ∀ (s : State) (h : HSave), s.cur.st = .c →
    (s.here.hmode = true → s.here.hsave = some h → s.me.rob = [] → (∀ n ∈ h.dlv, n < 4 ∧ s.here.act.get n 0 ≠ 2) →
      ∃ t, exec .eret s = .next t ∧ s.sameElsewhere t ∧ s.sameBytes t ∧ t.here.hmode = false ∧ t.here.hsave = none ∧
        t.here.sc.pc = s.here.hpc.toNat ∧ t.here.sc.blocks = h.blocks ∧ (∀ r, t.readG r = s.readG r) ∧
        (∀ n ∈ h.dlv, (t.here.frec.get n {}).valid = false) ∧
        (∀ n, n < 4 → n ∉ h.dlv → t.here.frec.get n {} = s.here.frec.get n {})) ∧
    (s.here.hmode = false → s.mayFault → ∃ t, exec .eret s = .next t ∧ s.faults t { cause := cILLEGAL })

/-- R297, R306: `halt` asks for its task's ending with status 7 in a partition with the privilege and changes no other task; without the
privilege it takes PRIV. -/
def Obligations.HaltPrivilege : Prop :=
  ∀ (s : State), 
    (s.isPriv s.here.vf = true → s.me.rob = [] →
      ∃ t u : State, exec .halt s = .next t ∧ s.passes u true id ∧ t = { u with sched := { u.sched with tasks := t.sched.tasks } } ∧
        t.sched.tasks = s.sched.tasks.map fun x => if x.seq = s.here.team.seq ∧ x.ending = none then { x with ending := some (7, 0, 0) } else x) ∧
    (s.isPriv s.here.vf = false → s.mayFault → ∃ t, exec .halt s = .next t ∧ s.faults t { cause := cPRIV })

/-- R309, R310, Tables 14-2 to 14-5: the control stream reads a readable CSR into g and takes an illegal-instruction trap for another one;
its write of HVEC, HSTAT or FRSEL takes effect as it retires and leaves the reserved and read-only fields; TLBINV takes PRIV without the
privilege; a vector CSR write applies to the vector stream's registers at once. Where the spec leaves a point open it follows the model's
reading (notes/assumptions, entry 43). -/
def Obligations.CsrReadsAndWrites : Prop :=
  ∀ (s : State) (reg n : Nat), 
    (s.cur.st = .c → csrReads .c n = true → s.me.csrPending = false → s.settled →
      ∃ t, exec (.csrr reg n) s = .next t ∧
        (∀ r, t.readG r = if r = reg ∧ reg ≠ 0 then BitVec.ofNat 64 (s.csr s.cur.ctx .c n) else s.readG r) ∧
        s.passes t true fun c => { c with g := t.here.g, gpend := c.gpend.filter fun p => p.1 ≠ reg, regCheck := c.checkG reg }) ∧
    (s.cur.st = .c → csrReads .c n = false → s.mayFault → ∃ t, exec (.csrr reg n) s = .next t ∧ s.faults t { cause := cILLEGAL }) ∧
    (∀ i v, s.cur.st = .c → s.me.rob = [] → (∃ tok, pushTokens s.here.tok (pushKeys .c s.me.pushes) = some tok) →
      ((i = .csrw n reg ∧ s.here.gReady [reg] = true ∧ v = s.readG reg) ∨ (∃ imm, i = .csrwi n imm ∧ v = BitVec.ofNat 64 imm)) →
      (n = 1 → ∃ t u : State, exec i s = .next t ∧ s.passes u true id ∧ s.sameElsewhere t ∧ t.here = { u.here with hvec := t.here.hvec } ∧
        t.here.hvec.getLsbD 63 = v.getLsbD 63 ∧ t.here.hvec.extractLsb' 0 56 = v.extractLsb' 0 56 ∧ t.here.hvec.extractLsb' 56 7 = 0) ∧
      (n = 2 → ∃ t u : State, exec i s = .next t ∧ s.passes u true id ∧ s.sameElsewhere t ∧ t.here = { u.here with hpc := v.extractLsb' 8 56 }) ∧
      (n = 3 → ∃ t u : State, exec i s = .next t ∧ s.passes u true id ∧ s.sameElsewhere t ∧
        t.here = { u.here with sel := (v.extractLsb' 0 2).toNat, act := t.here.act } ∧
        (∀ j, t.here.act.get j 0 = if j = (v.extractLsb' 0 2).toNat ∧ (v.extractLsb' 8 2).toNat ≠ 3 then (v.extractLsb' 8 2).toNat
          else s.here.act.get j 0)) ∧
      (n = 48 → s.isPriv s.here.vf = false → s.mayFault → ∃ t, exec i s = .next t ∧ s.faults t { cause := cPRIV }) ∧
      (n = 48 → s.isPriv s.here.vf = true → s.here.tlbinv.getLsbD 63 = false → ∃ t, exec i s = .next t ∧
        s.passes t true fun c => { c with tlbinv := BitVec.ofNat 64 (2 ^ 63 + (v.toNat &&& 0x7FF000FFFFFFFFFF)) })) ∧
    (∀ imm, s.cur.st = .v → csrWrites .v n = true → s.here.csrHeld n = false → s.settled →
      (s.here.vHeld [] [] [] = false → ∃ t, exec (.csrwi n imm) s = .next t ∧ s.passes t true fun c => { c with vec := c.vec.writeCsr n imm }) ∧
      (s.here.vHeld [] [reg] [] = false →
        ∃ t, exec (.csrw n reg) s = .next t ∧ s.passes t true fun c => { c with vec := c.vec.writeCsr n (c.readK reg).toNat }))


/-! ### The vector stream -/

/-- R298, R353 to R375, R379 to R382, R385, R386: a vector instruction whose registers are free and whose widths are in force issues, and
each of its writes is a pending result, due its latency's slots on in exposed mode, with the elements and flags that the manual's tables
give; in class 2 its elements enter the vector word. Nothing else changes. No error from outside stands for its stream. Where the spec leaves a point open it follows the model's reading
(notes/assumptions, entries
21, 22, 23, 27, 44, 52, 55, 101 and 102). -/
def Obligations.VectorResults : Prop :=
  ∀ (i : Instr) (s : State) (v : VecSpec), s.cur.st = .v → s.vecSpec i = some v →
    v.ready = true → v.legal = true → v.inFile = true → v.held s.here = false → v.fits s.here = true → v.desc = true →
    s.here.vRoomFor v.writes.length → (s.here.team.pclass = 2 → s.here.noSeal) → s.hitOf s.cur.ctx .v = none → s.settled →
    ∃ t, exec i s = .next t ∧ s.passes t (s.here.vec.exposed || v.writes.isEmpty) (v.apply s.ord.nextId s.cur.pc)

/-- R150, R161, R226, R250, R297, R357, R358: a vector instruction one of whose registers waits for a pending result, or that lacks what it
waits for or room for its results, stays; one that is illegal or names a group beyond v63 takes an illegal-instruction trap; one whose
widths are not in force takes SHAPE, and then one whose descriptor fails a check takes DESC. -/
def Obligations.VectorChecks : Prop :=
  ∀ (i : Instr) (s : State) (v : VecSpec), s.cur.st = .v → s.vecSpec i = some v →
    ((v.ready = false ∨ (v.legal = true ∧ v.inFile = true ∧ v.held s.here = true)) → exec i s = .next s) ∧
    (v.ready = true → v.legal = true → v.inFile = true → v.held s.here = false → v.fits s.here = true → v.desc = true →
      ¬ s.here.vRoomFor v.writes.length → exec i s = .next s) ∧
    (v.ready = true → v.held s.here = false → s.mayFault →
      ((v.legal = false ∨ v.inFile = false) → ∃ t, exec i s = .next t ∧ s.faults t { cause := cILLEGAL }) ∧
      (v.legal = true → v.inFile = true → v.fits s.here = false → ∃ t, exec i s = .next t ∧ s.faults t { cause := cSHAPE }) ∧
      (v.legal = true → v.inFile = true → v.fits s.here = true → v.desc = false → ∃ t, exec i s = .next t ∧ s.faults t { cause := cDESC }))

/-- R353: the mask and value of a result cover exactly the elements that the instruction writes, and no other bit of the register. -/
def Obligations.PackedElements : Prop :=
  ∀ (wb : Nat) (es : List (Nat × Nat)) (old : VReg) (e : Nat), 0 < wb → (∀ p ∈ es, (p.1 + 1) * wb ≤ 2048) → (es.map Prod.fst).Nodup →
    (e + 1) * wb ≤ 2048 →
    elemOf wb ((old &&& ~~~(packV wb es).1) ||| ((packV wb es).2 &&& (packV wb es).1)) e =
      match es.find? (fun p => p.1 == e) with
      | some p => p.2 % 2 ^ (8 * wb)
      | none => elemOf wb old e

/-- R160, R161, R237: a result lands: its write appears and its flags join JFLAG; nothing else of its context, whose register file holds no
erroneous word, changes, but that in interlocked mode its instruction completes. -/
def Obligations.ResultLanding : Prop :=
  ∀ (s : State) (k : Nat) (l : Landing) (w : VWrite), (s.ctx k).vec.landing = [l] → l.ready = true → l.err = 0 → l.writes = [w] →
    (s.ctx k).regCheck = [] →
    (∀ n, l.slot = some n → n ≤ (s.ctx k).vec.slot →
      ∃ (t : State) (c : Ctx), exec (.resultLanding k) s = .next t ∧ t = { s with ctxs := t.ctxs } ∧ (∀ j, j ≠ k → t.ctx j = s.ctx j) ∧
        w.shows (s.ctx k) c ∧ t.ctx k = { c with vec := { c.vec with landing := [], jflag := c.vec.jflag ||| l.flags } }) ∧
    (∀ r, l.slot = none → (s.ctx k).sv.rob = [r] → r.id = l.rob → r.push = 0 → r.eff = [] → r.err = 0 →
      ∃ (t : State) (c : Ctx), exec (.interlockedCompletion k) s = .next t ∧ (∀ j, j ≠ k → t.ctx j = s.ctx j) ∧ w.shows (s.ctx k) c ∧
        t.ctx k = { c with vec := { c.vec with landing := [], jflag := c.vec.jflag ||| l.flags }, sv := { c.sv with rob := [] }
                           idleFrom := (s.cycle (dieOf k)).toNat })

/-- R250, R376, R378: with room for a result `vld` and `vtld` put one access to the bytes of their active elements into the class queue, and the result waits for it, due
24 or 8 slots on in exposed mode. Where the spec leaves a point open it follows the model's reading (notes/assumptions, entries 9 and 13).
-/
def Obligations.VectorLoads : Prop :=
  ∀ (s : State) (vd km cls : Nat), s.cur.st = .v → s.settled → s.here.vFree vd km → s.here.vRoomFor 1 →
    (s.here.team.pclass = 2 → s.here.noSeal) →
    let c := s.here
    let x := c.vec
    let id := s.ord.nextId
    let acc := fun (kind : AccKind) (va err : Nat) (elems : List (Nat × List Nat)) =>
      newAccess id cls kind (lineParts ((elems.flatMap Prod.snd).map fun n => (n, 0))) (.land id) va s.cur.pc err s.clock
    (∀ dn locs e, (descOf (c.readD dn)).vecFault x (c.elemAddrs dn km) = none →
      s.chkBytes s.cur.ctx 0 (((c.elemAddrs dn km).filterMap fun a => a).flatMap (elemVas x.wb)) = .ok locs e →
      let elems := c.active.zip (chunks c.active.length x.wb locs)
      ∃ t, exec (.vld vd dn km cls) s = .next t ∧ s.passes t false fun c =>
        (c.awaits id s.cur.pc 24 vd elems).withAccs .v none id [acc .read (((c.elemAddrs dn km).filterMap fun a => a).headD 0) e elems]) ∧
    (∀ h y, s.tileOf s.cur.ctx h = some y → s.vecTileFault h (c.readK km) c.active = none →
      let elems := c.active.map fun e => (e, elemVas x.wb ((tileElem (c.readK km) x e).1 * y.rb + (tileElem (c.readK km) x e).2))
      ∃ t, exec (.vtld vd h km cls) s = .next t ∧ s.passes t false fun c =>
        (c.awaits id s.cur.pc 8 vd elems).withAccs .v none id [acc (.tile h) h 0 elems])

/-- R377, R378: `vst` puts one store of its active elements, each under its bounds, into the class queue, and the bound flag is set under an
action of 1 or 2 when an element was out of bounds; `vtst` writes its active elements to the tile. Where the spec leaves a point open it
follows the model's reading (notes/assumptions, entry 57). -/
def Obligations.VectorStores : Prop :=
  ∀ (s : State) (va km cls : Nat), s.cur.st = .v → s.settled → s.here.vFree va km → (s.here.team.pclass = 2 → s.here.noSeal) →
    let c := s.here
    let x := c.vec
    (∀ dn glob locs e, c.team.pclass ≠ 2 → s.me.mpos = 0 →
      let d := descOf (c.readD dn)
      let b := fun e => d.bound d.fmt (c.src x.wb 0 va e)
      let vas := ((c.elemAddrs dn km).filterMap fun a => a).flatMap (elemVas x.wb)
      d.vecFault x (c.elemAddrs dn km) = none → (d.bact = 3 → ∀ e ∈ c.active, (b e).2 = false) → s.chkBytes s.cur.ctx 1 vas = .ok locs e →
      ∃ t, exec (.vst dn km va glob cls) s = .next t ∧ s.passes t false fun c =>
        (if (d.bact = 1 ∨ d.bact = 2) ∧ ∃ e ∈ c.active, (b e).2 = true then { c with vec := c.vec.setBnd } else c).withAccs .v none s.ord.nextId
          [newAccess s.ord.nextId cls (if glob then .global else .early)
            (lineParts (locs.zip (c.active.flatMap fun e => bytesOf (b e).1 x.wb))) .none (vas.headD 0) s.cur.pc e s.clock]) ∧
    (∀ h y, s.tileOf s.cur.ctx h = some y → y.check = [] → s.vecTileFault h (c.readK km) c.active = none → s.me.classIdle cls = true →
      let at_ := fun e j => (tileElem (c.readK km) x e).1 * y.rb + (tileElem (c.readK km) x e).2 + j
      ∃ (t u : State) (z : Tile), exec (.vtst h km va cls) s = .next t ∧ s.sendsRows u ∧
        u.passes t true (fun c => c.signed s.ord.nextId (some (c.active.map fun e => (e, c.src x.wb 0 va e)))) ∧
        t.tileOf s.cur.ctx h = some z ∧ z.rows = y.rows ∧ z.rb = y.rb ∧
        (∀ e ∈ c.active, ∀ j, j < x.wb → z.bytes.get (at_ e j) 0 = byteOf (c.src x.wb 0 va e) j) ∧
        (∀ n, (∀ e ∈ c.active, ∀ j, j < x.wb → n ≠ at_ e j) → z.bytes.get n 0 = y.bytes.get n 0) ∧
        (∀ key, key ≠ s.here.tileKey s.cur.ctx h → t.tile key = s.tile key))

/-- R354, R379, R384, R387: `vshape` writes VSHAPE or is illegal; `vpush` appends its register's bytes to the result queue, waits while it is
full, and takes STREAM where no binding is valid; `vdefer` appends one entry for every active element whose condition is not zero, or takes STREAM
beyond 1,024; `vmode` sets VCTL.MODE once nothing is pending. -/
def Obligations.VectorWords : Prop :=
  ∀ (s : State), s.cur.st = .v → s.settled →
    let c := s.here
    let x := c.vec
    (∀ rows cols w, rows < 32 → cols < 64 → w < 4 →
      (w ≠ 3 → (rows + 1) * (cols + 1) * widthBytes w ≤ 2048 → ∃ t, exec (.vshape rows cols w) s = .next t ∧ s.passes t true fun c =>
        { c with vec := { c.vec with vshape := BitVec.ofNat 32 (rows + cols * 32 + w * 2048) } }) ∧
      ((w = 3 ∨ 2048 < (rows + 1) * (cols + 1) * widthBytes w) → s.mayFault →
        ∃ t, exec (.vshape rows cols w) s = .next t ∧ s.faults t { cause := cILLEGAL })) ∧
    (∀ va qn, c.vHeld [va] [] [] = false →
      let key := 2 * kindOf .v + qn
      ((c.dvb.get key 0).getLsbD 63 = true →
        ((c.rq.get key []).length < Config.queueDepth → ∃ t, exec (.vpush va qn) s = .next t ∧ s.passes t true fun c =>
          { c with rq := c.rq.set key (c.rq.get key [] ++
            [⟨x.count * x.wb, BitVec.ofNat 16384 ((c.readV va).toNat % 2 ^ (8 * (x.count * x.wb)))⟩]) }) ∧
        (Config.queueDepth ≤ (c.rq.get key []).length → exec (.vpush va qn) s = .next s)) ∧
      ((c.dvb.get key 0).getLsbD 63 = false → s.mayFault → ∃ t, exec (.vpush va qn) s = .next t ∧ s.faults t { cause := cSTREAM })) ∧
    (∀ va tag, va + x.ord ≤ 63 → c.vHeld (groupOf va x.ord ++ [x.dsel]) [] [] = false → x.wcode = 2 →
      (x.gpen = true → (c.readP x.gp).2 = 2) →
      let es := (c.active.filter fun e => decide (c.src 4 0 x.dsel e ≠ 0)).map fun e => Defer.mk e va tag ((c.jet 0 va x.ord e).map (BitVec.ofNat 32))
      (x.defer.length + es.length ≤ 1024 → ∃ t, exec (.vdefer va tag) s = .next t ∧ s.passes t true fun c =>
        { c with vec := { c.vec with defer := c.vec.defer ++ es } }) ∧
      (1024 < x.defer.length + es.length → s.mayFault → ∃ t, exec (.vdefer va tag) s = .next t ∧ s.faults t { cause := cSTREAM })) ∧
    (∀ m, x.landing = [] → ∃ t, exec (.vmode m) s = .next t ∧ s.passes t true fun c => { c with vec := c.vec.setMode m })

/-! ### The matrix and copy engines -/

/-- R146, R151, R307: an engine instruction enters its engine's queue with its prefix and the shape registers that its iterations name, its stream goes on
behind it, and the engine works; with a full queue the stream stays and the engine works. Where the spec leaves a point open it follows the
model's reading (notes/assumptions, entries 36 and 46). -/
def Obligations.EngineQueues : Prop :=
  ∀ (i : Instr) (s : State), engineWord s.cur.st i = true →
    let st := s.cur.st
    let q0 := s.here.queue st
    (queueCap st ≤ q0.length → exec i s = .next (s.pump s.cur.ctx st)) ∧
    (q0.length < queueCap st →
      ∃ (u : State) (q : QEntry), exec i s = .next (u.pump s.cur.ctx st) ∧ s.sameElsewhere u ∧ s.sameBytes u ∧
        u.here.queue st = q0 ++ [q] ∧ u.me = { s.me.leave (stepBlocks s.me.blocks s.cur.next).1 (stepBlocks s.me.blocks s.cur.next).2 with
          rob := s.me.rob ++ [⟨q.id, false, match s.me.pfx with | some p => p.push | none => 0, s.cur.pc, 0, [], none⟩] } ∧
        u.here = { (s.here.setStrm st u.me).setQueue st (q0 ++ [q]) with idleFrom := s.clock } ∧
        q.id = s.ord.nextId ∧ q.instr = i ∧ q.pc = s.cur.pc ∧ q.pfx = s.me.pfx ∧ q.rpt = s.me.rpt ∧ q.entered = false ∧ q.done = false ∧ q.cpos = 0 ∧
        (s.me.rpt = none → (∀ r, (shapeRegs i)[0]? = some r → q.d1 = s.here.readD r ∧ q.x1 = s.here.dext.get r 0) ∧
          (∀ r, (shapeRegs i)[1]? = some r → q.d2 = s.here.readD r ∧ q.x2 = s.here.dext.get r 0) ∧
          (∀ r, (shapeRegs i)[2]? = some r → q.d3 = s.here.readD r)) ∧
        (∀ p j i', s.me.rpt = some p → j < p.n → iteration st { p with iter := j } i = some i' →
          ∀ d ∈ shapeRegs i', q.snap.get d 0 = s.here.readD d ∧ q.snapX.get d 0 = s.here.dext.get d 0))

/-- R390, R401, R406, R309, R312: with nothing before it in its engine, an offset instruction, `mzero`, `astc`, `barm`, a `bwait` whose count is
at most 0, a CSR word and, outside class 2, `sigc` have their effect and retire; nothing else changes. -/
def Obligations.EngineWords : Prop :=
  ∀ (i : Instr) (s : State) (f : Ctx → Ctx), s.engineSpec i = some f → s.alone → ∃ t, exec i s = .next t ∧ s.passes t true f

/-- R391 to R393: with nothing before it, an `mma` whose checks fail takes DESC with nothing written; one with no K-step retires behind its Z
clearing; else it clears under Z and asks for the operand bytes of its first K-step in its class. -/
def Obligations.MatrixMultiply : Prop :=
  ∀ (i : Instr) (s : State) (acc : Nat) (z : Bool) (cls : Nat) (a b : Desc) (first count : Nat), s.cur.st = .m → s.alone →
    s.mmaSpec i = some (acc, z, cls, a, b, first, count) →
    let cleared := fun (c : Ctx) => if z then { c with mat := c.mat.clear acc (decide (a.fmt = 0)) } else c
    (mmaRefused acc a b first count → s.mayFault → ∃ t, exec i s = .next t ∧ s.entryFaults t i { cause := cDESC }) ∧
    (¬ mmaRefused acc a b first count → count = 0 → ∃ t, exec i s = .next t ∧ s.passes t true cleared) ∧
    (∀ locs e, ¬ mmaRefused acc a b first count → 0 < count →
      let lo := (kRange a b first).1
      let hi := (kRange a b first).2
      let vas := a.stepVas (a.e1 + 1) lo hi ++ b.stepVas (b.e1 + 1) lo hi
      s.chkBytes s.cur.ctx 0 vas = .ok locs e →
      ∃ (t : State) (q : QEntry), exec i s = .next t ∧ s.takesUp t i q ∧ s.sameBytes t ∧ q.busy = true ∧ q.bufOk = false ∧
        t.here.mat.acc = (cleared s.here).mat.acc ∧ t.here.mat.astat = s.here.mat.astat ∧
        t.me.cq = s.me.cq ++ [{ newAccess (s.ord.nextId + 1) cls .read (readParts locs) (.entry q.id) (vas.headD 0) s.cur.pc e s.clock with rob := 0 }])

/-- R391, R99, R219 to R223: a K-step whose operands have been read commits: the accumulator takes its rounded sums, CPOS advances, and the
instruction retires after its last K-step; in class 1 that is so when its checksums agree, and no error from outside stands for the stream.
R99, R101: in class 1 a K-step whose checksums fail runs once more: when they agree then, its result stands and the die's score rises by 1;
when they fail again it takes CHECK, with nothing written, and the score rises by 4. Where the spec leaves a point open it follows the model's
reading (notes/assumptions, entries 53 and 98). -/
def Obligations.KStepCommits : Prop :=
  (∀ (s : State) (k : Nat) (q : QEntry) (acc : Nat) (a b : Desc) (first count : Nat), (s.ctx k).mat.queue = [q] → q.done = false → q.bufOk = true →
    mmaAcc q.instr = some acc → q.rpt = none → q.mmaPlan q.instr = (a, b, first, some count) → (s.ctx k).sm.faulted = false →
    (s.ctx k).regCheck = [] → s.hitOf k .m = none →
    let kStep := fun check =>
      (s.ctx k).mat.kStep acc a b q.x1 q.x2 (kRange a b (first + q.cpos)).1 (kRange a b (first + q.cpos)).2 q.data check none
    ((s.ctx k).team.pclass = 1 → (kStep true).2 = true) →
    ∃ u : State, exec (.kStepCommit k) s = .next u ∧ (∀ j, j ≠ k → u.ctx j = s.ctx j) ∧ s.sameBytes u ∧
      let m := (kStep false).1
      (u.ctx k).mat.acc = m.acc ∧ (u.ctx k).mat.astat = m.astat ∧ (u.ctx k).mat.o = (s.ctx k).mat.o ∧
      (q.cpos + 1 < count → (u.ctx k).mat.queue = [{ q with cpos := q.cpos + 1, spos := q.cpos + 1, bufOk := false, buf := [] }] ∧
        (u.ctx k).sm = (s.ctx k).sm) ∧
      (∀ r, count ≤ q.cpos + 1 → (s.ctx k).sm.rob = [r] → r.id = q.id → r.eff = [] → r.push = 0 →
        (u.ctx k).mat.queue = [] ∧ (u.ctx k).sm = { (s.ctx k).sm with rob := [] })) ∧
  (∀ (s : State) (k : Nat) (q : QEntry) (acc : Nat) (a b : Desc) (first count : Nat) (h : Hit), (s.ctx k).mat.queue = [q] → q.done = false →
    q.bufOk = true → mmaAcc q.instr = some acc → q.rpt = none → q.mmaPlan q.instr = (a, b, first, some count) → (s.ctx k).sm.faulted = false →
    (s.ctx k).regCheck = [] → (s.ctx k).team.pclass = 1 → s.hitOf k .m = some h →
    let kStep := fun err =>
      (s.ctx k).mat.kStep acc a b q.x1 q.x2 (kRange a b (first + q.cpos)).1 (kRange a b (first + q.cpos)).2 q.data true err
    let score := fun (u : State) => (u.pf.susp.get (dieOf k) {}).score
    (kStep (some (h.elem, h.first))).2 = false →
    ((kStep (some (h.elem, h.replay))).2 = true → ∃ u : State, exec (.kStepCommit k) s = .next u ∧ s.sameBytes u ∧
      (u.ctx k).mat.acc = (kStep (some (h.elem, h.replay))).1.acc ∧ score u = Nat.min 255 (score s + 1) ∧ u.hits = s.hits.erase h) ∧
    (∀ r, (kStep (some (h.elem, h.replay))).2 = false → (s.ctx k).sm.rob = [r] → r.id = q.id → ((s.ctx k).frec.get 1 {}).valid = false →
      ∃ u : State, exec (.kStepCommit k) s = .next u ∧ s.sameBytes u ∧ (u.ctx k).mat.acc = (s.ctx k).mat.acc ∧ (u.ctx k).sm.faulted = true ∧
        ((u.ctx k).frec.get 1 {}).valid = true ∧ ((u.ctx k).frec.get 1 {}).cause = cCHECK ∧ score u = Nat.min 255 (score s + 4)))

/-- R394 to R396: with nothing before it, `mdrain` takes DESC when a check fails, else it stores its rows in its class and sets the flags of
the conversion; `mdraint` takes DESC for a format its kind tag does not allow, TILE for rows outside the tile, else writes 128 tile rows.
Where the spec leaves a point open it follows the model's reading (notes/assumptions, entry 48). -/
def Obligations.MatrixDrains : Prop :=
  ∀ (s : State) (acc ro rm cls : Nat), s.cur.st = .m → s.alone → s.here.team.pclass ≠ 2 →
    let x := s.here.mat
    let q0 := (s.here.readO .m ro).toNat
    (∀ dn glob, 
      let d := descOf (s.here.readD dn)
      let refused := d.bad = true ∨ drainFits (x.tag acc) d.fmt = false ∨ 64 < d.e0 + 1 ∨ 128 < d.e1 + 1 ∨ d.rows ≤ q0 + d.e1
      (refused → s.mayFault → ∃ t, exec (.mdrain dn acc ro rm glob cls) s = .next t ∧ s.entryFaults t (.mdrain dn acc ro rm glob cls) { cause := cDESC }) ∧
      (¬ refused → (d.bact = 3 → ∀ m, m ≤ d.e1 → (x.drainRow acc d.fmt rm (d.e0 + 1) m (some d)).oob = false) →
        let row := fun m => x.drainRow acc d.fmt rm (d.e0 + 1) m (some d)
        let vas := fun m => (List.range (row m).bytes.length).map (d.rowAddr (q0 + m) + ·) ++
          (List.range (row m).scales.length).map (d.scaleAddr (q0 + m) + ·)
        ∀ (locs : Nat → List Nat) (e : Nat → Nat), (∀ m, m ≤ d.e1 → s.chkBytes s.cur.ctx 1 (vas m) = .ok (locs m) (e m)) →
          (∃ l err, s.chkBytes s.cur.ctx 1 ((List.range (d.e1 + 1)).flatMap vas) = .ok l err) →
          ∃ (t : State) (q : QEntry), exec (.mdrain dn acc ro rm glob cls) s = .next t ∧ s.sameElsewhere t ∧ s.sameBytes t ∧
            t.here.mat.queue = [q] ∧ q.instr = .mdrain dn acc ro rm glob cls ∧ q.busy = true ∧ q.cpos = d.e1 + 1 ∧
            t.here.mat.acc = x.acc ∧ t.here.mat.astat = (x.flag acc ((List.range (d.e1 + 1)).foldl (fun f m => f ||| (row m).flags) 0)).astat ∧
            t.me.cq = s.me.cq ++ (List.range (d.e1 + 1)).map fun m =>
              { newAccess (s.ord.nextId + 1 + m) cls (if glob then .global else .early) (groupParts ((locs m).zip ((row m).bytes ++ (row m).scales)))
                  (.entry q.id) ((vas m).headD 0) s.cur.pc (e m) s.clock with rob := 0 })) ∧
    (∀ h fmt, 
      (drainFits (x.tag acc) fmt = false → s.mayFault →
        ∃ t, exec (.mdraint h acc ro rm fmt cls) s = .next t ∧ s.entryFaults t (.mdraint h acc ro rm fmt cls) { cause := cDESC }) ∧
      (drainFits (x.tag acc) fmt = true → s.tileOf s.cur.ctx h = none → s.mayFault →
        ∃ t, exec (.mdraint h acc ro rm fmt cls) s = .next t ∧ s.entryFaults t (.mdraint h acc ro rm fmt cls) (tileFault 0 h q0)) ∧
      (∀ y, drainFits (x.tag acc) fmt = true → s.tileOf s.cur.ctx h = some y → y.covers q0 128 (rowSpan fmt 64) = false → s.mayFault →
        ∃ t row, exec (.mdraint h acc ro rm fmt cls) s = .next t ∧ s.entryFaults t (.mdraint h acc ro rm fmt cls) (tileFault 0 h row) ∧
          q0 ≤ row ∧ y.covers row 1 (rowSpan fmt 64) = false ∧ ∀ r, q0 ≤ r → r < row → y.covers r 1 (rowSpan fmt 64) = true) ∧
      (∀ y, drainFits (x.tag acc) fmt = true → s.tileOf s.cur.ctx h = some y → y.check = [] → y.covers q0 128 (rowSpan fmt 64) = true →
        s.me.classIdle cls = true →
        let row := fun m => x.drainRow acc fmt rm 64 m none
        ∃ (t u : State) (w : Tile), exec (.mdraint h acc ro rm fmt cls) s = .next t ∧ s.sendsRows u ∧
          u.passes t true (fun c => { c with mat := c.mat.flag acc ((List.range 128).foldl (fun f m => f ||| (row m).flags) 0) }) ∧
          t.tileOf s.cur.ctx h = some w ∧ w.rows = y.rows ∧ w.rb = y.rb ∧
          (∀ m j, m < 128 → j < (row m).bytes.length → w.byte (q0 + m) j = (row m).bytes.getD j 0) ∧
          (∀ n, (∀ m j, m < 128 → j < (row m).bytes.length → n ≠ (q0 + m) * y.rb + j) → w.bytes.get n 0 = y.bytes.get n 0)))

/-- R397, R402: with nothing before it, `mld` loads the first 256 bytes of 128 tile rows into an accumulator, row m bytes 4n to 4n + 3 as
element (m, n); `qpush` appends tile rows to a bound result queue as one entry; `qpop` writes the head entry of an operand queue into tile
rows and takes it off. Where the spec leaves a point open it follows the model's reading (notes/assumptions, entry 50). -/
def Obligations.EngineTiles : Prop :=
  ∀ (s : State) (h : Nat) (y : Tile), s.alone → s.tileOf s.cur.ctx h = some y → y.check = [] →
    (∀ acc ro cls, s.cur.st = .m → s.me.classIdle cls = true →
      let q0 := (s.here.readO .m ro).toNat
      y.covers q0 128 256 = true →
      ∃ t u : State, exec (.mld acc h ro cls) s = .next t ∧ s.sendsRows u ∧ u.tiles = s.tiles ∧
        u.passes t true (fun c => { c with mat := { c.mat with acc := t.here.mat.acc } }) ∧
        (∀ n, n ≠ acc → t.here.mat.acc.get n 0 = s.here.mat.acc.get n 0) ∧
        ∀ m n, m < 128 → n < 64 → t.here.mat.elem acc m n = leNat ((List.range 4).map fun j => y.byte (q0 + m) (4 * n + j))) ∧
    (∀ p qn, s.cur.st = .m ∨ s.cur.st = .y →
      let first := (s.here.readO s.cur.st (2 * p)).toNat
      let cnt := (s.here.readO s.cur.st (2 * p + 1)).toNat
      let key := 2 * kindOf s.cur.st + qn
      (cnt ≠ 0 → cnt * y.rb ≤ 2048 → (s.here.dvb.get key 0).getLsbD 63 = true → y.covers first cnt y.rb = true →
        (s.here.rq.get key []).length < Config.queueDepth →
        ∃ (t u : State) (it : QItem), exec (.qpush h p qn) s = .next t ∧ s.sendsRows u ∧ u.tiles = s.tiles ∧
          u.passes t true (fun c => { c with rq := c.rq.set key (c.rq.get key [] ++ [it]) }) ∧ it.len = cnt * y.rb ∧
          ∀ m j, m < cnt → j < y.rb → byteOf it.data.toNat (m * y.rb + j) = y.byte (first + m) j) ∧
      ((cnt = 0 ∨ 2048 < cnt * y.rb ∨ (s.here.dvb.get key 0).getLsbD 63 = false) → s.mayFault →
        ∃ t, exec (.qpush h p qn) s = .next t ∧ s.entryFaults t (.qpush h p qn) { cause := cSTREAM }) ∧
      (∀ it rest, s.here.oq.get key [] = it :: rest → it.len = cnt * y.rb → y.covers first cnt y.rb = true → it.len ≤ 2048 →
        ∃ (t u : State) (w : Tile), exec (.qpop h p qn) s = .next t ∧ s.sendsRows u ∧
          u.passes t true (fun c => { c with oq := c.oq.set key rest }) ∧ t.tileOf s.cur.ctx h = some w ∧ w.rows = y.rows ∧ w.rb = y.rb ∧
          (∀ m j, m < cnt → j < y.rb → w.byte (first + m) j = byteOf it.data.toNat (m * y.rb + j)) ∧
          (∀ n, n < first * y.rb ∨ (first + cnt) * y.rb ≤ n → w.bytes.get n 0 = y.bytes.get n 0)) ∧
      (∀ it rest, s.here.oq.get key [] = it :: rest → it.len ≠ cnt * y.rb → s.mayFault →
        ∃ t, exec (.qpop h p qn) s = .next t ∧ s.entryFaults t (.qpop h p qn) { cause := cSTREAM }))

/-- R403, R404, R409: with nothing before it, a copy of no row retires at once; one whose checks fail takes DESC, TILE or ALIGN with nothing
performed; else it begins, and a tensor source's first row is asked for in its class. Where the spec leaves a point open it follows the
model's reading (notes/assumptions, entry 25). -/
def Obligations.CopiesBegin : Prop :=
  ∀ (i : Instr) (s : State), s.cur.st = .y → s.alone → engineWord .y i = true →
    ∀ (q0 : QEntry) (p : CopyPlan), q0.d1 = s.here.readD ((shapeRegs i).getD 0 0) → q0.d2 = s.here.readD ((shapeRegs i).getD 1 0) →
      q0.d3 = s.here.readD ((shapeRegs i).getD 2 0) → q0.copyPlan i = some p →
      let first := (s.here.readO .y ((offsetReads i).getD 0 0)).toNat
      let cnt := (s.here.readO .y ((offsetReads i).getD 1 0)).toNat
      let width := s.copyWidth s.cur.ctx p
      (cnt = 0 → ∃ t, exec i s = .next t ∧ s.passes t true id) ∧
      (∀ r, cnt ≠ 0 → s.copyFault s.cur.ctx p width first cnt = some r → s.mayFault → ∃ t, exec i s = .next t ∧ s.entryFaults t i r) ∧
      (∀ d locs e, cnt ≠ 0 → s.copyFault s.cur.ctx p width first cnt = none → p.src = .tensor d → s.here.team.pclass ≠ 2 →
        s.chkBytes s.cur.ctx 0 (d.rowVas first 0 width) = .ok locs e →
        ∃ (t : State) (q : QEntry), exec i s = .next t ∧ s.takesUp t i q ∧ s.sameBytes t ∧ q.begun = true ∧ q.busy = true ∧
          t.me.cq = s.me.cq ++ [{ newAccess (s.ord.nextId + 1) p.cls .read (readParts locs) (.entry q.id) ((d.rowVas first 0 width).headD 0) s.cur.pc e
            s.clock with rob := 0 }])

/-- R405, R406: a performed byte of a copy commits: CPOS advances by 1, and the barrier of a counted copy falls by 1 modulo 2^32. Where the spec leaves a point open it follows the model's reading (notes/assumptions, entry 49). -/
def Obligations.BytesCommit : Prop :=
  ∀ (s : State) (k : Nat) (q : QEntry), (s.ctx k).cpy.queue = [q] → q.done = false → 0 < q.perf →
    ∃ u : State, exec (.copyByteCommit k) s = .next u ∧ u = { s with ctxs := u.ctxs } ∧ (∀ j, j ≠ k → u.ctx j = s.ctx j) ∧
      u.ctx k = { s.ctx k with cpy := { (s.ctx k).cpy with
        bar := (u.ctx k).cpy.bar, queue := [{ q with perf := q.perf - 1, cpos := q.cpos + 1, spos := Nat.max q.spos (q.cpos + 1) }] } } ∧
      ∀ n, (u.ctx k).cpy.bar.get n 0 =
        if barOf (q.cur .y) = some n then (s.ctx k).cpy.bar.get n 0 - 1 else (s.ctx k).cpy.bar.get n 0

/-- R398, R399, R224, R99, R408: with nothing before it, a `wq` whose checks fail takes DESC, one whose weight die has left or is cut off takes
DATAERR with code 2 or 4, and another asks for its query rows; the weight die's answer, in class 1 one whose checksums agree, writes the
partial sums, and the instruction retires. A `cpf` retires with nothing but fills asked for, of the rows that its tensor has. -/
def Obligations.WeightQueriesAndPrefetch : Prop :=
  (∀ (s : State) (acc dq dw os cls : Nat), s.cur.st = .m → s.alone →
    let i : Instr := .wq acc dq dw os cls
    let a := descOf (s.here.readD dq)
    let w := descOf (s.here.readD dw)
    let o := (s.here.readO .m os).toNat
    let refused := a.bad = true ∨ w.bad = true ∨ (a.fmt ≠ 10 ∧ a.fmt ≠ 11) ∨ (w.fmt ≠ 10 ∧ w.fmt ≠ 11) ∨ a.e0 ≠ w.e0 ∨ 128 < a.e1 + 1 ∨ w.e1 < o ∨
      s.inWindow s.here.vf w o (Nat.min 64 (w.e1 + 1 - o)) = false
    (refused → s.mayFault → ∃ t, exec i s = .next t ∧ s.entryFaults t i { cause := cDESC }) ∧
    (¬ refused → s.isLive (16 + dieOf s.cur.ctx) = false → s.mayFault →
      ∃ t, exec i s = .next t ∧ s.entryFaults t i { cause := cDATAERR, err := 2 }) ∧
    (¬ refused → s.isLive (16 + dieOf s.cur.ctx) = true → (dieOf s.cur.ctx, 16 + dieOf s.cur.ctx) ∈ s.fab.linksDown → s.mayFault →
      ∃ t, exec i s = .next t ∧ s.entryFaults t i { cause := cDATAERR, err := 4 }) ∧
    (∀ locs e, ¬ refused → s.isLive (16 + dieOf s.cur.ctx) = true → (dieOf s.cur.ctx, 16 + dieOf s.cur.ctx) ∉ s.fab.linksDown → s.chkBytes s.cur.ctx 0 (a.stepVas (a.e1 + 1) 0 (a.e0 + 1)) = .ok locs e →
      ∃ (t : State) (q : QEntry), exec i s = .next t ∧ s.takesUp t i q ∧ s.sameBytes t ∧ q.begun = true ∧ q.busy = true ∧
        t.here.mat.acc = s.here.mat.acc ∧
        t.me.cq = s.me.cq ++ [{ newAccess (s.ord.nextId + 1) cls .read (readParts locs) (.entry q.id)
          ((a.stepVas (a.e1 + 1) 0 (a.e0 + 1)).headD 0) s.cur.pc e s.clock with rob := 0 }])) ∧
  (∀ (s : State) (k acc dq dw os cls : Nat) (q : QEntry) (r : Rob), (s.ctx k).mat.queue = [q] → q.done = false → q.bufOk = true → q.rpt = none →
    q.instr = .wq acc dq dw os cls → (s.ctx k).sm.faulted = false → (s.ctx k).sm.rob = [r] → r.id = q.id → r.eff = [] → r.push = 0 →
    (s.ctx k).team.pclass ≠ 2 → (s.ctx k).regCheck = [] → s.hitOf k .m = none →
    let a := descOf q.d1
    let w := descOf q.d2
    let o := (q.offs.getD 0 0).toNat
    let n := a.e0 + 1
    let wbyte := fun (addr b : Nat) => s.weightByte (dieOf k) (s.ctx k).vf (addr + b)
    let query := fun m => (List.range n).map fun i =>
      let r := (stepRows a (a.e1 + 1) 0 n q.data).getD m (fun _ => 0, fun _ => 0)
      rowElem a.fmt r.1 r.2 0 i
    let weight := fun j => (List.range n).map fun i => rowElem w.fmt (wbyte (w.rowAddr (o + j))) (wbyte (w.scaleAddr (o + j))) 0 i
    ((s.ctx k).team.pclass = 1 → checksumsFv n ((stepRows a (a.e1 + 1) 0 n q.data).map fun r => (List.range n).map fun i => rowElem a.fmt r.1 r.2 0 i)
      ((List.range (Nat.min 64 (w.e1 + 1 - o))).map weight) none = true) →
    ∃ u : State, exec (.weightDieQueryResult k) s = .next u ∧ (∀ j, j ≠ k → u.ctx j = s.ctx j) ∧
      (u.ctx k).mat.queue = [] ∧ (u.ctx k).sm.rob = [] ∧ (u.ctx k).mat.tag acc = 0 ∧
      (∀ b, b ≠ acc → (u.ctx k).mat.acc.get b 0 = (s.ctx k).mat.acc.get b 0) ∧
      (q.data.length = (a.stepVas (a.e1 + 1) 0 n).length → acc < 4 → a.e1 < 128 → ∀ m j, m < 128 → j < 64 →
        (u.ctx k).mat.elem acc m j =
          if m ≤ a.e1 ∧ j < Nat.min 64 (w.e1 + 1 - o) then (wqSum (query m) (weight j)).1 % 2 ^ 32 else (s.ctx k).mat.elem acc m j)) ∧
  (∀ (s : State) (dn p cls : Nat), s.cur.st = .y → s.alone →
    let d := descOf (s.here.readD dn)
    let first := (s.here.readO .y (2 * p)).toNat
    let cnt := (s.here.readO .y (2 * p + 1)).toNat
    (d.bad = true → ∃ t, exec (.cpf dn p cls) s = .next t ∧ s.passes t true id) ∧
    (d.bad = false →
      let vas := ((List.range cnt).filter fun r => decide (first + r < d.rows)).flatMap fun r => d.rowVas (first + r) 0 (rowSpan d.fmt (d.e0 + 1))
      let line := fun (a : Nat) => s.chkBytes s.cur.ctx 0 ((List.range 64).map (a / 64 * 64 + ·))
      (∀ a ∈ vas, (∀ v, s.chkBytes s.cur.ctx 0 [a / 64 * 64] ≠ .miss v) ∧ ∃ locs e, line a = .ok locs e) →
      ∃ t as_, exec (.cpf dn p cls) s = .next t ∧ s.passes t true (fun c => c.withAccs .y none 0 as_) ∧
        (∀ x ∈ as_, x.kind = .prefetch ∧ x.cls = cls ∧ x.sink = .none ∧ x.err = 0) ∧
        ∀ a ∈ vas, ∀ locs, line a = .ok locs 0 → ∃ x ∈ as_, x.va = a / 64 * 64 ∧ x.parts = readParts locs))

/-! ### The ordering machine -/

/-- S2, S2a, R168, R170, R324, R160: the read at a class head returns the bytes of its next part, or some of them where it is not single-copy
atomic, when the view can give them; with all its bytes a load writes its register and leaves, and a vector load's result is ready. When a byte is INVALID and not pending, one fill of its
line is asked for. -/
def Obligations.ViewReads : Prop :=
  ∀ (s : State) (k : Nat) (st : Strm) (cls : Nat) (a : Access) (p : Sys2Proof.Machine.Part) (rest : List Sys2Proof.Machine.Part)
    (pre post : List Access),
    (s.strm k st).queues pre a post → (s.strm k st).classHead cls = some a → a.kind = .read → a.acq = false → a.err = 0 → a.parts = p :: rest →
    let die := dieOf k
    let bs := a.stepBytes p (s.pick.headD 0)
    let left := partsLeft p rest bs.length
    let got := a.got ++ bs.map fun b => (b.1, (s.dvByte die b.1).val)
    ((∀ b ∈ bs, s.canRead die b.1 = true) → s.ord.dvCheck.get die [] = [] →
      (left ≠ [] → ∃ t, exec (.s2Read k st cls) s = .next t ∧ s.onlyOrder t k ∧ t.ord = s.ord ∧
        (t.strm k st).cq = pre ++ { a with parts := left, got := got } :: post) ∧
      (∀ d size sx, left = [] → a.sink = .gReg d size sx → d ≠ 0 → 0 < size → (s.ctx k).gpend.contains (d, a.id) = true →
        ∃ t, exec (.s2Read k st cls) s = .next t ∧ s.onlyOrder t k ∧ t.ord = s.ord ∧ (t.strm k st).cq = pre ++ post ∧
          ∀ r, (t.ctx k).readG r = if r = d then
            (if sx then BitVec.ofInt 64 (toSigned (8 * size) (leNat (got.map Prod.snd))) else BitVec.ofNat 64 (leNat (got.map Prod.snd)))
            else (s.ctx k).readG r) ∧
      (∀ tag l, left = [] → a.sink = .land tag → st = .v → (s.ctx k).vec.landing = [l] → l.tag = tag →
        ((s.ctx k).team.pclass = 2 → (s.ctx k).noSeal) →
        ∃ t, exec (.s2Read k st cls) s = .next t ∧ s.onlyOrder t k ∧ t.ord = s.ord ∧ (t.strm k st).cq = pre ++ post ∧
          (t.ctx k).vec.landing = [{ l with ready := true, err := 0
                                            writes := [.v l.vd (maskOf l.wb (l.filled got)).1 (maskOf l.wb (l.filled got)).2] }])) ∧
    ((∃ b ∈ p.bytes, (s.dvByte die b.1).readable = false) →
      ((die, p.line) ∉ s.ord.fills → s.maySend k → ∃ t, exec (.s2aFill k st cls) s = .next t ∧
        t = { s with ord := { s.ord with
          fills := (die, p.line) :: s.ord.fills, up := s.ord.up ++ [⟨die, p.line, (s.ctx k).vf, .f, false, s.now⟩] } }) ∧
      ((die, p.line) ∈ s.ord.fills → exec (.s2aFill k st cls) s = .next s))

/-- S3, S4, R168, R170, R180: the early store at a class head writes its next part, or some bytes of it where it is not single-copy atomic, in
its die's view as pending under a new identifier and sends E, and leaves after its last part; a global access sends a G for each part, and its timer starts. No home byte changes. -/
def Obligations.StoresIssue : Prop :=
  ∀ (s : State) (k : Nat) (st : Strm) (cls : Nat) (a : Access) (pre post : List Access),
    (s.strm k st).queues pre a post → (s.strm k st).classHead cls = some a → a.err = 0 → s.maySend k →
    let die := dieOf k
    let vf := (s.ctx k).vf
    (∀ p rest, a.kind = .early → a.parts = p :: rest → a.sent = none → a.sink = .none → (p.bytes.map Prod.fst).Nodup → s.ord.dvCheck.get die [] = [] →
      let id := s.ord.nextId
      let bs := a.stepBytes p (s.pick.headD 0)
      let left := partsLeft p rest bs.length
      ∃ t, exec (.s3EarlyStore k st cls) s = .next t ∧ (∀ j, j ≠ k → t.ctx j = s.ctx j) ∧ (∀ n, t.hbmByte n = s.hbmByte n) ∧
        s.viewSet t die bs (fun _ v => { valid := true, val := v, writer := id, pend := some id }) ∧
        t.ord.up = s.ord.up ++ [⟨die, p.line, vf, .e id bs, false, s.now⟩] ∧ t.ord.nextId = id + 1 ∧ t.ord.co = s.ord.co ∧
        (t.strm k st).outE = (s.strm k st).outE ++ [⟨id, a.cls, a.va, die⟩] ∧
        (t.strm k st).cq = pre ++ (if left = [] then [] else [{ a with parts := left }]) ++ post) ∧
    (a.kind.isGlobal = true → a.sent = none → a.acq = false →
      ∃ t, exec (.s4GlobalSend k st cls) s = .next t ∧ s.onlyOrder t k ∧
        t.ord = { s.ord with up := s.ord.up ++ a.parts.map fun p => ⟨die, p.line, vf, .g a.id (4 * k + strmIx st) a.kind p.bytes, false, s.now⟩ } ∧
        (t.strm k st).cq = pre ++ { a with wait := a.parts.map Part.line, sent := some (s.cycle die).toNat } :: post) ∧
    (a.kind = .remote → a.sent = none → a.acq = false → a.sink = .none → a.rob = 0 →
      ∃ t, exec (.s4GlobalSend k st cls) s = .next t ∧ (∀ j, j ≠ k → t.ctx j = s.ctx j) ∧ s.sameBytes t ∧
        (t.strm k st).outR = (s.strm k st).outR ++ [⟨a.id, a.cls, a.va, die⟩] ∧ (t.strm k st).cq = pre ++ post)

/-- S5, S6, R176, R180, R315, R329: the last acknowledgement of a global access gives a returning atomic's register the old value and the
bytes of the view that hold no pending identifier the new ones, and the access leaves; 2^24 cycles after S4 without it, LOST is set and the
access leaves, not before; a fence leaves when it stands at the head of every class of its mask and the earlier accesses of those classes
have performed at its scope, not before. Where the spec leaves a point open it follows the model's reading (notes/assumptions, entry 29). -/
def Obligations.GlobalsReturn : Prop :=
  ∀ (s : State) (k : Nat) (st : Strm) (a : Access) (pre post : List Access), (s.strm k st).queues pre a post →
    let die := dieOf k
    (∀ line p id old esc at_ nb, s.dnHead die line = some ⟨die, line, .ga id old, esc, at_⟩ → s.ord.dvCheck.get die [] = [] → s.awaiting die id line = some (k, st, a) → a.wait = [line] →
      a.err = 0 → a.parts = [p] → p.line = line → newBytes a.kind p.bytes old = some nb → (∀ c, a.kind ≠ .dstc c) → (nb.map Prod.fst).Nodup →
      (∀ q, a.sink ≠ .entry q) →
      ∃ t, exec (.s5GlobalDone die line) s = .next t ∧ (∀ j, j ≠ k → t.ctx j = s.ctx j) ∧ (∀ n, t.hbmByte n = s.hbmByte n) ∧
        s.viewSet t die nb (takeByte id) ∧ t.ord.dn = s.ord.dn.erase ⟨die, line, .ga id old, esc, at_⟩ ∧ (t.strm k st).cq = pre ++ post ∧
        (∀ d, a.sink = .gOld d → d ≠ 0 → (s.ctx k).gpend.contains (d, a.id) = true →
          ∀ r, (t.ctx k).readG r = if r = d then BitVec.ofNat 64 (leNat old) else (s.ctx k).readG r) ∧
        (a.sink = .none → ∀ r, (t.ctx k).readG r = (s.ctx k).readG r)) ∧
    (∀ cls t0, (s.strm k st).classHead cls = some a → a.sent = some t0 →
      ((s.cycle die).toNat < t0 + 2 ^ 24 → exec (.globalAckTimeout k st cls) s = .next s) ∧
      (a.err ≠ 0 → exec (.globalAckTimeout k st cls) s = .next s) ∧
      (t0 + 2 ^ 24 ≤ (s.cycle die).toNat → a.err = 0 → a.held = false → a.sink = .none → (a.parts.map fun p => p.line).Nodup →
        ∃ t, exec (.globalAckTimeout k st cls) s = .next t ∧ (∀ j, j ≠ k → t.ctx j = s.ctx j) ∧ (∀ n, t.hbmByte n = s.hbmByte n) ∧
          (t.strm k st).cq = pre ++ post ∧ (t.strm k st).lost = (s.strm k st).lost ||| BitVec.ofNat 16 (2 ^ a.cls) ∧
          (∀ d l, (t.dvByte d l).val = (s.dvByte d l).val ∧ ((t.dvByte d l).valid = true → (s.dvByte d l).valid = true)) ∧
          ∀ p ∈ a.parts, p.line ∈ a.wait → ∀ b ∈ p.bytes, (s.dvByte die b.1).pend = none → (t.dvByte die b.1).valid = false)) ∧
    (∀ cls mask scope, (s.strm k st).classHead cls = some a → a.kind = .fence mask scope → (s.strm k st).syncDue mask = false → a.sink = .none →
      let free := (∀ c ∈ a.classes, (s.strm k st).classHead c = some a) ∧
        (3 ≤ scope → (∀ o ∈ (s.strm k st).outE, mask.testBit o.cls = false) ∧ ∀ o ∈ (s.strm k st).obs, mask.testBit o.2 = false) ∧
        (4 ≤ scope → ∀ o ∈ (s.strm k st).outR, mask.testBit o.cls = false)
      (free → ∃ t, exec (.s6Fence k st cls) s = .next t ∧ (∀ j, j ≠ k → t.ctx j = s.ctx j) ∧ s.sameBytes t ∧ (t.strm k st).cq = pre ++ post) ∧
      (¬ free → exec (.s6Fence k st cls) s = .next s))

/-- H1 to H5, R41, R171, R327, R330: at a FREE line the home of an early store writes its bytes, appends them to the coherence order, sends C to the
issuer and U to every other live compute die, or holds the message while the granule migrates; a global access holds its line and sends I to
every live compute die, and performs when each has answered; P goes to every live compute die when every U has been answered; a fill is
answered with each byte's last value, its writer and whether that is propagated. -/
def Obligations.HomeOrders : Prop :=
  ∀ (s : State) (die line : Nat),
    (∀ u m addr id bs, s.arrives die line u m addr → u.msg = .e id bs → (bs.map Prod.fst).Nodup → (∀ b ∈ bs, b.1 / 2 ^ 21 = line * 64 / 2 ^ 21) →
      (s.migrating line = true → exec (.h1PlaceEarly die line) s = .next s) ∧
      (s.migrating line = false →
        ∃ t, exec (.h1PlaceEarly die line) s = .next t ∧ t.ctxs = s.ctxs ∧ s.hbmSet t addr bs ∧ t.ord.up = s.ord.up.erase u ∧
          t.ord.dn = s.ord.dn ++ [⟨die, line, .c id, false, s.now⟩] ++ downTo (s.liveCompute.filter (· ≠ die)) line s.now (.u id bs) ∧
          t.ord.co = (bs.map fun b => CoWrite.mk b.1 b.2 id).reverse ++ s.ord.co ∧
          t.ord.ua = s.ord.ua ++ [(line, id, die, s.liveCompute.filter (· ≠ die))] ∧ ∀ d l, t.dvByte d l = s.dvByte d l)) ∧
    (∀ id d dies, s.ord.ua.find? (fun u => u.1 == line && u.2.1 == id) = some (line, id, d, dies) →
      (∀ x ∈ dies, s.isLive x = true → ∃ u ∈ s.ord.up, u.die = x ∧ u.line = line ∧ u.msg = .ua id) →
      s.slotOpen (Config.memDie (s.lineHome line)) (s.lineVf line) = true →
      ∃ t, exec (.h2Propagate line id) s = .next t ∧ s.onlyOrd t ∧ t.ord.dn = s.ord.dn ++ downTo s.liveCompute line s.now (.p id) ∧
        t.ord.ua = s.ord.ua.erase (line, id, d, dies) ∧ t.ord.propd = id :: s.ord.propd) ∧
    (∀ id d dies, s.ord.ua.find? (fun u => u.1 == line && u.2.1 == id) = some (line, id, d, dies) →
      (∃ x ∈ dies, s.isLive x = true ∧ ∀ u ∈ s.ord.up, ¬ (u.die = x ∧ u.line = line ∧ u.msg = .ua id)) → exec (.h2Propagate line id) s = .next s) ∧
    (∀ u m addr id who kind bs, s.arrives die line u m addr → u.msg = .g id who kind bs → s.migrating line = false →
      ∃ t, exec (.h3Hold die line) s = .next t ∧ s.onlyOrd t ∧ t.ord.up = s.ord.up.erase u ∧
        t.ord.dn = s.ord.dn ++ downTo s.liveCompute line s.now (.i id) ∧ t.ord.held = s.ord.held.set line ⟨id, who, die, u.vf, kind, bs, s.liveCompute⟩) ∧
    (∀ h m addr b bs, s.ord.held.find? (fun x => x.1 == line) = some (line, h) → h.bytes = b :: bs →
      (∀ x ∈ h.wait, s.isLive x = true → ∃ u ∈ s.ord.up, u.die = x ∧ u.line = line ∧ u.msg = .ia h.id) →
      s.homeOf h.die h.vf (line * 64 / 2 ^ 21) = .at_ m addr → s.mem.hbmCheck = [] → s.memWf → (∀ c, h.kind ≠ .dstc c) →
      s.migrating line = false → s.slotOpen (Config.memDie (s.lineHome line)) h.vf = true →
      let old := if h.kind.readsHome then (List.range h.bytes.length).map fun j => s.hbmByte (addr + b.1 % 2 ^ 21 + j) else []
      ∃ t, exec (.h4Perform line) s = .next t ∧ t.ctxs = s.ctxs ∧ t.ord.held = s.ord.held.del line ∧ t.ord.propd = h.id :: s.ord.propd ∧
        t.ord.dn = s.ord.dn ++ [⟨h.die, line, .ga h.id old, false, s.now⟩] ∧
        (∀ nb, newBytes h.kind h.bytes old = some nb → (nb.map Prod.fst).Nodup → (∀ x ∈ nb, x.1 / 2 ^ 21 = line * 64 / 2 ^ 21) →
          s.hbmSet t addr nb ∧ t.ord.co = (nb.map fun x => CoWrite.mk x.1 x.2 h.id).reverse ++ s.ord.co) ∧
        (newBytes h.kind h.bytes old = none → (∀ a, t.hbmByte a = s.hbmByte a) ∧ t.ord.co = s.ord.co)) ∧
    (s.migrating line = true → exec (.h4Perform line) s = .next s) ∧
    (∀ u m addr, s.arrives die line u m addr → u.msg = .f → addr % 2 ^ 21 = 0 →
      ∃ t bs, exec (.h5ServeFill die line) s = .next t ∧ t.ctxs = s.ctxs ∧ (∀ a, t.hbmByte a = s.hbmByte a) ∧ t.ord.up = s.ord.up.erase u ∧
        t.ord.dn = s.ord.dn ++ [⟨die, line, .fr bs [], false, s.now⟩] ∧ bs = (lineLocs line).map fun l =>
          (l, s.hbmByte (addr + l % 2 ^ 21), s.lastWriter l, decide (s.lastWriter l = 0) || s.ord.propd.contains (s.lastWriter l)))

/-- V1 to V5, R172, R438: a view takes an update, or drops a line, where no identifier is pending, and answers; a confirmation clears the pending
identifiers that equal the store's; a fill reply makes bytes VALID that are INVALID and not pending; a propagated store leaves the observed
sets of its die. -/
def Obligations.ViewTakes : Prop :=
  ∀ (s : State) (die line : Nat) (esc : Bool) (at_ : Nat),
    (∀ id bs, s.dnHead die line = some ⟨die, line, .u id bs, esc, at_⟩ → (bs.map Prod.fst).Nodup → s.ord.dvCheck.get die [] = [] →
      ∃ t, exec (.v1Update die line) s = .next t ∧ s.onlyOrd t ∧ s.viewSet t die bs (takeByte id) ∧
        t.ord.dn = s.ord.dn.erase ⟨die, line, .u id bs, esc, at_⟩ ∧ t.ord.up = s.ord.up ++ [⟨die, line, 0, .ua id, false, s.now⟩]) ∧
    (∀ id, s.dnHead die line = some ⟨die, line, .c id, esc, at_⟩ →
      ∃ t, exec (.v2Confirm die line) s = .next t ∧ s.onlyOrd t ∧ t.ord.dn = s.ord.dn.erase ⟨die, line, .c id, esc, at_⟩ ∧
        ∀ d l, t.dvByte d l = if d = die ∧ l / 64 = line ∧ (s.dvByte d l).pend = some id then { s.dvByte d l with pend := none } else s.dvByte d l) ∧
    (∀ id, s.dnHead die line = some ⟨die, line, .i id, esc, at_⟩ →
      ∃ t, exec (.v3Invalidate die line) s = .next t ∧ s.onlyOrd t ∧ t.ord.dn = s.ord.dn.erase ⟨die, line, .i id, esc, at_⟩ ∧
        t.ord.up = s.ord.up ++ [⟨die, line, 0, .ia id, false, s.now⟩] ∧
        ∀ d l, t.dvByte d l = if d = die ∧ l / 64 = line then dropByte (s.dvByte d l) 0 else s.dvByte d l) ∧
    (∀ bs, s.dnHead die line = some ⟨die, line, .fr bs [], esc, at_⟩ → (bs.map Prod.fst).Nodup → s.ord.dvCheck.get die [] = [] →
      ∃ t, exec (.v4FillReply die line) s = .next t ∧ (∀ a, t.hbmByte a = s.hbmByte a) ∧ t.tiles = s.tiles ∧
        t.ord.dn = s.ord.dn.erase ⟨die, line, .fr bs [], esc, at_⟩ ∧
        (die, line) ∉ t.ord.fills ∧ ((∀ b ∈ bs, b.2.2.2 = true → b.2.2.1 = 0) → s.onlyWaiters t) ∧
        ∀ d l, t.dvByte d l =
          match bs.find? fun b => b.1 == l with
          | some b => if d = die ∧ (s.dvByte die l).readable = false then ⟨true, b.2.1, b.2.2.1, none⟩ else s.dvByte d l
          | none => s.dvByte d l) ∧
    (∀ id, s.dnHead die line = some ⟨die, line, .p id, esc, at_⟩ →
      ∃ t, exec (.v5Propagated die line) s = .next t ∧ t.ord.dn = s.ord.dn.erase ⟨die, line, .p id, esc, at_⟩ ∧ s.sameBytes t ∧
        t.propagatedAt die id = true ∧
        (∀ k st, (s.ctxs.any fun e => e.1 == k) = true → dieOf k = die → (t.strm k st).obs = (s.strm k st).obs.filter fun o => o.1 ≠ id) ∧
        (∀ k st, s.issuedOn die id = true → (s.ctxs.any fun e => e.1 == k) = true →
          (t.strm k st).outE = (s.strm k st).outE.filter fun o => !(o.id == id && o.die == die)))

/-- R199, R49, R50, R409, R436: a home answers K with the stores of its line that are in the coherence order and those whose P was sent, and
the die confirms the former; an early store that completes with an error loses its pending bytes, and its stream has a write error with the
code; a fill's error is answered, and a global access's error is its stream's write error; a far end's answer ends a copy write. Where the
spec leaves a point open it follows the model's reading (notes/assumptions, entry 65). -/
def Obligations.ErrorsAndChecks : Prop :=
  ∀ (s : State) (die line : Nat) (esc : Bool) (at_ : Nat),
    (∀ u, s.ord.up.find? (fun u => u.die == die && u.line == line && decide (u.msg = UpMsg.k)) = some u →
      ∃ t, exec (.kMessage die line) s = .next t ∧ s.onlyOrd t ∧ t.ord.up = s.ord.up.erase u ∧
        t.ord.dn = s.ord.dn ++ [⟨die, line, .kr (s.inOrder line) ((s.inOrder line).filter s.ord.propd.contains), false, s.now⟩]) ∧
    (∀ inCo, s.dnHead die line = some ⟨die, line, .kr inCo [], esc, at_⟩ → (∀ h ∈ s.ord.kHold, h.die = die → h.line = line → h.recd = []) →
      ∃ t, exec (.krMessage die line) s = .next t ∧ s.onlyOrd t ∧ t.ord.dn = s.ord.dn.erase ⟨die, line, .kr inCo [], esc, at_⟩ ∧
        (∀ pre h post, s.ord.kHold = pre ++ h :: post → h.die = die → h.line = line → (∀ x ∈ pre, ¬ (x.die = die ∧ x.line = line)) →
          t.ord.kHold = pre ++ post) ∧
        ∀ d l, t.dvByte d l =
          if d = die ∧ l / 64 = line ∧ (∃ i, (s.dvByte d l).pend = some i ∧ inCo.contains i = true) then { s.dvByte d l with pend := none }
          else s.dvByte d l) ∧
    (∀ id code, s.dnHead die line = some ⟨die, line, .err id false true code, esc, at_⟩ →
      ∃ t, exec (.earlyStoreError die line) s = .next t ∧ t.ord.dn = s.ord.dn.erase ⟨die, line, .err id false true code, esc, at_⟩ ∧
        (∀ a, t.hbmByte a = s.hbmByte a) ∧
        (∀ d l, t.dvByte d l = if d = die ∧ l / 64 = line ∧ (s.dvByte d l).pend = some id then { s.dvByte d l with pend := none, valid := false }
          else s.dvByte d l) ∧
        ∀ k st, (s.ctxs.any fun e => e.1 == k) = true →
          (t.strm k st).werr = (s.strm k st).werr ++
            ((s.strm k st).outE.filter fun o => o.id == id && o.die == die).map fun o => WErr.mk o.cls code o.va) ∧
    (∀ id code, s.dnHead die line = some ⟨die, line, .err id true false code, esc, at_⟩ →
      (∀ k st cls a, dieOf k = die → (s.strm k st).classHead cls = some a → (∀ p ∈ a.parts, p.line ≠ line ∧ ∀ b ∈ p.bytes, b.1 / 64 ≠ line)) →
      ∃ t, exec (.errorCompletion die line) s = .next t ∧ s.onlyWaiters t ∧ (die, line) ∉ t.ord.fills ∧ ∀ d l, t.dvByte d l = s.dvByte d l) ∧
    (∀ id code k st a pre post, s.dnHead die line = some ⟨die, line, .err id false false code, esc, at_⟩ → (s.strm k st).queues pre a post →
      s.awaiting die id line = some (k, st, a) → a.wait = [line] → a.err = 0 → code ≠ 0 → a.sink = .none →
      ∃ t, exec (.errorCompletion die line) s = .next t ∧ (∀ j, j ≠ k → t.ctx j = s.ctx j) ∧ s.sameBytes t ∧ (t.strm k st).cq = pre ++ post ∧
        (t.strm k st).werr = (s.strm k st).werr ++ [⟨a.cls, code, a.va⟩]) ∧
    (∀ k id st, ((s.strm k st).outR.any fun o => o.id == id) = true →
      ∃ t, exec (.farEndAcknowledgement k id) s = .next t ∧ s.sameBytes t ∧ (∀ j, j ≠ k → t.ctx j = s.ctx j) ∧
        (∀ o ∈ (t.strm k st).outR, o.id ≠ id) ∧
        (t.strm k st).werr = (s.strm k st).werr ++ (if Config.remoteCode id = 4 ∨ Config.remoteCode id = 5
          then ((s.strm k st).outR.filter fun o => o.id == id).map fun o => WErr.mk o.cls (Config.remoteCode id) o.va else []))

/-! ### Translation and granules -/

/-- R36 to R39, R59, R40, R74: a walk reads a table at each level and ends at the first leaf, with the page's size and permissions, or in
the fault of the entry it met; of the 16 misses under way the oldest whose walk waits for no line ends, its page enters the translation
cache of its die and every access that waits for it goes on; TLBINV takes the translations of its scope, and the failed walks of the old tables,
out of every die, and BUSY clears when no live die holds one; a memory die's counters and rate follow its
requests. Where the spec leaves a point open it follows the model's reading (notes/assumptions, entries 30, 42 and 51). -/
def Obligations.TranslationEvents : Prop :=
  (∀ (s : State) (die vf asid va : Nat),
    let a := s.pf.ase.get asid {}
    ((a.w0.getLsbD 31 = false ∨ fld a.w0.toNat 0 9 ≠ vf) → s.walk die vf asid va = .bad 0 0) ∧
    (∀ es e base, a.w0.getLsbD 31 = true → fld a.w0.toNat 0 9 = vf → es.length ≤ 3 → s.leads die vf va (a.w1.toNat * 2 ^ 16) 0 es base →
      let level := es.length
      s.tableEntry die vf (entryAddr va base level) = (.page 0 0 true true true, e) →
      (bit e 0 = false → s.walk die vf asid va = .bad 0 level) ∧
      (bit e 0 = true → malformed level e → s.walk die vf asid va = .bad 1 level) ∧
      (bit e 0 = true → ¬ malformed level e → bit e 1 = true →
        s.walk die vf asid va = .page (entryTarget e) (tableLevel level).1 (bit e 2) (bit e 3) (bit e 4)))) ∧
  (∀ (s : State) (die : Nat) (pre : List Miss) (q : Miss) (post : List Miss), s.mem.missq.get die [] = pre ++ q :: post → pre.length < 16 →
    (∀ m ∈ pre, ∃ line, s.walk die m.vf m.asid m.va = .wait line) → (s.ord.dvCheck.get die [] = [] ∨ 16 ≤ die) →
    let others := fun (size : Nat) => (pre ++ post).filter fun m => !(m.vf == q.vf && m.asid == q.asid && m.va / 2 ^ size == q.va / 2 ^ size)
    let only := fun (t : State) => t.ord = { s.ord with fills := t.ord.fills, up := t.ord.up } ∧
      t = { s with ord := t.ord, mem := { s.mem with tlb := t.mem.tlb, walkBad := t.mem.walkBad, missq := t.mem.missq, waiters := t.mem.waiters
                                                     fillBad := t.mem.fillBad } }
    (∀ gpa size rd w x, s.walk die q.vf q.asid q.va = .page gpa size rd w x →
      let e : TlbEntry := ⟨q.asid, q.vf, size, q.va / 2 ^ size, gpa, rd, w, x⟩
      ∃ t, exec (.translationWalkDone die) s = .next t ∧ only t ∧ t.mem.walkBad = s.mem.walkBad ∧
        t.mem.missq.get die [] = others size ∧
        (∀ d, d ≠ die → t.mem.missq.get d [] = s.mem.missq.get d [] ∧ t.mem.tlb.get d [] = s.mem.tlb.get d []) ∧
        e ∈ t.mem.tlb.get die [] ∧ (∀ y ∈ t.mem.tlb.get die [], y = e ∨ y ∈ s.mem.tlb.get die []) ∧
        (s.isSealed q.vf = false → s.sealedVfs = [] → (s.mem.tlb.get die []).length < Config.tlbEntries →
          t.mem.tlb.get die [] = s.mem.tlb.get die [] ++ [e])) ∧
    (∀ kind level, s.walk die q.vf q.asid q.va = .bad kind level →
      ∃ t, exec (.translationWalkDone die) s = .next t ∧ only t ∧ t.mem.tlb = s.mem.tlb ∧
        t.mem.walkBad.get die [] = s.mem.walkBad.get die [] ++ [⟨q.asid, q.vf, q.va / 2 ^ 16, kind, level⟩] ∧
        t.mem.missq.get die [] = others 16 ∧
        ∀ d, d ≠ die → t.mem.missq.get d [] = s.mem.missq.get d [] ∧ t.mem.walkBad.get d [] = s.mem.walkBad.get d [])) ∧
  (∀ (s : State) (k : Nat),
    let v := (s.ctx k).tlbinv
    let hits := fun (e : TlbEntry) =>
      (fld v.toNat 61 2 = 0 ∧ e.asid = fld v.toNat 52 9 ∧ e.vpage = fld v.toNat 0 40 * 2 ^ 16 / 2 ^ e.size) ∨
      (fld v.toNat 61 2 = 1 ∧ e.asid = fld v.toNat 52 9) ∨ (fld v.toNat 61 2 = 2 ∧ e.vf = (s.ctx k).vf)
    let stale := fun (w : WalkBad) =>
      (fld v.toNat 61 2 = 0 ∧ w.asid = fld v.toNat 52 9 ∧ w.page = fld v.toNat 0 40) ∨
      (fld v.toNat 61 2 = 1 ∧ w.asid = fld v.toNat 52 9) ∨ (fld v.toNat 61 2 = 2 ∧ w.vf = (s.ctx k).vf)
    (v.getLsbD 63 = true → ∀ i scope, (i, scope) ∈ [(Instr.tlbinvPage k, 0), (.tlbinvAsid k, 1), (.tlbinvPartition k, 2)] → fld v.toNat 61 2 = scope →
      ∃ t, exec i s = .next t ∧ t = { s with mem := { s.mem with tlb := t.mem.tlb, walkBad := t.mem.walkBad } } ∧
        (∀ d e, e ∈ t.mem.tlb.get d [] ↔ e ∈ s.mem.tlb.get d [] ∧ ¬ hits e) ∧
        ∀ d w, w ∈ t.mem.walkBad.get d [] ↔ w ∈ s.mem.walkBad.get d [] ∧ ¬ stale w) ∧
    (v.getLsbD 63 = true → (∀ d ∈ s.mem.tlb, s.isLive d.1 = true → ∀ e ∈ d.2, ¬ hits e) →
      (∀ d ∈ s.mem.walkBad, s.isLive d.1 = true → ∀ w ∈ d.2, ¬ stale w) →
      ∃ t, exec (.tlbinvDone k) s = .next t ∧ t = { s with ctxs := t.ctxs } ∧ (∀ j, j ≠ k → t.ctx j = s.ctx j) ∧
        t.ctx k = { s.ctx k with tlbinv := v &&& 0x7FFFFFFFFFFFFFFF }) ∧
    ((∃ d, s.isLive d = true ∧ ∃ e ∈ s.mem.tlb.get d [], hits e) → exec (.tlbinvDone k) s = .next s)) ∧
  (∀ (s : State) (m : Nat),
    (2 ^ 20 ≤ s.mem.served.get m 0 → ∃ t, exec (.counterHalving m) s = .next t ∧
      t = { s with mem := { s.mem with served := s.mem.served.set m (s.mem.served.get m 0 - 2 ^ 20), stage2 := t.mem.stage2 } } ∧
      ∀ n g, g < Config.slots → fld (t.stage2 n g) 0 32 = fld (s.stage2 n g) 0 32 ∧
        ∀ q, q < 4 → quadCount (t.stage2 n g) q = if n = m then quadCount (s.stage2 n g) q / 2 else quadCount (s.stage2 n g) q) ∧
    (s.mem.served.get m 0 < 2 ^ 20 → exec (.counterHalving m) s = .next s) ∧
    (s.mem.missSig.get m 0 ≠ 0 → exec (.missSignal m) s = .next { s with mem := { s.mem with
      missSig := s.mem.missSig.set m (s.mem.missSig.get m 0 - 1), rate := s.mem.rate.set m (Nat.max 1 (s.mem.rate.get m 16 - 1))
      since := s.mem.since.set m 0 } }) ∧
    (2 ^ 16 ≤ s.mem.since.get m 0 → exec (.admissionRateRise m) s = .next { s with mem := { s.mem with
      rate := s.mem.rate.set m (Nat.min 16 (s.mem.rate.get m 16 + 1)), since := s.mem.since.set m 0 } }) ∧
    (s.mem.missSig.get m 0 = 0 → exec (.missSignal m) s = .next s) ∧ (s.mem.since.get m 0 < 2 ^ 16 → exec (.admissionRateRise m) s = .next s))

/-- R34, R35, R41, R43, R44: a home-table write reaches every live die; while another is under way or the granule migrates it waits and is
taken after; a map write replaces its word; a migration, while it is enabled, sets MIG, copies the granule to the lowest free frame of its
new home, writes HOME with MIG := 0, and frees the old frame at its end; of the touches of a cycle that of the lowest die binds the slot to a
zero-filled frame of the first memory die that has one; a pull fills the frame with the fetched bytes. Where the spec leaves a point open it follows the model's reading (notes/assumptions, entries 38 and 103). -/
def Obligations.GranuleEvents : Prop :=
  (∀ (s : State) (m f : Nat), s.lowestFree m = some f ↔ f < 2 ^ 16 ∧ s.frameFree m f = true ∧ ∀ g, g < f → s.frameFree m g = false) ∧
  (∀ (s : State) (slot v : Nat), slot < Config.slots →
    let w := BitVec.ofNat 32 v &&& 0xBC0001FF
    let later := exec (.homeTableWrite slot v) s = .next { s with mem := { s.mem with homeWait := s.mem.homeWait ++ [(slot, w)] } }
    (s.mem.homeWrite = none → s.mem.homeWait = [] → s.migrating (slot * 2 ^ 15) = false →
      ∃ t, exec (.homeTableWrite slot v) s = .next t ∧ s.homeSet t slot w ∧
        t = { s with mem := { s.mem with home := t.mem.home, homeCopy := t.mem.homeCopy, homeWrite := some (slot, w) } }) ∧
    (s.mem.homeWrite ≠ none → later) ∧ (s.mem.homeWait = [] → s.migrating (slot * 2 ^ 15) = true → later)) ∧
  (∀ s : State,
    let done := exec .homeTableWriteComplete s = .next { s with mem := { s.mem with homeWrite := none } }
    (s.mem.homeWait = [] → done) ∧
    (∀ slot w rest, s.mem.homeWait = (slot, w) :: rest → s.migrating (slot * 2 ^ 15) = true → done) ∧
    (∀ slot w rest, s.mem.homeWait = (slot, w) :: rest → s.migrating (slot * 2 ^ 15) = false →
      ∃ t, exec .homeTableWriteComplete s = .next t ∧ s.homeSet t slot w ∧
        t = { s with mem := { s.mem with home := t.mem.home, homeCopy := t.mem.homeCopy, homeWrite := some (slot, w), homeWait := rest } })) ∧
  (∀ (s : State) (m w v : Nat), m < 4 → w < 2 ^ 11 → ∃ t, exec (.ffmapWrite m w v) s = .next t ∧ t = { s with mem := { s.mem with ffmap := t.mem.ffmap } } ∧
    ∀ n x, n < 4 → x < 2 ^ 11 → t.ffWord n x = if n = m ∧ x = w then BitVec.ofNat 32 v else s.ffWord n x) ∧
  (∀ (s : State) (m slot q : Nat) (rest : List (Nat × Nat)),
    let g := s.mem.mig.get m {}
    let h := s.masterHome slot
    (s.pf.migEn = false → exec (.migrationStart m) s = .next s) ∧
    (s.pf.migEn = true → g.phase = 0 → g.cand = (slot, q) :: rest → slot < Config.slots → h.getLsbD 31 = true → h.getLsbD 30 = false →
    fld h.toNat 26 2 = m → bit (s.stage2 m slot) 31 = true →
    (∀ f, s.lowestFree q = some f → ∃ t, exec (.migrationStart m) s = .next t ∧ s.homeSet t slot (h ||| 0x40000000) ∧
      t = { s with mem := { s.mem with home := t.mem.home, homeCopy := t.mem.homeCopy
                                       mig := t.mem.mig } } ∧
      t.mem.mig.get m {} = { cand := rest, phase := 1, slot := slot, dest := q, oldFrame := fld (s.stage2 m slot) 0 16 }) ∧
    (s.lowestFree q = none → ∃ t, exec (.migrationStart m) s = .next t ∧
      t = { s with mem := { s.mem with stage2 := t.mem.stage2, mig := s.mem.mig.set m { g with cand := rest } } } ∧
      ∃ v, s.stage2Set t m slot v ∧ fld v 0 32 = fld (s.stage2 m slot) 0 32 ∧ ∀ c, c < 4 → quadCount v c = quadCount (s.stage2 m slot) c / 2))) ∧
  (∀ (s : State) (m f : Nat),
    let g := s.mem.mig.get m {}
    let src := m * hbmSpan + g.oldFrame * 2 ^ 21
    let dst := g.dest * hbmSpan + f * 2 ^ 21
    g.phase = 1 → s.lowestFree g.dest = some f → g.dest < 4 → g.slot < Config.slots → s.memWf →
    ∃ t, exec (.migrationCopyDone m) s = .next t ∧ s.onlyMem t ∧
      (∀ a, t.hbmByte a = if dst ≤ a ∧ a < dst + 2 ^ 21 then s.hbmByte (src + (a - dst)) else s.hbmByte a) ∧
      s.stage2Set t g.dest g.slot (2 ^ 31 + f) ∧ s.frameSet t g.dest f false ∧ t.mem.mig.get m {} = { g with phase := 2 } ∧
      ∃ w, s.homeSet t g.slot w ∧ fld w.toNat 26 2 = g.dest ∧ w.getLsbD 30 = false ∧ fld w.toNat 0 26 = fld (s.masterHome g.slot).toNat 0 26 ∧
        ∀ b, b = 28 ∨ b = 29 ∨ b = 31 → w.getLsbD b = (s.masterHome g.slot).getLsbD b) ∧
  (∀ (s : State) (m : Nat),
    let g := s.mem.mig.get m {}
    let mig := s.mem.mig.set m { g with phase := 0 }
    let frees := fun (t : State) => s.frameSet t m g.oldFrame true ∧ ∃ v, s.stage2Set t m g.slot v ∧ bit v 31 = false ∧
      fld v 0 31 = fld (s.stage2 m g.slot) 0 31
    g.phase = 2 → g.slot < Config.slots → g.oldFrame < 2 ^ 16 → m < 4 →
    (s.mem.homeWait = [] ∨ s.mem.homeWrite ≠ none → ∃ t, exec (.migrationAcksComplete m) s = .next t ∧ frees t ∧
      t = { s with mem := { s.mem with stage2 := t.mem.stage2, ffmap := t.mem.ffmap, mig := mig } }) ∧
    (∀ slot w rest, s.mem.homeWrite = none → s.mem.homeWait = (slot, w) :: rest →
      ({ s with mem := { s.mem with mig := mig } } : State).migrating (slot * 2 ^ 15) = false →
      ∃ t, exec (.migrationAcksComplete m) s = .next t ∧ frees t ∧ s.homeSet t slot w ∧
        t = { s with mem := { s.mem with home := t.mem.home, homeCopy := t.mem.homeCopy, stage2 := t.mem.stage2, ffmap := t.mem.ffmap, mig := mig
                                         homeWrite := some (slot, w), homeWait := rest } })) ∧
  (∀ (s : State) (slot : Nat) (dies : List Nat) (pre : List Up) (u : Up) (post : List Up),
    (s.pick = slot :: dies ∨ (s.pick = [] ∧ dies = List.range 16 ∧
      ∃ v, s.ord.up.find? (fun u => u.msg.waits && decide (s.homeAt u = .bind)) = some v ∧ v.slot = slot)) →
    (s.ord.up.filter fun u => u.msg.waits && u.slot == slot && dies.contains u.die && decide (s.homeAt u = .bind)) = pre ++ u :: post →
    (∀ v ∈ pre, u.die < v.die) → (∀ v ∈ post, u.die ≤ v.die) →
    (∀ m f, slot < Config.slots → s.firstRoom (quadOf u.die) m f → s.memWf → ∃ t, exec .firstTouchBind s = .next t ∧ s.onlyMem t ∧
      (∀ a, t.hbmByte a = if frameAddr m f ≤ a ∧ a < frameAddr m f + 2 ^ 21 then 0 else s.hbmByte a) ∧ s.frameSet t m f false ∧
      s.stage2Set t m slot (2 ^ 31 + f) ∧ ∃ w, s.homeSet t slot w ∧ w.getLsbD 31 = true ∧ w.getLsbD 29 = false ∧ fld w.toNat 26 2 = m ∧
        fld w.toNat 0 9 = fld (s.masterHome slot).toNat 0 9) ∧
    ((∀ m f, ¬ s.firstRoom (quadOf u.die) m f) → exec .firstTouchBind s = .next { s with ord := { s.ord with
      up := s.ord.up.erase u, dn := s.ord.dn ++ [⟨u.die, u.line, u.failed 5, false, s.now⟩] } })) ∧
  (∀ (s : State),
    (∀ u, s.ord.up.find? (fun u => u.msg.waits && decide (s.homeAt u = .pull) && !s.mem.pulling.contains u.slot) = some u →
      exec .pullFetch s = .next { s with mem := { s.mem with pulling := s.mem.pulling ++ [u.line * 64 / 2 ^ 21] } }) ∧
    (∀ slot rest bytes u m f, s.mem.pulling = slot :: rest → slot < Config.slots → s.ord.up.find? (fun u => u.msg.waits && u.slot == slot) = some u →
      s.firstRoom (quadOf u.die) m f → s.memWf → Memory.wf 0 bytes = true → (∀ c ∈ bytes, c.1 < 2 ^ 21) →
      ∃ t, exec (.pullFetchDone bytes) s = .next t ∧ s.onlyMem t ∧ t.mem.pulling = rest ∧
        (∀ a, t.hbmByte a = if frameAddr m f ≤ a ∧ a < frameAddr m f + 2 ^ 21 then memGet 0 bytes (a - frameAddr m f) else s.hbmByte a) ∧
        s.frameSet t m f false ∧ s.stage2Set t m slot (2 ^ 31 + f) ∧ ∃ w, s.homeSet t slot w ∧ w.getLsbD 31 = true ∧ w.getLsbD 29 = false ∧
          fld w.toNat 26 2 = m) ∧
    (∀ slot rest, s.mem.pulling = slot :: rest → ∃ t, exec .pullFailed s = .next t ∧
      t = { s with mem := { s.mem with pulling := rest, fillBad := t.mem.fillBad }, ord := t.ord } ∧
      t.mem.fillBad = s.mem.fillBad ++ (if (2048, slot) ∈ s.mem.waiters then [⟨2048, [slot], 6⟩] else []) ∧
      let p := fun (u : Up) => u.msg.waits && u.slot == slot
      t.ord = { s.ord with up := s.ord.up.filter (fun u => !p u), dn := s.ord.dn ++ (s.ord.up.filter p).map fun u => ⟨u.die, u.line, u.failed 6, false, s.now⟩ }))

/-! ### Storage codes and scrubbing -/

/-- R433: each code reads a word it has formed as clean, returns the data of a word with one wrong bit of data or check, and finds every
word with two wrong bits uncorrectable. R121 to R124: a scrub visit corrects a single-bit error, writes the word back and counts it; it logs
an uncorrectable word and leaves it; a sweep and a visit of the history's rows correct every word of their rows; a corrected word that waits
is written back. Where the spec leaves a point open it follows the model's reading (notes/assumptions, entry 16). -/
def Obligations.EccEvents : Prop :=
  (∀ n nk d : Nat, (n, nk) = (32, 6) ∨ (n, nk) = (64, 7) → d < 2 ^ n →
    let k := eccCode n nk d
    k < 2 ^ (nk + 1) ∧ eccRead n nk d k = .clean ∧
    (∀ i, i < n → eccRead n nk (d ^^^ 2 ^ i) k = .fixed d) ∧ (∀ j, j ≤ nk → eccRead n nk d (k ^^^ 2 ^ j) = .fixed d) ∧
    (∀ i j, i < j → j < n → eccRead n nk (d ^^^ 2 ^ i ^^^ 2 ^ j) k = .bad) ∧
    (∀ i j, i < n → j ≤ nk → eccRead n nk (d ^^^ 2 ^ i) (k ^^^ 2 ^ j) = .bad) ∧
    (∀ i j, i < j → j ≤ nk → eccRead n nk d (k ^^^ 2 ^ i ^^^ 2 ^ j) = .bad)) ∧
  (eccCode 32 6 1 = 0x43 ∧ eccCode 64 7 1 = 0x83) ∧
  (∀ (s : State) (i : Instr) (w : EccWord), (∃ k n, i = .registerFileScrub k n ∧ w = .reg k n) ∨ (∃ x, i = .sramScrub x ∧ w = .sram x) →
    let log := fun bad => s.pf.ecc.set (s.wordPlace w).1 ((s.pf.ecc.get (s.wordPlace w).1 {}).entry (s.wordPlace w) bad)
    (s.planted w = false ∨ s.readWord w = .clean → exec i s = .next s) ∧
    (s.planted w = true → s.readWord w = .bad → exec i s = .next { s with pf := { s.pf with ecc := log true } }) ∧
    (∀ d, s.planted w = true → s.readWord w = .fixed d → ∃ t, exec i s = .next t ∧ s.corrected t w d ∧ t.pf = { s.pf with ecc := log false } ∧
      t.mem = s.mem ∧ t.sched = s.sched)) ∧
  (∀ (s : State) (m channel unit : Nat), m < 4 → channel < 192 → unit < 2 ^ 22 → 192 * unit + channel < 2 ^ 29 → s.memWf →
    let row := channel * 2 ^ 22 + unit
    let word := fun w => ∃ i, i < 32 ∧ w = m * 2 ^ 34 + 32 * (192 * unit + channel) + i
    ∃ t, exec (.hbmSweep m row) s = .next t ∧ s.swept t word ∧
      ((∃ w, word w ∧ s.planted (.hbm 0 w) = true ∧ ∃ d, s.readWord (.hbm 0 w) = .fixed d) → (t.mem.history.get m []).getLast? = some row)) ∧
  (∀ (s : State) (m : Nat), s.memWf → ∃ t, exec (.historyRowVisit m) s = .next t ∧
    s.swept t fun w => ∃ row ∈ s.mem.history.get m [], ∃ i, i < 32 ∧ w = m * 2 ^ 34 + 32 * rowUnit row + i) ∧
  (∀ (s : State) (w : EccWord) (rest : List EccWord), s.mem.writeback = w :: rest → s.memWf →
    (s.planted w = false ∨ s.readWord w = .clean ∨ s.readWord w = .bad →
      exec .eccWriteback s = .next { s with mem := { s.mem with writeback := rest } }) ∧
    (∀ d, s.planted w = true → s.readWord w = .fixed d → ∃ t, exec .eccWriteback s = .next t ∧ s.corrected t w d ∧ t.mem.writeback = rest ∧ t.pf = s.pf))

/-! ### The function windows -/

/-- R7, R8, R54, R57, R59, R118, R398: writes of plain registers store their RW fields; a write that clears EXPERT returns every expert
field to its reset value; ownership, PCTL and weight windows take a write unless a rule ignores it; and a die retires and returns by DSUSP.
Where the spec leaves a point open it follows the model's reading (notes/assumptions, entries 67, 68 and 91). -/
def Obligations.FunctionRegisters : Prop :=
  ∀ s : State,
    (∀ off v pf, pfRegister s.pf off v = some pf → exec (.registerWrite .pf off v) s = .next { s with pf := pf }) ∧
    (∀ die v, die < 37 → let e := s.pf.ecc.get die {}
      exec (.registerWrite .pf (0x4300 + 16 * die) v) s = .next { s with pf := { s.pf with ecc := s.pf.ecc.set die { e with cecnt := BitVec.ofNat 32 v } } } ∧
      exec (.registerWrite .pf (0x4304 + 16 * die) v) s = .next { s with pf := { s.pf with ecc := s.pf.ecc.set die { e with uecnt := BitVec.ofNat 32 v } } } ∧
      exec (.registerWrite .pf (0x4308 + 16 * die) v) s = .next s ∧ exec (.registerWrite .pf (0x430C + 16 * die) v) s = .next s) ∧
    (∀ n v, n < 512 → let e := s.pf.ase.get n {}
      let h := s.pf.htwin.get n {}
      exec (.registerWrite .pf (0x20000 + 16 * n) v) s =
        .next { s with pf := { s.pf with ase := s.pf.ase.set n { e with w0 := BitVec.ofNat 32 v &&& 0x800001FF } } } ∧
      exec (.registerWrite .pf (0x20004 + 16 * n) v) s = .next { s with pf := { s.pf with ase := s.pf.ase.set n { e with w1 := BitVec.ofNat 32 v } } } ∧
      exec (.registerWrite .pf (0x10000 + 8 * n) v) s =
        .next { s with pf := { s.pf with htwin := s.pf.htwin.set n { h with w0 := BitVec.ofNat 32 v &&& 0x3FFFF } } } ∧
      exec (.registerWrite .pf (0x10004 + 8 * n) v) s =
        .next { s with pf := { s.pf with htwin := s.pf.htwin.set n { h with w1 := BitVec.ofNat 32 v &&& 0x3FFFF } } }) ∧
    (∀ n v, n < 16 → exec (.registerWrite .pf (0x50000 + 4 * n) v) s =
      .next (if s.pf.expert then { s with pf := { s.pf with slice := s.pf.slice.set n (v % 32) } } else s)) ∧
    (∀ n v, n < 512 → let x := s.vfs.get n {}
      exec (.registerWrite (.vf n) 0x210 v) s = .next { s with vfs := s.vfs.set n { x with rst := bit v 30, pullok := bit v 29 } } ∧
      exec (.registerWrite (.vf n) 0x208 v) s = .next { s with vfs := s.vfs.set n { x with cklen := (x.cklen >>> 32 <<< 32) ||| BitVec.ofNat 64 (v % 2 ^ 32) } } ∧
      exec (.registerWrite (.vf n) 0x204 v) s =
        .next { s with vfs := s.vfs.set n { x with ckbase := (x.ckbase &&& 0xFFFFFFFF) ||| (BitVec.ofNat 64 (v % 2 ^ 32) <<< 32) } }) ∧
    (∃ t, exec (.expertClear .pf) s = .next t ∧ s.onlyPf t ∧ t.pf.expert = false ∧ (∀ n, t.pf.slice.get n 16 = 16) ∧
      (∀ n, t.pctl n = { s.pctl n with w2 := ((s.pctl n).w2 &&& 0x8000FFFF) ||| 0x4E000000 }) ∧
      ∀ d, t.pf.susp.get d {} = { s.pf.susp.get d {} with score := 0 }) ∧
    (∀ n, ∃ t, exec (.expertClear (.vf n)) s = .next t ∧ t = { s with vfs := t.vfs } ∧ (∀ j, j ≠ n → t.vfs.get j {} = s.vfs.get j {}) ∧
      (t.vfs.get n {}).expert = false ∧ ∀ q, t.queue n q = { s.queue n q with nopre := false }) ∧
    (∀ idx v, idx < 768 →
      let w := BitVec.ofNat 32 v &&& 0xC0001FFF
      let own := s.pf.own.set idx w
      (fld v 30 2 = 3 ∨ ({ s with pf := { s.pf with own := own } } : State).overused = true → exec (.ownershipWrite idx v) s = .next s) ∧
      (fld v 30 2 ≠ 3 → ({ s with pf := { s.pf with own := own } } : State).overused = false → (s.sched.insts.map Inst.id).Nodup →
        ∃ t, exec (.ownershipWrite idx v) s = .next t ∧ t.pf.own = own ∧ t.pf.pctl = s.pf.pctl ∧ t.mem = s.mem ∧ t.ord = s.ord ∧
          (s.pf.own.get idx 0 ≠ w → t.vacates (fun i => i.ctxs.any fun k => k / 4 == idx / 3) t.unowned))) ∧
    (∀ vf v, vf < 512 → let p := s.pctl vf
      let put := fun (q : Pctl) => exec (.pctlWrite vf 2 v) s = .next { s with pf := { s.pf with pctl := s.pf.pctl.set vf q } }
      (bit v 30 = true → fld v 0 16 = 0 ∨ bit v 28 = true ∨ s.waysOf vf = 0 → exec (.pctlWrite vf 0 v) s = .next s) ∧
      (∀ o, o ≠ vf → s.isSealed o = true → (∃ b, b < 16 ∧ bit v b = true ∧ (s.pctl o).w0.getLsbD b = true) → exec (.pctlWrite vf 0 v) s = .next s) ∧
      (s.pctl0Ignored vf (BitVec.ofNat 32 v &&& 0xFF00FFFF).toNat = false →
        ({ s with pf := { s.pf with pctl := s.pf.pctl.set vf { p with w0 := BitVec.ofNat 32 v &&& 0xFF00FFFF } } } : State).overused = false →
        ∃ t, exec (.pctlWrite vf 0 v) s = .next t ∧ t.pctl vf = { p with w0 := BitVec.ofNat 32 v &&& 0xFF00FFFF } ∧
          (∀ o, o ≠ vf → t.pctl o = s.pctl o) ∧ t.pf.own = s.pf.own ∧ t.mem = s.mem) ∧
      (16 < v % 4096 → exec (.pctlWrite vf 1 v) s = .next s) ∧
      (s.pf.expert = true → put { p with w2 := BitVec.ofNat 32 v &&& 0xFF00FFFF }) ∧
      (s.pf.expert = false → put { p with w2 := (p.w2 &&& 0x7F000000) ||| (BitVec.ofNat 32 v &&& 0x8000FFFF) }) ∧
      (s.isSealed vf = true → v % 2 ^ 16 = 0 → exec (.pctlWrite vf 3 v) s = .next s) ∧
      (s.isSealed vf = false → exec (.pctlWrite vf 3 v) s =
        .next { s with pf := { s.pf with pctl := s.pf.pctl.set vf { p with w3 := BitVec.ofNat 32 (v % 2 ^ 16) } } })) ∧
    (∀ vf word v, vf < 512 → word < 2 →
      let w := s.pf.wwin.get vf {}
      let new : Two := if word = 0 then { w with w0 := BitVec.ofNat 32 (v % 2 ^ 12) } else { w with w1 := BitVec.ofNat 32 (v % 2 ^ 13) }
      let fits := fld new.w0.toNat 0 12 + fld new.w1.toNat 0 13 ≤ 4096
      (fits → (∀ o ∈ s.pf.wwin, o.1 ≠ vf → apart o.2 new) → exec (.wwinWrite vf word v) s = .next { s with pf := { s.pf with wwin := s.pf.wwin.set vf new } }) ∧
      (¬ fits ∨ (∃ o ∈ s.pf.wwin, o.1 ≠ vf ∧ ¬ apart o.2 new) → exec (.wwinWrite vf word v) s = .next s)) ∧
    (∀ die v, die < 16 → (s.sched.insts.map Inst.id).Nodup →
      let u := s.pf.susp.get die {}
      let on := fun (i : Inst) => i.teams.any fun t => t.die == die
      (u.ret = false → ∃ t, exec (.dieRetire die) s = .next t ∧ t.pf.susp = s.pf.susp.set die { u with ret := true } ∧ t.vacates on on ∧ t.mem = s.mem ∧
        t.pf.left = s.pf.left) ∧
      (u.ret = true → exec (.dieRetire die) s = .next s) ∧
      (u.ret = true → exec (.dieReturnToService die) s = .next { s with pf := { s.pf with susp := s.pf.susp.set die { u with ret := false, score := 0 } } }) ∧
      (u.ret = false → exec (.dieReturnToService die) s = .next s) ∧
      (u.ret = true → bit v 31 = false →
        exec (.scoreWrite die v) s = .next { s with pf := { s.pf with susp := s.pf.susp.set die { u with ret := false, score := 0 } } }) ∧
      (u.ret = false → bit v 31 = false → s.pf.expert = true → fld v 0 8 < 16 →
        exec (.scoreWrite die v) s = .next { s with pf := { s.pf with susp := s.pf.susp.set die { u with score := fld v 0 8 } } }) ∧
      (u.ret = false → bit v 31 = false → s.pf.expert = true → 16 ≤ fld v 0 8 →
        ∃ t, exec (.scoreWrite die v) s = .next t ∧ t.pf.susp.get die {} = { u with score := fld v 0 8, ret := true } ∧ t.vacates on on) ∧
      (u.ret = false → bit v 31 = false → s.pf.expert = false → u.score < 16 → exec (.scoreWrite die v) s = .next s)) ∧
    (∀ idx, exec (.evtClear idx) s = .next { s with pf := { s.pf with conn := s.pf.conn.set idx { s.pf.conn.get idx {} with evt := false } } }) ∧
    exec .mcstatClear s = .next { s with pf := { s.pf with mcstat := { s.pf.mcstat with valid := false } } }

/-- R62 to R64, R68 to R71: a queue starts only when its configuration passes and its indices do not overrun, and a write to one that has
started stores ABORT alone; it drains or aborts when EN is cleared; PIDX is checked while it runs; CHEAD is taken within the records written,
and held records follow in order as far as there is room, with one message; cards are fetched in rotation, and a card is what its 512 bytes
say; a fetch that fails faults its queue. Where the spec leaves a point open it follows the model's reading (notes/assumptions, entries 69 and 92). -/
def Obligations.CommandQueues : Prop :=
  ∀ (s : State) (vf q : Nat), vf < 512 → q < 4 →
    let x := s.queue vf q
    let fault := fun (t : State) (cause : Nat) (y : Queue) => s.queueSet t vf q { y with stat := 3, cause := cause } ∧ s.messages t (.vf vf) y.vec
    let dropped := fun (t : State) =>
      t.sched.fetching = (if s.sched.fetching = some (vf, q) then none else s.sched.fetching) ∧
        t.sched.fetched = s.sched.fetched.filter fun c => !(c.1 == vf && c.2.1 == q)
    (∀ v, x.en = false → x.stat = 0 → x.infl = 0 →
      let y := { x with abort := bit v 30, vec := fld v 16 4, clog := fld v 8 5, qlog := fld v 0 5
                        nopre := if (s.vfs.get vf {}).expert then bit v 29 else x.nopre }
      let on := { y with en := true, stat := 1, cause := 0 }
      ∃ t, exec (.queueEnable vf q v) s = .next t ∧ t = { s with vfs := t.vfs, pf := t.pf } ∧
        (s.queueConfigured vf y → (y.pidx - y.cidx).toNat ≤ 2 ^ y.qlog → s.queueSet t vf q on ∧ t.pf = s.pf) ∧
        (s.queueConfigured vf y → 2 ^ y.qlog < (y.pidx - y.cidx).toNat → fault t 2 on) ∧ (¬ s.queueConfigured vf y → fault t 3 on)) ∧
    (∀ v, x.stat ≠ 0 → x.en = true ∨ x.stat = 2 → ∃ t, exec (.queueEnable vf q v) s = .next t ∧ t = { s with vfs := t.vfs } ∧
      s.queueSet t vf q { x with abort := bit v 30 }) ∧
    (∀ v i flag, (i, flag) ∈ [(Instr.queueDrain vf q v, false), (.queueAbort vf q v, true)] → x.en = false →
      ∃ t, exec i s = .next t ∧ t = { s with vfs := t.vfs } ∧ s.queueSet t vf q
        (if x.stat ≠ 0 ∨ x.infl ≠ 0 then { x with abort := flag }
        else { x with abort := flag, vec := fld v 16 4, clog := fld v 8 5, qlog := fld v 0 5
                      nopre := if (s.vfs.get vf {}).expert then bit v 29 else x.nopre })) ∧
    (∀ v, x.en = true → x.stat = 1 → ∃ t, exec (.queueDrain vf q v) s = .next t ∧ dropped t ∧ t.sched.tasks = s.sched.tasks ∧ t.pf = s.pf ∧
      s.queueSet t vf q { x with abort := false, en := false, stat := if x.infl = 0 then 0 else 2 }) ∧
    (∀ v, x.en = true → x.stat = 3 → ∃ t, exec (.queueDrain vf q v) s = .next t ∧ dropped t ∧ t.sched.tasks = s.sched.tasks ∧ t.pf = s.pf ∧
      s.queueSet t vf q { x with abort := false, en := false, stat := 0, cause := 0 }) ∧
    (∀ v, x.en = true → x.stat ≠ 0 → ∃ t, exec (.queueAbort vf q v) s = .next t ∧ dropped t ∧
      s.queueSet t vf q { x with abort := true, en := false, stat := if x.infl = 0 then 0 else 2, cause := 0 } ∧
      ∀ k ∈ t.sched.tasks, k.vf = vf → k.q = q → k.stat ≠ .ended → k.ending ≠ none) ∧
    (∀ v, let y := { x with pidx := BitVec.ofNat 32 v }
      (x.stat ≠ 1 ∨ (y.pidx - y.cidx).toNat ≤ 2 ^ x.qlog → ∃ t, exec (.pidxWrite vf q v) s = .next t ∧ t = { s with vfs := t.vfs } ∧ s.queueSet t vf q y) ∧
      (x.stat = 1 → 2 ^ x.qlog < (y.pidx - y.cidx).toNat →
        ∃ t, exec (.pidxWrite vf q v) s = .next t ∧ t = { s with vfs := t.vfs, pf := t.pf } ∧ fault t 2 y)) ∧
    (∀ v, let w := BitVec.ofNat 32 v
      ((x.ctail - x.chead).toNat < (w - x.chead).toNat → exec (.cheadWrite vf q v) s = .next s) ∧
      ((w - x.chead).toNat ≤ (x.ctail - x.chead).toNat → x.heldRecs = [] ∨ s.pf.modCheck = true ∨ 2 ^ x.clog ≤ (x.ctail - w).toNat →
        ∃ t, exec (.cheadWrite vf q v) s = .next t ∧ t = { s with vfs := t.vfs } ∧ s.queueSet t vf q { x with chead := w }) ∧
      ((w - x.chead).toNat ≤ (x.ctail - x.chead).toNat → x.heldRecs ≠ [] → s.pf.modCheck = false → (x.ctail - w).toNat < 2 ^ x.clog → x.clog ≤ 16 →
        s.memWf → x.cbase.toNat % 32 = 0 →
        let n := Nat.min x.heldRecs.length (2 ^ x.clog - (x.ctail - w).toNat)
        let index := fun j => (x.ctail + BitVec.ofNat 32 j).toNat
        let at_ := fun j => (x.cbase.toNat + 32 * (index j % 2 ^ x.clog)) % 2 ^ 64
        ∃ t, exec (.cheadWrite vf q v) s = .next t ∧
          s.queueSet t vf q { x with chead := w, ctail := x.ctail + BitVec.ofNat 32 n, heldRecs := x.heldRecs.drop n } ∧ s.messages t (.vf vf) x.vec ∧
          (∀ j r, j < n → x.heldRecs[j]? = some r → let a := at_ j
            t.hostNat a 8 = r.status % 2 ^ 8 * 2 ^ 8 + (1 - index j / 2 ^ x.clog % 2) * 2 ^ 24 + r.err % 2 ^ 4 * 2 ^ 28 + r.tag % 2 ^ 32 * 2 ^ 32 ∧
            t.hostNat (a + 8) 8 = r.cyc % 2 ^ 48 ∧ t.hostNat (a + 16) 8 = r.seq % 2 ^ 48 ∧ t.hostNat (a + 24) 8 = r.fva % 2 ^ 64) ∧
          ∀ a, (∀ j, j < n → a < at_ j ∨ at_ j + 32 ≤ a) → t.hostByte a = s.hostByte a)) ∧
    (s.hasCard vf q → s.pf.modCheck = false → s.sched.fetching = none →
      (∀ n r, s.hasCard n r → rotated s.sched.vfTurn 512 vf ≤ rotated s.sched.vfTurn 512 n) →
      (∀ r, s.hasCard vf r → rotated (s.sched.qTurn.get vf 0) 4 q ≤ rotated (s.sched.qTurn.get vf 0) 4 r) →
      exec .cardFetch s = .next { s with sched := { s.sched with
        vfTurn := vf + 1, qTurn := s.sched.qTurn.set vf (q + 1), fetching := some (vf, q) } }) ∧
    (s.pf.modCheck = true ∨ s.sched.fetching ≠ none ∨ (∀ n r, ¬ s.hasCard n r) → exec .cardFetch s = .next s) ∧
    (s.sched.fetching = some (vf, q) →
      let quad := fun n => s.hostNat ((x.qbase.toNat + 512 * (x.cidx.toNat % 2 ^ x.qlog) + 8 * n) % 2 ^ 64) 8
      (∃ (t : State) (c : Card), exec .cardFetchDone s = .next t ∧ s.queueSet t vf q { x with cidx := x.cidx + 1 } ∧
        t = { s with vfs := t.vfs, sched := { s.sched with fetching := none, fetched := s.sched.fetched ++ [(vf, q, c)] } } ∧
        c.tag = quad 0 / 2 ^ 32 ∧ c.eng = fld (quad 0) 22 3 ∧ c.team = fld (quad 0) 20 2 ∧ c.nstage = fld (quad 0) 16 4 ∧ c.shrink = bit (quad 0) 13 ∧
        c.pclass = fld (quad 0) 11 2 ∧ c.prio = fld (quad 0) 8 3 ∧ c.version = fld (quad 0) 0 8 ∧ c.asid = fld (quad 1) 48 9 ∧
        c.gz = fld (quad 1) 32 16 ∧ c.gy = fld (quad 1) 16 16 ∧ c.gx = fld (quad 1) 0 16 ∧ c.wait = quad 2 / 2 ^ 48 ∧ c.budget = fld (quad 2) 0 48 ∧
        c.code = fld (quad 3) 0 56 ∧ c.ttab = fld (quad 4) 0 56 ∧ c.ovf = fld (quad 5) 0 56 ∧ c.ttabn = fld (quad 6) 32 13 ∧ c.ovfn = fld (quad 6) 0 16 ∧
        c.args = (List.range 8).map (fun j => BitVec.ofNat 64 (quad (20 + j))) ∧
        (∀ n, n < c.stages.length → c.stages[n]? = some (fld (quad (8 + n)) 32 8, fld (quad (8 + n)) 0 32)) ∧ c.stages.length = Nat.min c.nstage 8 ∧
        (∀ n, n < c.regions.length → c.regions[n]? = some ⟨fld (quad (32 + 2 * n)) 0 56, fld (quad (33 + 2 * n)) 0 40, fld (quad (33 + 2 * n)) 40 2⟩) ∧
        c.regions.length = Nat.min (fld (quad 6) 16 5) 16 ∧ c.succ.length = Nat.min (fld (quad 6) 24 4) 8 ∧
        (∀ n, n < c.succ.length → c.succ[n]? = some (fld (quad (16 + n / 2)) (32 * (n % 2)) 32)) ∧ (c.mbz = true ↔ zeroFields quad)) ∧
      (∃ t, exec .cardFetchFault s = .next t ∧ t.sched = { s.sched with fetching := none } ∧ fault t 1 x))

/-! ### Power, connectors and the fabric -/

/-- R13, R16 to R19, R23 to R26, R28, R29, R46, R60: every rail slot is sampled; each live die moves its clock one step by its cap, and is marked
unavailable and cleared after 1 ms; a connector's STATE follows its measurements; routers are gated after 512 idle cycles and wake; the
control core and the copy engine alternate on a rail, and a beat arrives |i - j| cycles after its injection; a transfer makes one beat for
each 512 bytes; a header waits at a gated router, else goes on 3 cycles after it came and wakes the router two hops ahead of it; a flit enters
a link when it has a credit, and a packet that has had none for 64 cycles moves to the escape channel. Where the spec leaves a point open it
follows the model's reading (notes/assumptions, entries 60, 62, 63 and 87). -/
def Obligations.PowerAndFabric : Prop :=
  (∀ (s : State) (vals : List RailMeas), ∃ t, exec (.railTelemetrySample vals) s = .next t ∧ t = { s with pf := { s.pf with rails := t.pf.rails } } ∧
    ∀ n, (¬ railSlot n → t.pf.rails.get n {} = s.pf.rails.get n {}) ∧
      (∀ m, railSlot n → vals.find? (fun v => v.slot == n) = some m → t.pf.rails.get n {} =
        ⟨BitVec.ofNat 32 m.vmv, BitVec.ofNat 32 m.ima, BitVec.ofNat 16 m.temp, (s.pf.rails.get n {}).seq + 2⟩) ∧
      (railSlot n → vals.find? (fun v => v.slot == n) = none → t.pf.rails.get n {} =
        { s.pf.rails.get n {} with seq := (s.pf.rails.get n {}).seq + 2 })) ∧
  (∀ (s : State) (v : Nat), exec (.coolantWrite v) s = .next { s with pf := { s.pf with coolant := BitVec.ofNat 32 v &&& 0x80FFFFFF } }) ∧
  (∀ (s : State) (watts : List (Nat × Nat)), ∃ t, exec (.powerControlInterval watts) s = .next t ∧
    t = { s with pf := { s.pf with coolantEff := s.pf.coolant, power := t.pf.power } } ∧
    ∀ d, let p := s.pf.power.get d {}
      (¬ (d < 37 ∧ s.isLive d = true) → t.pf.power.get d {} = p) ∧
      (∀ w, d < 37 → s.isLive d = true → watts.find? (fun w => w.1 == d) = some w →
        let cap := capWatts s.pf.coolant.toNat d
        let r := t.pf.power.get d {}
        r.pwrw = w.2 ∧ r.capw = some cap ∧ r.unavail = p.unavail ∧
        (cap < w.2 → r.fstep = Nat.max 14 (p.fstep - 1)) ∧ (100 * w.2 < 95 * cap → r.fstep = Nat.min 56 (p.fstep + 1)) ∧
        (w.2 ≤ cap → 95 * cap ≤ 100 * w.2 → r.fstep = p.fstep) ∧
        (r.hot = if cap < w.2 ∧ p.fstep = 14 then Nat.min 100 (p.hot + 1) else 0) ∧ (r.cool = if w.2 < cap then Nat.min 100 (p.cool + 1) else 0))) ∧
  (capWatts 0x80C000B4 0 = 162 ∧ capWatts 0x80C000B4 16 = 40 ∧ effectiveCap 0x80C000B4 0 = 162 ∧ effectiveCap 0x80C000B4 16 = 40) ∧
  (∀ (s : State) (die : Nat), let p := s.pf.power.get die {}
    (100 ≤ p.hot → ∃ t, exec (.dieMarkedUnavailable die) s = .next t ∧
      t = { s with pf := { s.pf with power := s.pf.power.set die { p with unavail := true } }, sched := { s.sched with insts := t.sched.insts } } ∧
      (∀ i ∈ t.sched.insts, (i.teams.any fun t => t.die == die) = true → i.stat ≠ .preloaded) ∧
      ∀ i ∈ s.sched.insts, i.stat ≠ .preloaded → i ∈ t.sched.insts) ∧
    (p.hot < 100 → exec (.dieMarkedUnavailable die) s = .next s) ∧
    (100 ≤ p.cool → exec (.dieUnavailableClear die) s = .next { s with pf := { s.pf with power := s.pf.power.set die { p with unavail := false } } }) ∧
    (p.cool < 100 → exec (.dieUnavailableClear die) s = .next s)) ∧
  (∀ (s : State) (idx metric : Nat), idx < 10 →
    let c := s.pf.conn.get idx {}
    let m := Nat.min 65535 metric
    let tgt := fun (t : State) (x : Conn) => ({ s with pf := { s.pf with conn := s.pf.conn.set idx x } } : State).messages t .pf 0
    (c.stat = connState idx m → exec (.connectorMeasurement idx metric) s =
      .next { s with pf := { s.pf with conn := s.pf.conn.set idx { c with metric := m, below := 0 } } }) ∧
    (c.stat < connState idx m → ∃ t, exec (.connectorMeasurement idx metric) s = .next t ∧ tgt t ⟨connState idx m, true, m, 0⟩) ∧
    (connState idx m < c.stat → c.below < 15 → exec (.connectorMeasurement idx metric) s =
      .next { s with pf := { s.pf with conn := s.pf.conn.set idx { c with metric := m, below := c.below + 1 } } }) ∧
    (connState idx m < c.stat → c.below = 15 → ∃ t, exec (.connectorMeasurement idx metric) s = .next t ∧ tgt t ⟨c.stat - 1, true, m, 0⟩)) ∧
  (∀ (s : State) (die strip col : Nat),
    let key := (die * 5 + strip) * 16 + col
    let r := s.router key
    let here := ∃ p ∈ s.fab.transit.map Transit.pkt ++ s.fab.slices, p.leg = .chain ∧ (p.die * 5 + p.strip) * 16 + p.col = key
    (die < 16 → strip < 5 → col < 16 → r.gated = false → r.idleFrom + 512 ≤ (s.cycle die).toNat → ¬ here →
      exec (.routerPowerGate die strip col) s =
        .next { s with fab := { s.fab with routers := s.fab.routers.set key { r with gated := true, wakeAt := none } } }) ∧
    (r.gated = true ∨ (s.cycle die).toNat < r.idleFrom + 512 ∨ here → exec (.routerPowerGate die strip col) s = .next s) ∧
    (∀ at_, r.gated = true → r.wakeAt = some at_ → at_ ≤ (s.cycle die).toNat → exec (.routerWake die strip col) s =
      .next { s with fab := { s.fab with routers := s.fab.routers.set key ⟨false, (s.cycle die).toNat, none⟩ } }) ∧
    (r.gated = false ∨ r.wakeAt = none ∨ (∃ at_, r.wakeAt = some at_ ∧ (s.cycle die).toNat < at_) → exec (.routerWake die strip col) s = .next s)) ∧
  (∀ (s : State) (die : Nat), let now := fld (s.cycle die).toNat 6 4
    (s.sealedVfs ≠ [] → die < 37 → s.fab.slot.get die 16 ≠ now → ∃ t, exec (.sealedSlotStart die) s = .next t ∧
      t = { s with fab := { s.fab with slot := s.fab.slot.set die now, routers := t.fab.routers } } ∧
      ∀ key, let r := s.router key
        t.router key = if key / 80 = die ∧ r.gated = true
          then { r with wakeAt := some (match r.wakeAt with | some a => Nat.min a ((s.cycle die).toNat + 6) | none => (s.cycle die).toNat + 6) } else r) ∧
    (s.sealedVfs = [] ∨ s.fab.slot.get die 16 = now → exec (.sealedSlotStart die) s = .next s)) ∧
  (∀ (s : State) (die col : Nat) (south : Bool) (strip : Nat),
    let now := (s.cycle die).toNat
    let key := ((die * 16 + col) * 2 + (if south then 1 else 0)) * 5 + strip
    let mine := s.fab.railWait.filter fun b => b.onRail die col south && b.src == strip && s.slotOpen die b.vf
    let sends := fun (b : Beat) (turn : AMap Bool) => exec (.railInjection die col south strip) s = .next { s with fab := { s.fab with
      railWait := s.fab.railWait.erase b, beats := s.fab.beats ++ [{ b with at_ := now }], railTurn := turn } }
    ((∃ b ∈ s.fab.beats, b.at_ ≤ now ∧ b.isAt die col south strip now) ∨ mine = [] → exec (.railInjection die col south strip) s = .next s) ∧
    ((∀ b ∈ s.fab.beats, b.at_ ≤ now ∧ ¬ b.isAt die col south strip now) →
      (∀ b, mine = [b] → sends b s.fab.railTurn) ∧
      (∀ b c, mine.find? (fun b => b.eng == 0) = some b → mine.find? (fun b => b.eng == 1) = some c →
        sends (if s.fab.railTurn.get key false then c else b) (s.fab.railTurn.set key (!s.fab.railTurn.get key false)))) ∧
    (∀ b, s.fab.beats.find? (fun b => b.onRail die col south && b.dst == strip && decide (b.at_ + b.span ≤ now)) = some b →
      exec (.railBeatArrival die col south strip) s = .next { s with fab := { s.fab with beats := s.fab.beats.erase b } }) ∧
    ((∀ b ∈ s.fab.beats, b.onRail die col south = true → b.dst = strip → now < b.at_ + b.span) → exec (.railBeatArrival die col south strip) s = .next s)) ∧
  (∀ (f : FabSt) (p : Packet) (dst : Nat), ∃ b : Beat, (f.rail p dst).railWait = f.railWait ++ List.replicate ((p.len + 511) / 512) b ∧
    b.die = p.die ∧ b.col = p.col ∧ b.src = p.strip ∧ b.dst = dst ∧ (b.south = true ↔ p.strip < dst) ∧ b.pkt = p.id ∧ b.eng = p.eng ∧ b.vf = p.vf) ∧
  (∀ (s : State) (f : FabSt) (p : Packet), p.leg = .chain → p.dies = [] →
    let now := (s.cycle p.die).toNat
    let key := fun col => (p.die * 5 + p.strip) * 16 + col
    let r := f.routers.get (key p.col) {}
    (r.gated = true → s.tickPkt f p = (f, { p with since := now + 1 })) ∧
    (r.gated = false → now < p.since + 3 ∨ s.slotOpen p.die p.vf = false → (s.tickPkt f p).2 = p) ∧
    (∀ c d, r.gated = false → p.since + 3 ≤ now → s.slotOpen p.die p.vf = true → (p.col < p.toCol ∧ c = p.col + 1 ∨ p.toCol < p.col ∧ c + 1 = p.col) →
      c ≠ p.toCol → let u := s.tickPkt f p
      u.2 = { p with col := c, since := now } ∧
      ((p.col < p.toCol ∧ d = p.col + 3 ∧ d ≤ p.toCol ∨ p.toCol < p.col ∧ d + 3 = p.col ∧ p.toCol ≤ d) → (f.routers.get (key d) {}).gated = true →
        ∃ at_, (u.1.routers.get (key d) {}).wakeAt = some at_ ∧ at_ ≤ now + 6))) ∧
  (∀ (s : State) (f : FabSt) (p : Packet) (n : Nat) (rest : List Nat), p.leg = .link → p.dies = n :: rest → p.buf = 0 → 0 < p.flits →
    s.linkUp p.die n = true → s.slotOpen p.die p.vf = true →
    let now := (s.cycle p.die).toNat
    let key := linkKey p.die n p.esc
    let u := s.tickPkt f p
    (f.linkBuf.get key 0 ≤ Config.linkFlits → u.2 = { p with flits := p.flits - 1, buf := 1, since := now } ∧
      u.1 = { f with linkBuf := f.linkBuf.set key (f.linkBuf.get key 0 + 1) }) ∧
    (Config.linkFlits < f.linkBuf.get key 0 → p.esc = true ∨ now < p.since + 64 → u = (f, p)) ∧
    (∀ r, Config.linkFlits < f.linkBuf.get key 0 → p.esc = false → p.since + 64 ≤ now → s.escapeRoute p.die (rest.getLastD n) = some r →
      u.1 = f ∧ u.2.esc = true ∧ u.2.dies = r))

/-! ### Dies and links that leave -/

/-- R14, R45 to R48, R117, R159, R182, R199, R255: a quiesce begins when none runs, waits in order when L0 starts it, and goes from phase to
phase: routes without the die, the drain, the die no longer live, requests to it completed with code 2, its reset, and the end; the drain ends
when no packet crosses the die, or with TMO and code 7 after 65,536 cycles; a die rejoins with the home table of L0; a failed link's packets
complete with code 3, and the dies make their pending checks; a packet that has waited 64 cycles moves to the escape channel, and one without a
live path completes with code 4; machine checks are logged, signalled, and take the die or the module down. Where the spec leaves a point open
it follows the model's reading (notes/assumptions, entries 61 and 62). -/
def Obligations.QuiesceAndLinks : Prop :=
  ∀ s : State,
    (∀ die, die < 64 →
      (s.pf.phase = 0 → die ≤ 31 → s.isLive die = true → ∃ t, exec (.drstGo die) s = .next t ∧
        ({ s with pf := { s.pf with drstDie := die, phase := 1, tmo := false, leaving := die } } : State).retabled t (s.pf.left ++ [die])) ∧
      (s.pf.phase ≠ 0 ∨ 31 < die ∨ s.isLive die = false → exec (.drstGo die) s = .next { s with pf := { s.pf with drstDie := die } })) ∧
    (∀ die rest, s.pf.quiesceQ = die :: rest →
      (s.pf.phase = 0 → s.isLive die = true → ∃ t, exec .quiesceStart s = .next t ∧
        ({ s with pf := { s.pf with quiesceQ := rest, phase := 1, tmo := false, leaving := die } } : State).retabled t (s.pf.left ++ [die])) ∧
      (s.pf.phase = 0 → s.isLive die = false → exec .quiesceStart s = .next { s with pf := { s.pf with quiesceQ := rest } }) ∧
      (s.pf.phase ≠ 0 → exec .quiesceStart s = .next s)) ∧
    (let x := s.pf.leaving
      let gone := if x ∈ s.pf.left then s.pf.left else s.pf.left ++ [x]
      let crosses := fun (e : Transit) => e.pkt.die = x ∧ dieOf e.fromCtx ≠ x ∧ dieOf e.toCtx ≠ x
      (s.pf.phase = 1 → exec .quiesceDrainDone s = .next { s with pf := { s.pf with drainFrom := (s.cycle x).toNat, phase := 2 } }) ∧
      (s.pf.phase = 2 → (∀ e ∈ s.fab.transit, ¬ crosses e) → exec .quiesceDrainDone s = .next { s with pf := { s.pf with left := gone, phase := 3 } }) ∧
      (s.pf.phase = 2 → (∃ e ∈ s.fab.transit, crosses e) → exec .quiesceDrainDone s = .next s) ∧
      (s.pf.phase = 3 → ∃ t, exec .quiesceDrainDone s = .next t ∧ t.pf = { s.pf with phase := 4 } ∧ t.mem = s.mem ∧ t.ord = s.ord ∧
        ∀ e ∈ s.fab.transit, dieOf e.toCtx = x → dieOf e.fromCtx ≠ x → e ∉ t.fab.transit ∧ ⟨0, 2, 0⟩ ∈ t.pushErrs e) ∧
      (s.pf.phase = 4 → x ∈ s.pf.left → ∃ t, exec .quiesceDrainDone s = .next t ∧ t.pf.phase = 5 ∧ t.pf.tmo = s.pf.tmo ∧ s.hasLeft t x ∧ (x < 16 → s.losesOn t x 2)) ∧
      (s.pf.phase = 5 → ∃ t u : State, exec .quiesceDrainDone s = .next t ∧ ({ s with pf := { s.pf with phase := 0 } } : State).retabled u s.pf.left ∧
        t = { u with pf := { u.pf with quiesceQ := t.pf.quiesceQ } } ∧ (∃ ds, t.pf.quiesceQ = s.pf.quiesceQ ++ ds) ∧ ∀ d ∈ t.stranded, d ∈ t.pf.quiesceQ) ∧
      (s.pf.phase = 6 → ∃ t, exec .quiesceDrainDone s = .next t ∧
        ({ s with mem := { s.mem with homeCopy := s.mem.homeCopy.set x s.mem.home }
                  pf := { s.pf with left := s.pf.left.filter (· ≠ x), phase := 0 } } : State).retabled t (s.pf.left.filter (· ≠ x))) ∧
      (s.pf.phase = 0 → exec .quiesceDrainDone s = .next s) ∧
      (∀ ups dns, s.pf.phase ≠ 2 ∨ (s.cycle x).toNat < s.pf.drainFrom + 65536 → exec (.drainTimeout ups dns) s = .next s) ∧
      (∀ ups dns, s.pf.phase = 2 → s.pf.drainFrom + 65536 ≤ (s.cycle x).toNat →
        ∃ t, exec (.drainTimeout ups dns) s = .next t ∧ t.pf = { s.pf with left := gone, phase := 3, tmo := true } ∧ t.mem = s.mem ∧
          (∀ n ∈ ups, ∀ u, s.ord.up[n]? = some u → u.msg.waits = true → ⟨u.die, u.line, u.failed 7, false, s.now⟩ ∈ t.ord.dn) ∧
          ∀ e ∈ s.fab.transit, crosses e → e ∉ t.fab.transit ∧ ⟨0, 7, 0⟩ ∈ t.pushErrs e)) ∧
    (∀ die, (s.pf.phase = 0 → die ≤ 31 → s.isLive die = false → exec (.drstJoin die) s = .next { s with
        pf := { s.pf with phase := 6, leaving := die, drstDie := die } }) ∧
      (s.pf.phase ≠ 0 ∨ 31 < die ∨ s.isLive die = true → exec (.drstJoin die) s = .next s)) ∧
    (∀ a b ups dns, (s.linkUp a b = false → exec (.linkFailure a b ups dns) s = .next s) ∧
      (s.linkUp a b = true → ∃ t, exec (.linkFailure a b ups dns) s = .next t ∧ t.linkUp a b = false ∧
        t.fab.linksDown = s.fab.linksDown ++ [linkOf a b] ∧ t.fab.tabLinks = t.fab.linksDown ∧ (∀ n, t.hbmByte n = s.hbmByte n) ∧
        (∀ d l, t.dvByte d l = s.dvByte d l) ∧
        (∀ n ∈ ups, ∀ u id who k bs, s.ord.up[n]? = some u → u.msg = .g id who k bs → ⟨u.die, u.line, u.failed 3, false, s.now⟩ ∈ t.ord.dn) ∧
        (∀ u ∈ s.ord.up, (∀ id who k bs, u.msg ≠ .g id who k bs) → u ∈ t.ord.up) ∧
        (∀ e ∈ s.fab.transit, e.pkt.leg = .link → e.pkt.dies ≠ [] → linkOf e.pkt.die (e.pkt.dies.headD 0) = linkOf a b →
          e ∉ t.fab.transit ∧ ⟨0, 3, 0⟩ ∈ t.pushErrs e) ∧
        (∀ d ∈ s.liveCompute, ∀ l, (s.dvByte d l).pend ≠ none → t.kHeld d (l / 64) = true) ∧
        ∀ d ∈ t.stranded, d ∈ t.pf.quiesceQ ∨ (s.pf.phase ≠ 0 ∧ s.pf.leaving = d))) ∧
    (∀ a b, let down := s.fab.linksDown.filter fun l => decide (l ≠ linkOf a b)
      ∃ t, exec (.linkRejoin a b) s = .next t ∧ ({ s with fab := { s.fab with linksDown := down } } : State).retabled t
        (s.pf.left ++ if s.pf.phase ≠ 0 ∧ s.pf.phase ≠ 6 ∧ s.isLive s.pf.leaving = true then [s.pf.leaving] else [])) ∧
    (∀ idx u, s.ord.up[idx]? = some u → let far := ∃ m addr, s.homeAt u = .at_ m addr ∧ s.joined u.die (Config.memDie m) = false
      (¬ far ∨ u.msg.waits = false →
        (s.now < u.at_ + 64 → exec (.escapeChannelSwitch 0 idx) s = .next s) ∧
        (u.at_ + 64 ≤ s.now → exec (.escapeChannelSwitch 0 idx) s =
          .next { s with ord := { s.ord with up := s.ord.up.set idx { u with esc := true } } })) ∧
      (far → u.msg.waits = true → exec (.escapeChannelSwitch 0 idx) s =
        .next { s with ord := { s.ord with up := s.ord.up.erase u, dn := s.ord.dn ++ [⟨u.die, u.line, u.failed 4, false, s.now⟩] } })) ∧
    (∀ idx d, s.ord.dn[idx]? = some d → let near := s.joined d.die (Config.memDie (s.lineHome d.line)) = true
      (¬ near → exec (.escapeChannelSwitch 1 idx) s = .next { s with ord := { s.ord with dn := s.ord.dn.erase d } }) ∧
      (near → s.now < d.at_ + 64 → exec (.escapeChannelSwitch 1 idx) s = .next s) ∧
      (near → d.at_ + 64 ≤ s.now → exec (.escapeChannelSwitch 1 idx) s =
        .next { s with ord := { s.ord with dn := s.ord.dn.set idx { d with esc := true } } })) ∧
    (∀ idx e tgt, s.fab.transit[idx]? = some e → e.pkt.dies.getLast? = some tgt →
      let ready := e.pkt.leg = .link ∧ e.pkt.esc = false ∧ e.pkt.since + 64 ≤ (s.cycle e.pkt.die).toNat
      (¬ ready → exec (.escapeChannelSwitch 2 idx) s = .next s) ∧
      (∀ r, ready → s.escapeRoute e.pkt.die tgt = some r → exec (.escapeChannelSwitch 2 idx) s = .next { s with fab := { s.fab with
        transit := s.fab.transit.set idx { e with pkt := { e.pkt with esc := true, dies := r } } } }) ∧
      (ready → s.escapeRoute e.pkt.die tgt = none → ∃ t, exec (.escapeChannelSwitch 2 idx) s = .next t ∧ e ∉ t.fab.transit ∧
        t.pushErrs e = s.pushErrs e ++ [⟨0, 4, 0⟩])) ∧
    (∀ dom, dom < 4 → ∃ t, exec (.converterFault dom) s = .next t ∧ s.onlyPf t ∧
      ({ s with pf := { s.pf with
        quiesceQ := s.pf.quiesceQ ++ (List.range 32).filter (fun d => decide (quadOf (d % 16) = dom) && s.isLive d)
        mcstat := s.pf.mcstat.after 2 (32 + dom) 6, modCheck := true } } : State).messages t .pf 0) ∧
    (∃ t, exec (.converterFault 4) s = .next t ∧ s.onlyPf t ∧
      ({ s with pf := { s.pf with mcstat := s.pf.mcstat.after 2 36 6, modCheck := true } } : State).messages t .pf 0) ∧
    (∀ die src, (∃ t, exec (.moduleCheck die src) s = .next t ∧ s.onlyPf t ∧
        ({ s with pf := { s.pf with mcstat := s.pf.mcstat.after 2 die src, modCheck := true } } : State).messages t .pf 0) ∧
      (die < 16 → s.isLive die = true → ∃ t, exec (.dieCheck die src) s = .next t ∧ s.losesOn t die 1 ∧ t.mem = s.mem ∧
        ({ s with pf := { s.pf with mcstat := s.pf.mcstat.after 1 die src, quiesceQ := s.pf.quiesceQ ++ [die] } } : State).messages t .pf 0) ∧
      (16 ≤ die ∨ s.isLive die = false → exec (.dieCheck die src) s = .next s))

/-! ### The scheduler -/

/-- R65, R66, R75 to R83, R86, R90, R137, R255: a step checks a fetched card in the order of Table 3-9, rejects it with a record, leaves it
waiting, or admits it with its sequence number, its edges and its wait count; a card with nothing to wait for is placed on the eligible die
of lowest index, in its free columns of lowest number, and its control streams stand at their entry with the team's registers and arguments;
a task that ends leaves, decrements or cancels its successors, and writes its record. Where the spec leaves a point open it follows the
model's reading (notes/assumptions, entries 17, 35, 70, 71 and 90). -/
def Obligations.SchedulerSteps : Prop :=
  (∀ s : State, s.pf.modCheck = true ∨ (s.cycle Config.linkDie).toNat % 4 ≠ 0 → exec .schedulerStep s = .next s) ∧
  (∀ s : State, s.onlyWaiting → s.sched.fetched = [] → exec .schedulerStep s = .next s) ∧
  (∀ (s : State) (vf q : Nat) (c : Card), s.onlyWaiting → s.oneCard vf q c →
    let ase := s.pf.ase.get c.asid {}
    let own := ase.w0.getLsbD 31 = true ∧ fld ase.w0.toNat 0 9 = vf
    let list := (s.overflow vf c c.ovf c.ovfn).2
    let b := (s.overflow vf c c.ovf c.ovfn).1
    let mine := s.sched.tasks.filter fun t => t.vf == vf
    let rejected := fun (s0 : State) (status : Nat) => ∃ t, exec .schedulerStep s = .next t ∧ s0.recorded t vf q ⟨c.tag, 0, status, 0, 0, 0⟩ ∧
      s0.messages t (.vf vf) (s.queue vf q).vec ∧ t.sched = { s.sched with fetched := [] } ∧ t.ctxs = s.ctxs
    (s.ringRoom vf q →
      (¬ c.made → rejected s 1) ∧ (c.made → ¬ own → rejected s 2) ∧ (c.made → own → list = .bad → rejected b 5) ∧
      (∀ rs, c.made → own → list = .regions rs false → rejected b 1) ∧
      (∀ rs, c.made → own → list = .regions rs true → ¬ s.hasEngines vf c → rejected b 3) ∧
      (∀ rs, c.made → own → list = .regions rs true → s.hasEngines vf c → c.pclass = 2 → selfOverlap (c.regions ++ rs) → rejected b 4)) ∧
    (c.made → own → list = .wait → exec .schedulerStep s = .next b) ∧
    (∀ more, c.made → own → list = .regions more true → s.hasEngines vf c → ¬ (c.pclass = 2 ∧ selfOverlap (c.regions ++ more)) →
      let rs := c.regions ++ more
      (4096 ≤ mine.length ∨ 16384 ≤ s.sched.tasks.length ∨ (∃ u ∈ mine, edgeTo u.regions rs ∧ 256 ≤ u.edges.length) → exec .schedulerStep s = .next b) ∧
      (mine.length < 4096 → s.sched.tasks.length < 16384 → (∀ u ∈ mine, edgeTo u.regions rs → u.edges.length < 256) →
        (s.sched.tasks.map Task.seq).Nodup →
        ∀ (p : Task → Bool) (early : Nat), (∀ u, p u = true ↔ u.vf = vf ∧ edgeTo u.regions rs) →
        early = (match s.sched.early.find? (fun e => e.1 == vf && e.2.1 == c.tag) with | some e => e.2.2 | none => 0) →
        let count := c.wait + (s.sched.tasks.filter p).length
        early < count → ∃ t, exec .schedulerStep s = .next t ∧ s.queueSet t vf q { s.queue vf q with infl := (s.queue vf q).infl + 1 } ∧
          t = { b with vfs := t.vfs, sched := { s.sched with
            fetched := [], seqNext := s.sched.seqNext + 1, early := s.sched.early.filter fun e => !(e.1 == vf && e.2.1 == c.tag)
            tasks := s.sched.tasks.map (fun u => if p u then { u with edges := u.edges ++ [s.sched.seqNext] } else u) ++
              [{ seq := s.sched.seqNext, vf := vf, q := q, nopre := (s.queue vf q).nopre, card := c, regions := rs, stat := .waiting
                 count := count - early, edges := [], underflow := false, ending := none, cyc := 0, retry := [] }] } }))) ∧
  (∀ (s : State) (vf q : Nat) (c : Card), s.onlyWaiting → s.sched.fetched = [(vf, q, c)] →
    ((s.vfs.get vf {}).ckstatus = 1 ∨ (s.pctl vf).w0.getLsbD 31 = false) → exec .schedulerStep s = .next s) ∧
  (∀ (s : State) (vf q : Nat) (c : Card) (entry d : Nat), s.onlyWaiting → s.oneCard vf q c → s.sched.tasks = [] → s.sched.early = [] → c.made → c.wait = 0 →
    (s.pf.ase.get c.asid {}).w0.getLsbD 31 = true → fld (s.pf.ase.get c.asid {}).w0.toNat 0 9 = vf → c.ovfn = 0 → c.pclass ≠ 2 → c.nstage = 1 →
    c.stages = [(1, entry)] → s.sched.decl = [] → s.tiles = [] → d < 16 →
    let free := fun d => s.freeCores vf c.eng true [] d
    (∀ e, e < d → (free e).length < c.team + 1) → c.team + 1 ≤ (free d).length →
    let ks := ((free d).take (c.team + 1)).filterMap (s.ctxOf vf)
    let now := (s.cycle d).toNat
    ∃ t, exec .schedulerStep s = .next t ∧ s.queueSet t vf q { s.queue vf q with infl := (s.queue vf q).infl + 1 } ∧
      t.sched.seqNext = s.sched.seqNext + 1 ∧ t.sched.fetched = [] ∧ t.sched.insts.length = c.gx * c.gy * c.gz ∧
      (∃ k ∈ t.sched.tasks, k.seq = s.sched.seqNext ∧ k.stat = .active ∧ k.card = c ∧ k.ending = none) ∧
      (∃ i ∈ t.sched.insts, (i.x, i.y, i.z) = (0, 0, 0) ∧ i.stat = .running ∧ i.teams = [⟨s.sched.teamNext, 0, 0, 0, d, ks, 0, now⟩]) ∧
      (∀ j k, ks[j]? = some k → ∃ id, t.ctx k =
        { live := true, vf := vf, g := ((List.range 8).zip c.args).map (fun a => (a.1 + 1, a.2)), idleFrom := now
          sc := { stat := .run, pc := c.code + entry, fp := c.code + entry }
          team := { inst := id, tidx := j, tsize := c.team + 1, nrepl := 1, nstage := 1, gx := c.gx, gy := c.gy, gz := c.gz, seq := s.sched.seqNext
                    team := s.sched.teamNext, pclass := c.pclass, asid := c.asid, code := c.code, ttab := c.ttab, ttabn := c.ttabn } }) ∧
      ∀ k, k ∉ ks → t.ctx k = s.ctx k) ∧
  (∀ (s : State) (k w : Task), s.quietStep → s.sched.fetched = [] → s.sched.parked = [] → s.sched.areas = [] → k.stat ≠ .ended →
    (∀ i ∈ s.sched.insts, i.seq = k.seq ∧ i.stat = .done ∧ i.teams = []) → k.card.succ = [] → k.retry = [] →
    w.seq ≠ k.seq → w.stat = .waiting → w.ending = none → w.underflow = false → w.retry = [] → w.edges = [] → w.card.succ = [] →
    let ratio := fun (status err fva : Nat) => s.ringRoom k.vf k.q → ∃ t, exec .schedulerStep s = .next t ∧ t.sched.tasks = [] ∧ t.sched.insts = [] ∧
      s.recorded t k.vf k.q ⟨k.card.tag, err, status, k.cyc, k.seq, fva⟩ ∧ s.messages t (.vf k.vf) (s.queue k.vf k.q).vec ∧
      (t.queue k.vf k.q).infl = (s.queue k.vf k.q).infl - 1
    let done := (k.stat = .active ∨ k.stat = .closing) ∧ k.ending = none ∧ k.underflow = false
    (s.sched.tasks = [k] → k.edges = [] → done → ratio 0 0 0) ∧
    (∀ st err fva, s.sched.tasks = [k] → k.edges = [] → k.ending = some (st, err, fva) → st ≠ 0 →
      ratio st (if st = 6 then err else 0) (if st = 6 then fva else 0)) ∧
    (s.sched.tasks = [k] → k.edges = [] → k.stat = .waiting → k.ending = none → k.underflow = true → ratio 9 0 0) ∧
    (s.sched.tasks = [k, w] → k.edges = [w.seq] → done → ∃ t, exec .schedulerStep s = .next t ∧
      (2 ≤ w.count → t.sched.tasks = [{ w with count := w.count - 1 }]) ∧
      (w.count = 1 → ∃ x ∈ t.sched.tasks, x.seq = w.seq ∧ x.stat = .active ∧ x.count = 0) ∧ (w.count = 0 → t.sched.tasks = [])) ∧
    (∀ e, s.sched.tasks = [k, w] → k.edges = [w.seq] → k.ending = some e → e.1 ≠ 0 → ∃ t, exec .schedulerStep s = .next t ∧ t.sched.tasks = []))

/-- R58, R75, R93 to R95, R249: a grid point whose team has used its budget, and one of the member that a pool engine serves at the end of its
slice, is due to be pre-empted, and the engine serves the next member that has work; a step starts a pre-emption that is due: the grid point is
stopped with save areas found for every context, or waits with nothing stopped; waiting stops search again. Where the spec leaves a point open
it follows the model's reading (notes/assumptions, entries 75 and 94). -/
def Obligations.Preemptions : Prop :=
  ∀ (s : State), (s.sched.insts.map Inst.id).Nodup →
    let up := fun (i : Inst) (j : Inst) => ({ s with sched := { s.sched with insts := s.sched.insts.map fun k => if k.id = i.id then j else k } } : State)
    (∀ i ∈ s.sched.insts,
      let spent := s.budgetOf i ≠ 0 ∧ i.stat = .running ∧ ∃ p ∈ i.teams, s.budgetOf i ≤ s.teamUsage p
      let stops := fun (t : State) (areas : List Nat) => areas.length = (i.teams.flatMap Placed.ctxs).length → i.ctxs.Nodup → s.stops t i areas
      (spent → i.stopping = false → exec (.budgetExhausted i.id) s = .next (up i { i with due := true })) ∧
      (¬ spent ∨ i.stopping = true → exec (.budgetExhausted i.id) s = .next s) ∧
      (i.stat = .running → i.stopping = false →
        ((∀ j ∈ s.sched.insts, j.vf = i.vf → (j.due = true ↔ j.id = i.id)) → i.waitArea = false → s.startStop i.vf = s.preempt i.id) ∧
        (∀ areas, s.findAreas [] i.ctxs = some areas → stops (s.preempt i.id) areas) ∧
        (s.findAreas [] i.ctxs = none → s.preempt i.id = up i { i with waitArea := true, due := false }) ∧
        ((∀ j ∈ s.sched.insts, j.waitArea = true ↔ j.id = i.id) → exec .saveAreaRetry s = .next (s.preempt i.id)))) ∧
    ((∀ i ∈ s.sched.insts, i.waitArea = false) → exec .saveAreaRetry s = .next s) ∧
    (∀ core kind, kind < 3 → let key := 3 * core + kind
      let now := (s.cycle (core / 16)).toNat
      let turn := s.pf.poolTurn.get key 0
      let busy := s.busyMembers core kind
      let ends := s.pf.poolFrom.get key 0 + s.sliceOf (fld (s.pf.own.get key 0).toNat 9 4)
      (s.serves core kind = none → exec (.poolSliceEnd core kind) s = .next s) ∧
      (∀ vf, s.serves core kind = some vf → now < ends → exec (.poolSliceEnd core kind) s = .next s) ∧
      (∀ vf n, s.serves core kind = some vf → ends ≤ now → n ∈ busy →
        (turn ≤ n ∧ (∀ m ∈ busy, turn ≤ m → n ≤ m) ∨ ∀ m ∈ busy, m < turn ∧ n ≤ m) →
        ∃ t, exec (.poolSliceEnd core kind) s = .next t ∧
          t.pf = { s.pf with poolNow := s.pf.poolNow.set key (some n), poolTurn := s.pf.poolTurn.set key (n + 1), poolFrom := s.pf.poolFrom.set key now } ∧
          t.mem = s.mem ∧ t.ord = s.ord ∧ t.ctxs = s.ctxs ∧
          ∀ i ∈ t.sched.insts, i.vf = vf → (s.engOf i.seq).testBit kind = true → (∃ k ∈ i.ctxs, k / 4 = core) → i.stat = .running →
            i.stopping = true ∨ i.due = true)) ∧
    (∀ taken k n, s.findArea taken k = some n →
      s.areaFree n = true ∧ n ∉ taken ∧ (s.areaFree k = true → k ∉ taken → n = k) ∧ (n = k ∨ n < 1024))

/-- R7, R84, R96, R143, R244, R246, R249: a stopped stream is saved at its boundary and not before; with the last one the grid point is
SAVED, its contexts stand in their areas and its cores are free; a record that no handler takes ends the task instead; a context whose
started streams are blocked for 2^24 cycles takes the deadlock fault; a guarded instruction is discarded when its slot resolves against its
sense; and a cold reset gives every register its reset value. Where the spec leaves a point open it follows the model's reading
(notes/assumptions, entries 7, 66, 76 and 77). -/
def Obligations.SavesAndDiscards : Prop :=
  (∀ (s : State) (k : Nat) (st : Strm) (i : Inst), s.mustSave k st i → st = .c ∨ st = .v →
    let now := (s.cycle (dieOf k)).toNat
    let rests := s.atRest k st = true ∧ ∀ t ∈ s.fab.transit, t.fromCtx ≠ k ∧ t.toCtx ≠ k
    let saved := (s.ctx k).savedWith st ((s.strm k st).savedAt st now) now
    ((s.ctx k).endsBy = none → ¬ rests → exec (.streamSave k st) s = .next s) ∧
    ((s.ctx k).endsBy = none → rests → (∃ st', st' ≠ st ∧ (s.strm k st').saved = false) →
      exec (.streamSave k st) s = .next { s with ctxs := s.ctxs.set k saved }) ∧
    ((s.ctx k).endsBy = none → rests → (∀ k' ∈ i.ctxs, ∀ st', (k', st') ≠ (k, st) → (s.strm k' st').saved = true) →
      (∀ k' ∈ i.ctxs, s.ctxRests k' = true) → (∀ p ∈ s.prot.epochs, p.stat = .release → ∀ e ∈ s.prot.keys, e.key = p.key → e.inst ≠ i.id) →
      (s.sched.insts.map Inst.id).Nodup → (i.areas.map Prod.fst).Nodup → (i.teams.map Placed.team).Nodup → s.memWf →
      ∃ t, exec (.streamSave k st) s = .next t ∧ (∀ k' ∈ i.ctxs, t.ctx k' = {}) ∧ (∀ k', k' ∉ i.ctxs → t.ctx k' = s.ctx k') ∧ t.ord = s.ord ∧
        t.mem = { s.mem with hbm := t.mem.hbm, hbmCheck := t.mem.hbmCheck } ∧
        (∀ a, (∀ n ∈ i.areas.map Prod.fst, a < s.areaAddr n ∨ s.areaAddr n + 2 ^ 21 ≤ a) → t.hbmByte a = s.hbmByte a) ∧
        (∃ j ∈ t.sched.insts, j.id = i.id ∧ j.stat = .saved ∧ j.teams = [] ∧ j.stopping = false) ∧
        ∀ n team idx p k', (n, team, idx) ∈ i.areas → p ∈ i.teams → p.team = team → p.ctxs[idx]? = some k' →
          ∃ a, t.sched.areas.find? (fun e => e.1 == n) = some (n, a) ∧ a.ctx = (if k' = k then saved else s.ctx k') ∧
            (a.seq, a.vf, a.stage, a.repl, a.tidx, a.copy) = (i.seq, i.vf, p.stage, p.replica, idx, p.copy)) ∧
    (∀ n f, i.ctxs = [k] → (s.ctx k).hvec.getLsbD 63 = false → n < 4 → (s.ctx k).frec.get n {} = f → f.valid = true →
      (∀ m, m < 4 → m ≠ n → ((s.ctx k).frec.get m {}).valid = false) → s.pclassOf i ≠ 2 → (s.ctx k).team.pclass ≠ 2 → (s.ctx k).team.seq = i.seq →
      ∃ t, exec (.streamSave k st) s = .next t ∧ t.mem = s.mem ∧ (t.strm k st).saved = false ∧
        ∀ x ∈ t.sched.tasks, x.seq = i.seq → ∃ y ∈ s.sched.tasks, y.seq = x.seq ∧ x.ending = some (y.ending.getD (6, f.err, f.fva)))) ∧
  (∀ (s : State) (k : Nat), let c := s.ctx k
    let long := c.idleFrom + 2 ^ 24 ≤ (s.cycle (dieOf k)).toNat
    (¬ (s.deadEnd k ∧ long) → exec (.deadlock k) s = .next s) ∧
    (s.deadEnd k → long → (c.frec.get 0 {}).valid = false → ∃ t, exec (.deadlock k) s = .next t ∧ t = { s with ctxs := t.ctxs } ∧
      (∀ j, j ≠ k → t.ctx j = s.ctx j) ∧ (t.ctx k).sc = { c.sc with faulted := true } ∧ (t.ctx k).g = c.g ∧
      (t.ctx k).frec.get 0 {} = { cause := cDEADLOCK, st := .c, pc := c.sc.pc, valid := true, since := s.now } ∧
      ∀ n, n ≠ 0 → (t.ctx k).frec.get n {} = c.frec.get n {})) ∧
  (∀ (s : State) (k : Nat) (st : Strm) (p : Pfx) (next : Nat), st = .c ∨ st = .v →
    let b := s.prepare k st
    let x := b.strm k st
    let at_ : State := { b with cur := ⟨k, st, x.pc, next⟩ }
    b.goes k st = true → b.mayIssue k st = true → (st = .c → (b.ctx k).recordDue = false) →
    x.pfx = some p → p.taken = true → p.decided = false → p.gen = true → b.ord.dvCheck.get (dieOf k) [] = [] →
    ((∃ i, b.front k st = .word i next) ∨ ∃ f, b.front k st = .stop f true (some next)) →
    let slot := (b.ctx k).readGuard p.slot
    (slot = .unresolved ∨ (slot = .isTrue ∧ p.sense = true) ∨ (slot = .isFalse ∧ p.sense = false) → exec (.instructionDiscard k st) s = .next s) ∧
    ((slot = .isTrue ∧ p.sense = false) ∨ (slot = .isFalse ∧ p.sense = true) → at_.settled →
      ∃ t u : State, exec (.instructionDiscard k st) s = .next t ∧ u = { at_ with ctxs := u.ctxs } ∧ (∀ j, j ≠ k → u.ctx j = b.ctx j) ∧
        u.ctx k = (b.ctx k).setStrm st { x with rpt := none, pfx := some { p with decided := true } } ∧ u.passes t true id)) ∧
  (∀ (s : State) (k : Nat) (st : Strm) (q : QEntry) (r : Rob) (p : Pfx), st = .m ∨ st = .y → (s.ctx k).queue st = [q] → q.pfx = some p →
    p.taken = true → p.decided = false → p.gen = true → (s.strm k st).faulted = false → (s.strm k st).stopReq = false →
    (s.strm k st).rob = [r] → r.id = q.id → r.eff = [] → r.push = 0 → r.err = 0 →
    let slot := (s.ctx k).readGuard p.slot
    (slot = .isTrue ∧ p.sense = false) ∨ (slot = .isFalse ∧ p.sense = true) →
    ∃ t, exec (.instructionDiscard k st) s = .next t ∧ t = { s with ctxs := t.ctxs } ∧ (∀ j, j ≠ k → t.ctx j = s.ctx j) ∧ (t.ctx k).queue st = [] ∧
      (t.strm k st).rob = [] ∧ (t.ctx k).mat.acc = (s.ctx k).mat.acc ∧ (t.ctx k).mat.o = (s.ctx k).mat.o ∧ (t.ctx k).cpy.o = (s.ctx k).cpy.o ∧
      (t.ctx k).cpy.bar = (s.ctx k).cpy.bar ∧ (t.ctx k).tok = (s.ctx k).tok) ∧
  (∀ s : State, ∃ t, exec .moduleColdReset s = .next t ∧ t.ctxs = [] ∧ t.tiles = [] ∧ t.vfs = [] ∧ t.ord = State.reset.ord ∧ t.prot = State.reset.prot ∧
    t.fab = State.reset.fab ∧ t.pf = { State.reset.pf with flash := s.pf.flash, msixOut := s.pf.msixOut, fwRun := s.pf.flash, recovery := t.pf.recovery } ∧
    (s.pf.flash = none → t.pf.recovery = false) ∧ (∀ image, s.pf.flash = some image → t.pf.recovery = !Config.firmwareVerifies image) ∧ (∀ d, d < 37 → t.cycle d = 0) ∧
    (∀ a, t.hbmByte a = s.hbmByte a ∧ t.hostByte a = s.hostByte a ∧ t.weightAt a = 0) ∧ t.sched.tasks = [] ∧ t.sched.insts = [] ∧ t.sched.seqNext = 1)

/-- R79, R109, R110, R112 to R114, R127, R128, R130, R131, R133, R189, R343: the records of a released epoch are performed in held order, a
signal or a `tsig` after what stands before it, and the epoch is FREE once all are performed; a checkpoint stops its partition, and when all
is saved and performed writes the shards and behind the manifest's entries its digest; a restore checks digest, form, shards and R88 in that
order and loads the image under new numbers; firmware is written to flash when its signature verifies; and a host memory fault ends each of
these with its STATUS. Where the spec leaves a point open it follows the model's reading (notes/assumptions, entries 8, 14, 24, 79 and 97). -/
def Obligations.EpochsAndImages : Prop :=
  (∀ (s : State) (key : Nat) (p : Epoch) (e : EKey) (i : Inst) (k : Nat), s.releasing key p e i k →
    (p.recs = [] → exec (.epochRelease key) s = .next s) ∧
    (∀ c recs more, p.recs = (c, recs) :: more →
      let after := fun (rs : List HeldRec) (ids : List Nat) => { p with recs := (c, rs) :: more, out := p.out ++ ids }
      let issues := fun (as_ : List Access) (rest : List HeldRec) =>
        let news := releasedAccs s.ord.nextId (s.cycle (dieOf k)).toNat as_
        ∃ t, exec (.epochRelease key) s = .next t ∧ (t.strm k e.st).cq = (s.strm k e.st).cq ++ news ∧ (∀ j, j ≠ k → t.ctx j = s.ctx j) ∧
          t.ord = { s.ord with nextId := s.ord.nextId + as_.length } ∧ t.mem = s.mem ∧ s.epochSet t p (after rest (news.map Access.id))
      (recs = [] → exec (.epochRelease key) s = .next s) ∧
      (∀ (held : List (Access × Nat)) rest, recs = held.map (fun h => .store h.1 h.2) ++ rest → held ≠ [] →
        (∀ h ∈ held, (HeldRec.store h.1 h.2).isSignal e.st = false) → (∀ a va r, rest = .store a va :: r → (HeldRec.store a va).isSignal e.st = true) →
        issues (held.map Prod.fst) rest) ∧
      (∀ a va rest, recs = .store a va :: rest → (HeldRec.store a va).isSignal e.st = true →
        (p.out = [] → issues [a] rest) ∧ (p.out ≠ [] → exec (.epochRelease key) s = .next s)) ∧
      (∀ tag rest, recs = .tsig tag :: rest →
        let ready := p.out = [] ∧ (s.strm k e.st).outE = [] ∧ (s.strm k e.st).outR = [] ∧ s.tagRoom i.vf tag = true
        (ready → ∃ t, exec (.epochRelease key) s = .next t ∧ t.sched = { s.sched with tsigs := s.sched.tsigs ++ [(i.seq, i.vf, tag)] } ∧ t.ctxs = s.ctxs ∧
          s.epochSet t p (after rest [])) ∧
        (¬ ready → exec (.epochRelease key) s = .next s))) ∧
    (p.out ≠ [] ∨ (∃ r ∈ p.recs, r.2 ≠ []) → exec (.epochFree key) s = .next s) ∧
    (p.out = [] → (∀ r ∈ p.recs, r.2 = []) → (s.sigLog key).ties = [] →
      exec (.epochFree key) s = .next { s with prot := { s.prot with
        epochs := s.prot.epochs.filter fun q => !(q.key == key && q.n == p.n)
        logs := s.prot.logs.set key { s.sigLog key with count := (s.sigLog key).count + 1, chain := foldChain (s.sigLog key).chain p.agreed } } })) ∧
  (∀ (s : State) (key : Nat), s.nextReleased key = none → exec (.epochRelease key) s = .next s ∧ exec (.epochFree key) s = .next s) ∧
  (∀ (s : State) (vf : Nat), vf < 512 →
    let v := s.vfs.get vf {}
    let base := v.ckbase.toNat
    let st := fun (t : State) (n : Nat) => t.vfs.get vf {} = { v with ckstatus := n } ∧ ∀ o, o ≠ vf → t.vfs.get o {} = s.vfs.get o {}
    let runs := (∃ i ∈ s.sched.insts, i.vf = vf ∧ i.stat = .running) ∨ s.releaseWaits vf = true
    let made := s.shardsOf (s.imageOf vf)
    let cut := Config.hostFaults base (shardsLen made.2) s.now
    (v.ckstatus ≠ 1 → v.rst = true → exec (.checkpoint vf) s = .next s) ∧
    (v.ckstatus ≠ 1 → v.rst = false → (s.sched.insts.map Inst.id).Nodup → ∃ t, exec (.checkpoint vf) s = .next t ∧ st t 1 ∧ t.mem = s.mem ∧
      t.vacates (fun i => i.vf == vf) (fun i => i.vf == vf)) ∧
    (v.ckstatus = 1 → runs → exec (.checkpoint vf) s = .next s) ∧
    (v.ckstatus = 1 → ¬ runs → v.cklen.toNat < shardsLen made.2 → ∃ t, exec (.checkpoint vf) s = .next t ∧ t = { s with vfs := t.vfs } ∧ st t 2) ∧
    (v.ckstatus = 1 → ¬ runs → shardsLen made.2 ≤ v.cklen.toNat → cut = true → ∃ t, exec (.checkpoint vf) s = .next t ∧ t = { s with vfs := t.vfs } ∧ st t 7) ∧
    (v.ckstatus = 1 → ¬ runs → shardsLen made.2 ≤ v.cklen.toNat → cut = false →
      let placed := placeShards (manifestLen made.2.length) made.2
      let m := made.1.manifest vf placed
      ∃ t, exec (.checkpoint vf) s = .next t ∧ st t 0 ∧ t.sched = s.sched ∧ t.ctxs = s.ctxs ∧ t.ckpts = s.imageOf vf :: s.ckpts ∧
        t.mem.hbm = s.mem.hbm ∧ (s.memWf →
          (∀ j, j < manifestLen made.2.length → t.hostByte (base + j) = (m ++ sha256 m).getD j 0) ∧
          (∀ a, a < base ∨ base + shardsLen made.2 ≤ a → t.hostByte a = s.hostByte a)) ∧
        (s.mem.hbmCheck = [] → made.1 = s ∧ ∀ g a, (g, a) ∈ s.granulesOf vf → ∃ x ∈ made.2, x.kind = 4 ∧ x.id = g ∧ x.len = 2 ^ 21 ∧
          x.cells = s.frameCells a)) ∧
    (let off := v.rst = true ∧ v.ckstatus ≠ 1 ∧ ∀ q, q < 4 → (s.queue vf q).stat = 0 ∧ (s.queue vf q).infl = 0
     let len := v.cklen.toNat
     let n := fieldAt (s.hostBytes base 0x40) 8 4
     let m := s.hostBytes base (0x40 + 64 * n)
     let xs := s.shardsAt base m n
     let reads := Config.hostFaults base len s.now = false
     let whole := manifestLen n ≤ len ∧ sha256 m = s.hostBytes (base + 0x40 + 64 * n) 32
     let formed := manifestForm m n = true
     let shards := ∀ x ∈ xs, x.1 + x.2.1.len ≤ len ∧ sha256 x.2.1.bytes = x.2.2
     let image := s.imageFor (xs.map fun x => x.2.1)
     let fits := fun (c : Ckpt) => ∀ i ∈ c.insts, i.stat = .saved → s.fitsHere vf c i = true
     let saves := (xs.filter fun x => x.2.1.kind == 2).map fun x => x.2.1.id
     (¬ off → exec (.restore vf) s = .next s) ∧
     (∀ r, off → (¬ reads ∧ r = 7) ∨ (reads ∧ ¬ whole ∧ r = 3) ∨ (reads ∧ whole ∧ ¬ formed ∧ r = 5) ∨ (reads ∧ whole ∧ formed ∧ ¬ shards ∧ r = 4) ∨
         (reads ∧ whole ∧ formed ∧ shards ∧ ((image = none ∧ r = 4) ∨
           ∃ c, image = some c ∧ (¬ fits c ∨ s.findAreas [] saves = none) ∧ r = 6)) →
       ∃ t, exec (.restore vf) s = .next t ∧ t = { s with vfs := t.vfs } ∧ st t r) ∧
     (∀ c areas, off → reads → whole → formed → shards → image = some c → fits c → s.findAreas [] saves = some areas → (c.tasks.map Task.seq).Nodup →
       ∃ (t : State) (f : Nat → Nat), exec (.restore vf) s = .next t ∧ t.ctxs = s.ctxs ∧ (t.vfs.get vf {}).ckstatus = 0 ∧
         (t.vfs.get vf {}).source.toNat = fieldAt m 0x20 16 ∧ ((∀ x ∈ xs, x.2.1.kind ≠ 2 ∧ x.2.1.kind ≠ 4) → t.mem = s.mem) ∧
         (∀ a ∈ c.tasks, ∀ b ∈ c.tasks, a.seq < b.seq → f a.seq < f b.seq) ∧
         (∀ a ∈ c.tasks, s.sched.seqNext ≤ f a.seq ∧ f a.seq < s.sched.seqNext + c.tasks.length) ∧ t.sched.seqNext = s.sched.seqNext + c.tasks.length ∧
         t.sched.tasks = s.sched.tasks ++ c.tasks.map (fun a => { a with seq := f a.seq, vf := vf, edges := a.edges.map f }) ∧
         (∀ q, q < 4 → (t.queue vf q).infl = (c.tasks.filter fun a => a.q == q).length) ∧ t.sched.insts.length = s.sched.insts.length + c.insts.length ∧
         t.sched.areas.length = s.sched.areas.length + c.areas.length))) ∧
  (∀ s : State, let image := memGetList Config.hostPowerOnByte s.mem.host s.pf.fwAddr.toNat s.pf.fwLen.toNat
    let after : PfSt := if Config.hostFaults s.pf.fwAddr.toNat s.pf.fwLen.toNat s.now then { s.pf with fwStatus := 3 }
      else if Config.firmwareVerifies image then { s.pf with flash := some image, fwStatus := 0 }
      else { s.pf with fwStatus := 2 }
    (s.pf.fwStatus = 1 → exec .firmwareLoad s = .next s) ∧ (s.pf.fwStatus ≠ 1 → exec .firmwareLoad s = .next { s with pf := after }))

/-- R18, R47, R48, R89, R157 to R159: a binding that waits takes effect once its result queue is empty; the head of a result queue leaves when its
operand queue has a free entry, to the team that the binding names, or to the next replica in turn where placement bound it, in the packet
that carries it; an entry that cannot be delivered is a write error of its stream, with code 4 when no live path is left; and an entry that
has travelled enters its operand queue behind the earlier ones of its result queue, and of two that arrive together the one of the lower rank
first. Where the spec leaves a point open it follows the model's reading (notes/assumptions, entry 64). -/
def Obligations.Dovetails : Prop :=
  (∀ (s : State) (k reg : Nat),
    (∀ v, (s.ctx k).dvbWait.find? (fun e => e.1 == reg) = some (reg, v) →
      let idle := (s.ctx k).rq.get reg [] = [] ∧ ∀ t ∈ s.fab.transit, ¬ (t.fromCtx = k ∧ t.fromReg = reg)
      (¬ idle → exec (.dovetailBind k reg) s = .next s) ∧
      (idle → ∃ t, exec (.dovetailBind k reg) s = .next t ∧ t = { s with ctxs := t.ctxs } ∧ (∀ j, j ≠ k → t.ctx j = s.ctx j) ∧
        t.ctx k = { s.ctx k with dvb := (s.ctx k).dvb.set reg v, dvbWait := (s.ctx k).dvbWait.del reg, sc := { (s.ctx k).sc with mpos := 1 } })) ∧
    ((s.ctx k).dvbWait.find? (fun e => e.1 == reg) = none → exec (.dovetailBind k reg) s = .next s)) ∧
  (∀ (s : State) (k reg : Nat) (it : QItem) (rest : List QItem), reg < 6 → (s.ctx k).rq.get reg [] = it :: rest →
    let c := s.ctx k
    let v := (c.dvb.get reg 0).toNat
    let stream : Strm := if reg / 2 = 0 then .m else if reg / 2 = 1 then .v else .y
    let lost := fun (code : Nat) => ∃ t, exec (.dovetailDelivery k reg) s = .next t ∧ t = { s with ctxs := t.ctxs } ∧ (t.ctx k).rq.get reg [] = rest ∧
      (∀ j, j ≠ k → t.ctx j = s.ctx j) ∧ (t.strm k stream).werr = (s.strm k stream).werr ++ [⟨0, code, 0⟩]
    (s.instOf k = none → lost 2) ∧
    (∀ i, s.instOf k = some i →
      let n := i.repls.getD (fld v 14 3) 1
      let repl := if bit v 62 = true ∧ c.team.nrepl = 1 ∧ 1 < n then c.deal.get reg 0 % n else fld v 6 8
      let named := fun (t : Placed) => t.copy == c.team.copy && t.stage == fld v 14 3 && t.replica == repl
      (i.teams.find? named = none → lost 2) ∧
      ∀ p, i.teams.find? named = some p → (p.ctxs[fld v 4 2]? = none → lost 2) ∧ ∀ tgt, p.ctxs[fld v 4 2]? = some tgt →
        let q := 2 * fld v 2 2 + fld v 1 1
        let coming := (s.fab.transit.filter fun t => t.toCtx == tgt && t.toReg == q).length
        let room := ((s.ctx tgt).oq.get q []).length + coming < Config.queueDepth
        let turn := bit v 62 = false ∨ c.team.nrepl ≤ 1 ∨ (s.ctx tgt).team.nrepl ≠ 1 ∨ (s.ctx tgt).deal.get (6 + q) 0 % c.team.nrepl = c.team.replica
        (s.isLive (dieOf tgt) = false → lost 2) ∧
        (s.isLive (dieOf tgt) = true → s.packetFor k reg tgt q it.len = none → lost 4) ∧
        ∀ pkt, s.isLive (dieOf tgt) = true → s.packetFor k reg tgt q it.len = some pkt →
          (s.draining (dieOf k) = true ∨ ¬ room ∨ ¬ turn → exec (.dovetailDelivery k reg) s = .next s) ∧
          (s.draining (dieOf k) = false → room → turn → ∃ t, exec (.dovetailDelivery k reg) s = .next t ∧
            (t.ctx k).rq.get reg [] = rest ∧ (∀ r, r ≠ reg → (t.ctx k).rq.get r [] = c.rq.get r []) ∧ (∀ j r, (t.ctx j).oq.get r [] = (s.ctx j).oq.get r []) ∧
            t.fab = { s.fab with transit := s.fab.transit ++ [⟨k, reg, tgt, q, it, pkt⟩], pktNext := s.fab.pktNext + 1 } ∧ t.mem = s.mem ∧ t.ord = s.ord ∧
            (t.ctx k).deal.get reg 0 = c.deal.get reg 0 + 1 ∧
            (bit v 62 = true → (t.ctx tgt).deal.get (6 + q) 0 = (s.ctx tgt).deal.get (6 + q) 0 + 1)))) ∧
  (∀ s k reg, (s.ctx k).rq.get reg [] = [] → exec (.dovetailDelivery k reg) s = .next s) ∧
  (∀ (s : State) (idx : Nat) (x : Transit), s.fab.transit[idx]? = some x →
    let same := fun (y : Transit) => y.toCtx = x.toCtx ∧ y.toReg = x.toReg ∧ (y.fromCtx, y.fromReg) ≠ (x.fromCtx, x.fromReg)
    let locked := fun (y : Transit) => bit ((s.ctx y.fromCtx).dvb.get y.fromReg 0).toNat 62 = true
    let rank := fun (y : Transit) => y.fromCtx / 4 * 8 + y.fromReg
    let earlier := fun (y : Transit) => y.pkt.leg = .there ∧ (y.pkt.since < x.pkt.since ∨ (y.pkt.since = x.pkt.since ∧ rank y < rank x))
    let waits := x.pkt.leg ≠ .there ∨ (∃ y ∈ s.fab.transit.take idx, y.fromCtx = x.fromCtx ∧ y.fromReg = x.fromReg) ∨
      (∃ y ∈ s.fab.transit.take idx, same y ∧ locked x ∧ locked y) ∨ ∃ y ∈ s.fab.transit, same y ∧ ¬ (locked x ∧ locked y) ∧ earlier y
    (waits → exec (.dovetailArrival idx) s = .next s) ∧
    (¬ waits → ∃ t, exec (.dovetailArrival idx) s = .next t ∧ t = { s with ctxs := t.ctxs, fab := { s.fab with transit := s.fab.transit.eraseIdx idx } } ∧
        (∀ j, j ≠ x.toCtx → t.ctx j = s.ctx j) ∧ t.ctx x.toCtx = { s.ctx x.toCtx with
          oq := (s.ctx x.toCtx).oq.set x.toReg ((s.ctx x.toCtx).oq.get x.toReg [] ++ [x.item]), idleFrom := (s.cycle (dieOf x.toCtx)).toNat })) ∧
  (∀ s idx, s.fab.transit[idx]? = none → exec (.dovetailArrival idx) s = .next s)

/-! ### Steps, encodings and reset -/

/-- R30, R75, R135, R143, R277, R284, R287, R288: a step is one cycle of every die and what the plan names. A stream whose turn it is first lets
what has finished retire; then, when it may issue and the bytes at its boundary decode to an instruction that stands at a right place and has
passed its prefixes, the step is `exec` of that instruction (of its present iteration) in that state, with the instruction named as the
executing one, and what can retire has retired; but a control core whose rotation reaches a context with an issuable instruction first issues
nothing here. With no plan a scheduler step begins in every fourth cycle of L0. The order in which streams and events act is the model's own
choice (notes/assumptions/1.md, 4.md). -/
def Obligations.StepRunsDecoded : Prop :=
  (∀ (s v : State) (k n : Nat) (st : Strm) (i j : Instr) (bs r : List Byte) (rest : List Act),
    s.plan = .run k st :: rest → k ≤ 1023 →
    let u := (({ s with plan := rest } : State).cycleOn).prepare k st
    let x := u.strm k st
    let order := if st = .v then (u.ctx k).vec.ord else 0
    u.goes k st = true → (st = .c → (u.ctx k).recordDue = false) → u.mayIssue k st = true → x.fp % 2 = 0 →
    u.wordLen k st x.fp = .ok n → u.fetchHalves k x.fp n = .ok bs → decode st bs = .ok (i, r) →
    u.ord.dvCheck.get (dieOf k) [] = [] → (u.ctx k).regCheck = [] →
    x.discard = false → x.clashes i = false → x.misplaced (isHeader i) x.fp (x.fp + 2 * n) = false →
    u.passed k st i = some v → x.repeated order st i = some j → ¬ (st = .v ∧ makesResult j = true ∧ (v.ctx k).vec.full = true) →
    ¬ (st = .c ∧ x.fenced j = true) →
    ∃ w : State, w.cur = ⟨k, st, x.pc, x.fp + 2 * n⟩ ∧ w = { v with cur := w.cur, ctxs := w.ctxs } ∧
      (∀ l, l ≠ k → w.ctx l = v.ctx l) ∧ w.ctx k = (v.ctx k).setStrm st { v.strm k st with rpt := x.sampled order } ∧ w.settled ∧
      (x.pfx = none → v = u) ∧
      (st ≠ .c → step s = exec j w) ∧
      (st = .c → (∃ l ∈ w.sooner k, w.issuable l = true) → step s = .next w) ∧
      (st = .c → (∀ l ∈ w.sooner k, w.issuable l = false) → step s = exec j (if w.issues? j then { w with rot := w.rot.set (k / 4) (k % 4) } else w))) ∧
  (∀ (s t : State) (k : Nat) (st : Strm) (i : Instr), s.turnOf k st = (t, some i) → t.settled ∧ t.cur.ctx = k ∧ t.cur.st = st) ∧
  (∀ (s : State) (i : Instr) (pick : List Nat) (rest : List Act), s.plan = .ev i pick :: rest →
    let s' : State := { ({ s with plan := rest } : State).cycleOn with pick := pick }
    (i.isEvent = true → (s.pf.recovery = false ∨ refusedInRecovery i = false) → step s = exec i s') ∧
    (i.isEvent = false ∨ (s.pf.recovery = true ∧ refusedInRecovery i = true) → step s = .next s')) ∧
  (∀ (s : State) (die n : Nat) (rest : List Act), s.plan = .cycles die n :: rest →
    let s' := ({ s with plan := rest } : State).cycleOn
    ∃ t, step s = .next t ∧ t = { s' with cyc := t.cyc } ∧ (∀ d, t.cycle d = s.cycle d + 1 + if d = die then BitVec.ofNat 64 (if s'.fab.still then n else Nat.min n 1) else 0)) ∧
  (∀ (s : State) (u : Upset) (rest : List Act), s.plan = .upset u :: rest → step s = .next (({ s with plan := rest } : State).cycleOn.upset u)) ∧
  (∀ s : State, s.plan = [] →
    let s' := s.cycleOn
    ((s'.cycle Config.linkDie).toNat % 4 = 0 → step s = execSchedulerStep s') ∧
    ((s'.cycle Config.linkDie).toNat % 4 ≠ 0 → step s = ({ s' with turn := s.turn + 1 } : State).auto s.ownAct)) ∧
  (∀ s : State, let s' := s.cycleOn
    s' = { s with now := s.now + 1, fab := s'.fab, ctxs := s'.ctxs } ∧ (∀ k, ∃ n, s'.ctx k = { s.ctx k with idleFrom := n }) ∧
      ∀ d, s'.cycle d = s.cycle d + 1) ∧
  (∀ (s : State) (k : Nat) (st : Strm) (rest : List Act), s.plan = .run k st :: rest → 1023 < k → step s = .fault .noSuchContext)

/-- R277 to R281, R290 to R296: for every instruction word of every stream, with every operand at every value that its encoding admits, decoding
the bytes of the encoding gives the instruction back and leaves the bytes behind it; and what decodes is well formed for its stream. -/
def Obligations.RoundTrip : Prop :=
  (∀ (st : Strm) (i : Instr) (rest : List Byte), i.wf st = true → i.isEvent = false → decode st (encode i ++ rest) = .ok (i, rest)) ∧
  (∀ (st : Strm) (bs rest : List Byte) (i : Instr), decode st bs = .ok (i, rest) → i.wf st = true)

/-- Tables 13-14, 14-5, 15-2, 16-9 and 17-7: words that the spec writes out decode to the instructions they stand for; a word with a reserved field that is
not 0, and a word that the maps do not assign, are reserved (R8, R296). -/
def Obligations.DecodeWords : Prop :=
  (decode .c [0xC9, 0x08, 0x02, 0x00] = .ok (.add 3 1 2, []) ∧ decode .c [0x99, 0x21, 0xE1, 0x01] = .ok (.ld 6 4 12 true 2 1, []) ∧
    decode .c [0x61, 0x21, 0x06, 0x6E] = .ok (.cas 5 4 6 3 1 0, []) ∧ decode .c [0x8A, 0x24] = .ok (.mov 4 9, [])) ∧
  (decode .m [0x49, 0x21, 0x54, 0x30] = .ok (.mmaRange 1 1 2 4 5 true 0, []) ∧ decode .m [0x04, 0x44] = .ok (.syncPrefix 2 1 false 0 false, []) ∧
    decode .y [0x0D, 0x0D, 0x00, 0x02] = .ok (.cpyTensorTensor 4 3 0 true false 0 0, []) ∧ decode .y [0x08, 0x06] = .ok (.barm 6 0, [])) ∧
  (decode .v [0x09, 0x42, 0xC0, 0x04] = .ok (.vadd 8 ⟨0, 4⟩ ⟨1, 12⟩, []) ∧ decode .v [0x28, 0x00] = .ok (.vmode true, []) ∧
    decode .v [0x02, 0x00] = .ok (.endS, [])) ∧
  (decode .c [0x8A, 0xA4] = .error .reserved16 ∧ decode .c [0xC9, 0x08, 0x02, 0x04] = .error .reserved32)

/-- R7 and the map of the state: every step keeps the three memories in their canonical form, in which equal memories are equal data (the form is
the model's own). -/
def Obligations.StepKeepsMemory : Prop := ∀ s t : State, s.memWf → step s = .next t → t.memWf

/-- R7, R25, R30, R76 and the Reset columns of Tables 1-6 to 1-9, 2-1 to 2-9, 3-4 to 3-7, 5-4 to 5-6, 11-4, 11-8, 16-1, 16-3, 17-3 and 17-5: what the host reads after
module cold reset, and what the dies and contexts hold. That unlisted bytes read as zero is the model's choice (notes/assumptions/2.md, 3.md); no clause
rests on it. -/
def Obligations.ResetState : Prop :=
  State.reset.memWf ∧ (∀ u : State, ∃ t, exec .moduleColdReset u = .next t ∧ (u.memWf → t.memWf)) ∧
  (∀ s : State, s.afterReset →
    (s.pfRead 0x100 = 0 ∧ s.pfRead 0x1000 = 0x00C000B4 ∧ s.pfRead 0x4000 = 0x800000C0 ∧ s.pfRead 0x4100 = 0 ∧ s.pfRead 0x4108 = 0xFFFFFFFF ∧
      s.pfRead 0x410C = 0x1F ∧ s.pfRead 0x4800 = 0 ∧ s.pfRead 0x4804 = 0) ∧
    (∀ die, die < 37 → s.pfRead (0x1100 + 4 * die) =
      BitVec.ofNat 32 (56 * 2 ^ 24 + (if die < 16 then 190 else if die < 32 then 40 else if die < 36 then 90 else 150) * 2 ^ 12)) ∧
    (∀ off, off % 4 = 0 → (0x2000 ≤ off ∧ off < 0x2960) ∨ (0x3000 ≤ off ∧ off < 0x3028) ∨ (0x4200 ≤ off ∧ off < 0x4240) ∨ (0x4300 ≤ off ∧ off < 0x4550) ∨
      (0x4700 ≤ off ∧ off < 0x4710) ∨ (0x4900 ≤ off ∧ off < 0x5900) ∨ (0x10000 ≤ off ∧ off < 0x11000) ∨ (0x20000 ≤ off ∧ off < 0x22000) ∨
      (0x30000 ≤ off ∧ off < 0x30C00) ∨ (0x1000000 ≤ off ∧ off < 0x1100000) → s.pfRead off = 0) ∧
    (∀ vf w, vf < 512 → w < 4 → s.pfRead (0x40000 + 16 * vf + 4 * w) = [0, 3, 0x4E000800, 0].getD w 0) ∧
    (∀ pool, pool < 16 → s.pfRead (0x50000 + 4 * pool) = 16) ∧
    (∀ off, off % 4 = 0 → 0x60000 ≤ off → off < 0x68000 → s.pfRead off = 0xFFFFFFFF) ∧
    (∀ vf off, vf < 512 → off % 4 = 0 → off = 0x100 ∨ (0x200 ≤ off ∧ off < 0x214) ∨ (0x1000 ≤ off ∧ off < 0x1400) ∨ (0x4000 ≤ off ∧ off < 0x6000) →
      s.vfRead vf off = 0) ∧
    (∀ die, die < 37 → s.isLive die = true ∧ s.cycle die = 0) ∧
    (∀ m slot, s.mem.stage2.get (m * 2 ^ 18 + slot) 0 = 0 ∧ s.mem.rate.get m 16 = 16) ∧
    (∀ die loc, s.dvByte die loc = {}) ∧ (∀ die slot, s.homeEntry die slot = 0) ∧
    (∀ k, (s.ctx k).live = false ∧ (s.ctx k).vec.vshape = 2 * 2 ^ 11 + 63 * 2 ^ 5 + 7 ∧ (s.ctx k).vec.vctl = 0 ∧ (s.ctx k).vec.jord = 0 ∧
      ∀ st, (s.strm k st).stat = .idle) ∧
    s.sched.seqNext = 1 ∧ s.sched.tasks = [] ∧ s.sched.insts = [])
end

