-- ==== Sys2Proof/Laws/State.lean ====
section
/-!
SUPPORT. Sys2Proof/Laws/State.lean: what each update of the state leaves as it was, field by field, and what reads back from the maps of
contexts and streams.
-/

namespace Sys2Proof.Machine

/-! ### Updates of the module -/

@[simp] theorem State.setCtx_now (s : State) (k : Nat) (c : Ctx) : (s.setCtx k c).now = s.now := rfl
@[simp] theorem State.setCtx_plan (s : State) (k : Nat) (c : Ctx) : (s.setCtx k c).plan = s.plan := rfl
@[simp] theorem State.setCtx_turn (s : State) (k : Nat) (c : Ctx) : (s.setCtx k c).turn = s.turn := rfl
@[simp] theorem State.setCtx_pick (s : State) (k : Nat) (c : Ctx) : (s.setCtx k c).pick = s.pick := rfl
@[simp] theorem State.setCtx_cur (s : State) (k : Nat) (c : Ctx) : (s.setCtx k c).cur = s.cur := rfl
@[simp] theorem State.setCtx_cyc (s : State) (k : Nat) (c : Ctx) : (s.setCtx k c).cyc = s.cyc := rfl
@[simp] theorem State.setCtx_tiles (s : State) (k : Nat) (c : Ctx) : (s.setCtx k c).tiles = s.tiles := rfl
@[simp] theorem State.setCtx_ord (s : State) (k : Nat) (c : Ctx) : (s.setCtx k c).ord = s.ord := rfl
@[simp] theorem State.setCtx_mem (s : State) (k : Nat) (c : Ctx) : (s.setCtx k c).mem = s.mem := rfl
@[simp] theorem State.setCtx_pf (s : State) (k : Nat) (c : Ctx) : (s.setCtx k c).pf = s.pf := rfl
@[simp] theorem State.setCtx_vfs (s : State) (k : Nat) (c : Ctx) : (s.setCtx k c).vfs = s.vfs := rfl
@[simp] theorem State.setCtx_sched (s : State) (k : Nat) (c : Ctx) : (s.setCtx k c).sched = s.sched := rfl
@[simp] theorem State.setCtx_prot (s : State) (k : Nat) (c : Ctx) : (s.setCtx k c).prot = s.prot := rfl
@[simp] theorem State.setCtx_fab (s : State) (k : Nat) (c : Ctx) : (s.setCtx k c).fab = s.fab := rfl
@[simp] theorem State.setCtx_ckpts (s : State) (k : Nat) (c : Ctx) : (s.setCtx k c).ckpts = s.ckpts := rfl
@[simp] theorem State.setCtx_rot (s : State) (k : Nat) (c : Ctx) : (s.setCtx k c).rot = s.rot := rfl
@[simp] theorem State.setCtx_hits (s : State) (k : Nat) (c : Ctx) : (s.setCtx k c).hits = s.hits := rfl
@[simp] theorem State.upCtx_now (s : State) (k : Nat) (f : Ctx → Ctx) : (s.upCtx k f).now = s.now := rfl
@[simp] theorem State.upCtx_plan (s : State) (k : Nat) (f : Ctx → Ctx) : (s.upCtx k f).plan = s.plan := rfl
@[simp] theorem State.upCtx_turn (s : State) (k : Nat) (f : Ctx → Ctx) : (s.upCtx k f).turn = s.turn := rfl
@[simp] theorem State.upCtx_pick (s : State) (k : Nat) (f : Ctx → Ctx) : (s.upCtx k f).pick = s.pick := rfl
@[simp] theorem State.upCtx_cur (s : State) (k : Nat) (f : Ctx → Ctx) : (s.upCtx k f).cur = s.cur := rfl
@[simp] theorem State.upCtx_cyc (s : State) (k : Nat) (f : Ctx → Ctx) : (s.upCtx k f).cyc = s.cyc := rfl
@[simp] theorem State.upCtx_tiles (s : State) (k : Nat) (f : Ctx → Ctx) : (s.upCtx k f).tiles = s.tiles := rfl
@[simp] theorem State.upCtx_ord (s : State) (k : Nat) (f : Ctx → Ctx) : (s.upCtx k f).ord = s.ord := rfl
@[simp] theorem State.upCtx_mem (s : State) (k : Nat) (f : Ctx → Ctx) : (s.upCtx k f).mem = s.mem := rfl
@[simp] theorem State.upCtx_pf (s : State) (k : Nat) (f : Ctx → Ctx) : (s.upCtx k f).pf = s.pf := rfl
@[simp] theorem State.upCtx_vfs (s : State) (k : Nat) (f : Ctx → Ctx) : (s.upCtx k f).vfs = s.vfs := rfl
@[simp] theorem State.upCtx_sched (s : State) (k : Nat) (f : Ctx → Ctx) : (s.upCtx k f).sched = s.sched := rfl
@[simp] theorem State.upCtx_prot (s : State) (k : Nat) (f : Ctx → Ctx) : (s.upCtx k f).prot = s.prot := rfl
@[simp] theorem State.upCtx_fab (s : State) (k : Nat) (f : Ctx → Ctx) : (s.upCtx k f).fab = s.fab := rfl
@[simp] theorem State.upCtx_ckpts (s : State) (k : Nat) (f : Ctx → Ctx) : (s.upCtx k f).ckpts = s.ckpts := rfl
@[simp] theorem State.upCtx_rot (s : State) (k : Nat) (f : Ctx → Ctx) : (s.upCtx k f).rot = s.rot := rfl
@[simp] theorem State.upCtx_hits (s : State) (k : Nat) (f : Ctx → Ctx) : (s.upCtx k f).hits = s.hits := rfl
@[simp] theorem State.upHere_now (s : State) (f : Ctx → Ctx) : (s.upHere f).now = s.now := rfl
@[simp] theorem State.upHere_plan (s : State) (f : Ctx → Ctx) : (s.upHere f).plan = s.plan := rfl
@[simp] theorem State.upHere_turn (s : State) (f : Ctx → Ctx) : (s.upHere f).turn = s.turn := rfl
@[simp] theorem State.upHere_pick (s : State) (f : Ctx → Ctx) : (s.upHere f).pick = s.pick := rfl
@[simp] theorem State.upHere_cur (s : State) (f : Ctx → Ctx) : (s.upHere f).cur = s.cur := rfl
@[simp] theorem State.upHere_cyc (s : State) (f : Ctx → Ctx) : (s.upHere f).cyc = s.cyc := rfl
@[simp] theorem State.upHere_tiles (s : State) (f : Ctx → Ctx) : (s.upHere f).tiles = s.tiles := rfl
@[simp] theorem State.upHere_ord (s : State) (f : Ctx → Ctx) : (s.upHere f).ord = s.ord := rfl
@[simp] theorem State.upHere_mem (s : State) (f : Ctx → Ctx) : (s.upHere f).mem = s.mem := rfl
@[simp] theorem State.upHere_pf (s : State) (f : Ctx → Ctx) : (s.upHere f).pf = s.pf := rfl
@[simp] theorem State.upHere_vfs (s : State) (f : Ctx → Ctx) : (s.upHere f).vfs = s.vfs := rfl
@[simp] theorem State.upHere_sched (s : State) (f : Ctx → Ctx) : (s.upHere f).sched = s.sched := rfl
@[simp] theorem State.upHere_prot (s : State) (f : Ctx → Ctx) : (s.upHere f).prot = s.prot := rfl
@[simp] theorem State.upHere_fab (s : State) (f : Ctx → Ctx) : (s.upHere f).fab = s.fab := rfl
@[simp] theorem State.upHere_ckpts (s : State) (f : Ctx → Ctx) : (s.upHere f).ckpts = s.ckpts := rfl
@[simp] theorem State.upHere_rot (s : State) (f : Ctx → Ctx) : (s.upHere f).rot = s.rot := rfl
@[simp] theorem State.upHere_hits (s : State) (f : Ctx → Ctx) : (s.upHere f).hits = s.hits := rfl
@[simp] theorem State.upStrm_now (s : State) (k : Nat) (st : Strm) (f : StreamSt → StreamSt) : (s.upStrm k st f).now = s.now := rfl
@[simp] theorem State.upStrm_plan (s : State) (k : Nat) (st : Strm) (f : StreamSt → StreamSt) : (s.upStrm k st f).plan = s.plan := rfl
@[simp] theorem State.upStrm_turn (s : State) (k : Nat) (st : Strm) (f : StreamSt → StreamSt) : (s.upStrm k st f).turn = s.turn := rfl
@[simp] theorem State.upStrm_pick (s : State) (k : Nat) (st : Strm) (f : StreamSt → StreamSt) : (s.upStrm k st f).pick = s.pick := rfl
@[simp] theorem State.upStrm_cur (s : State) (k : Nat) (st : Strm) (f : StreamSt → StreamSt) : (s.upStrm k st f).cur = s.cur := rfl
@[simp] theorem State.upStrm_cyc (s : State) (k : Nat) (st : Strm) (f : StreamSt → StreamSt) : (s.upStrm k st f).cyc = s.cyc := rfl
@[simp] theorem State.upStrm_tiles (s : State) (k : Nat) (st : Strm) (f : StreamSt → StreamSt) : (s.upStrm k st f).tiles = s.tiles := rfl
@[simp] theorem State.upStrm_ord (s : State) (k : Nat) (st : Strm) (f : StreamSt → StreamSt) : (s.upStrm k st f).ord = s.ord := rfl
@[simp] theorem State.upStrm_mem (s : State) (k : Nat) (st : Strm) (f : StreamSt → StreamSt) : (s.upStrm k st f).mem = s.mem := rfl
@[simp] theorem State.upStrm_pf (s : State) (k : Nat) (st : Strm) (f : StreamSt → StreamSt) : (s.upStrm k st f).pf = s.pf := rfl
@[simp] theorem State.upStrm_vfs (s : State) (k : Nat) (st : Strm) (f : StreamSt → StreamSt) : (s.upStrm k st f).vfs = s.vfs := rfl
@[simp] theorem State.upStrm_sched (s : State) (k : Nat) (st : Strm) (f : StreamSt → StreamSt) : (s.upStrm k st f).sched = s.sched := rfl
@[simp] theorem State.upStrm_prot (s : State) (k : Nat) (st : Strm) (f : StreamSt → StreamSt) : (s.upStrm k st f).prot = s.prot := rfl
@[simp] theorem State.upStrm_fab (s : State) (k : Nat) (st : Strm) (f : StreamSt → StreamSt) : (s.upStrm k st f).fab = s.fab := rfl
@[simp] theorem State.upStrm_ckpts (s : State) (k : Nat) (st : Strm) (f : StreamSt → StreamSt) : (s.upStrm k st f).ckpts = s.ckpts := rfl
@[simp] theorem State.upStrm_rot (s : State) (k : Nat) (st : Strm) (f : StreamSt → StreamSt) : (s.upStrm k st f).rot = s.rot := rfl
@[simp] theorem State.upStrm_hits (s : State) (k : Nat) (st : Strm) (f : StreamSt → StreamSt) : (s.upStrm k st f).hits = s.hits := rfl
@[simp] theorem State.freshId_now (s : State)  : (s.freshId).now = s.now := rfl
@[simp] theorem State.freshId_plan (s : State)  : (s.freshId).plan = s.plan := rfl
@[simp] theorem State.freshId_turn (s : State)  : (s.freshId).turn = s.turn := rfl
@[simp] theorem State.freshId_pick (s : State)  : (s.freshId).pick = s.pick := rfl
@[simp] theorem State.freshId_cur (s : State)  : (s.freshId).cur = s.cur := rfl
@[simp] theorem State.freshId_cyc (s : State)  : (s.freshId).cyc = s.cyc := rfl
@[simp] theorem State.freshId_ctxs (s : State)  : (s.freshId).ctxs = s.ctxs := rfl
@[simp] theorem State.freshId_tiles (s : State)  : (s.freshId).tiles = s.tiles := rfl
@[simp] theorem State.freshId_mem (s : State)  : (s.freshId).mem = s.mem := rfl
@[simp] theorem State.freshId_pf (s : State)  : (s.freshId).pf = s.pf := rfl
@[simp] theorem State.freshId_vfs (s : State)  : (s.freshId).vfs = s.vfs := rfl
@[simp] theorem State.freshId_sched (s : State)  : (s.freshId).sched = s.sched := rfl
@[simp] theorem State.freshId_prot (s : State)  : (s.freshId).prot = s.prot := rfl
@[simp] theorem State.freshId_fab (s : State)  : (s.freshId).fab = s.fab := rfl
@[simp] theorem State.freshId_ckpts (s : State)  : (s.freshId).ckpts = s.ckpts := rfl
@[simp] theorem State.freshId_rot (s : State)  : (s.freshId).rot = s.rot := rfl
@[simp] theorem State.freshId_hits (s : State)  : (s.freshId).hits = s.hits := rfl
@[simp] theorem State.writeG_now (s : State) (r : Nat) (v : Word) : (s.writeG r v).now = s.now := rfl
@[simp] theorem State.writeG_plan (s : State) (r : Nat) (v : Word) : (s.writeG r v).plan = s.plan := rfl
@[simp] theorem State.writeG_turn (s : State) (r : Nat) (v : Word) : (s.writeG r v).turn = s.turn := rfl
@[simp] theorem State.writeG_pick (s : State) (r : Nat) (v : Word) : (s.writeG r v).pick = s.pick := rfl
@[simp] theorem State.writeG_cur (s : State) (r : Nat) (v : Word) : (s.writeG r v).cur = s.cur := rfl
@[simp] theorem State.writeG_cyc (s : State) (r : Nat) (v : Word) : (s.writeG r v).cyc = s.cyc := rfl
@[simp] theorem State.writeG_tiles (s : State) (r : Nat) (v : Word) : (s.writeG r v).tiles = s.tiles := rfl
@[simp] theorem State.writeG_ord (s : State) (r : Nat) (v : Word) : (s.writeG r v).ord = s.ord := rfl
@[simp] theorem State.writeG_mem (s : State) (r : Nat) (v : Word) : (s.writeG r v).mem = s.mem := rfl
@[simp] theorem State.writeG_pf (s : State) (r : Nat) (v : Word) : (s.writeG r v).pf = s.pf := rfl
@[simp] theorem State.writeG_vfs (s : State) (r : Nat) (v : Word) : (s.writeG r v).vfs = s.vfs := rfl
@[simp] theorem State.writeG_sched (s : State) (r : Nat) (v : Word) : (s.writeG r v).sched = s.sched := rfl
@[simp] theorem State.writeG_prot (s : State) (r : Nat) (v : Word) : (s.writeG r v).prot = s.prot := rfl
@[simp] theorem State.writeG_fab (s : State) (r : Nat) (v : Word) : (s.writeG r v).fab = s.fab := rfl
@[simp] theorem State.writeG_ckpts (s : State) (r : Nat) (v : Word) : (s.writeG r v).ckpts = s.ckpts := rfl
@[simp] theorem State.writeG_rot (s : State) (r : Nat) (v : Word) : (s.writeG r v).rot = s.rot := rfl
@[simp] theorem State.writeG_hits (s : State) (r : Nat) (v : Word) : (s.writeG r v).hits = s.hits := rfl
@[simp] theorem State.setTile_now (s : State) (key : TileKey) (t : Tile) : (s.setTile key t).now = s.now := rfl
@[simp] theorem State.setTile_plan (s : State) (key : TileKey) (t : Tile) : (s.setTile key t).plan = s.plan := rfl
@[simp] theorem State.setTile_turn (s : State) (key : TileKey) (t : Tile) : (s.setTile key t).turn = s.turn := rfl
@[simp] theorem State.setTile_pick (s : State) (key : TileKey) (t : Tile) : (s.setTile key t).pick = s.pick := rfl
@[simp] theorem State.setTile_cur (s : State) (key : TileKey) (t : Tile) : (s.setTile key t).cur = s.cur := rfl
@[simp] theorem State.setTile_cyc (s : State) (key : TileKey) (t : Tile) : (s.setTile key t).cyc = s.cyc := rfl
@[simp] theorem State.setTile_ctxs (s : State) (key : TileKey) (t : Tile) : (s.setTile key t).ctxs = s.ctxs := rfl
@[simp] theorem State.setTile_ord (s : State) (key : TileKey) (t : Tile) : (s.setTile key t).ord = s.ord := rfl
@[simp] theorem State.setTile_mem (s : State) (key : TileKey) (t : Tile) : (s.setTile key t).mem = s.mem := rfl
@[simp] theorem State.setTile_pf (s : State) (key : TileKey) (t : Tile) : (s.setTile key t).pf = s.pf := rfl
@[simp] theorem State.setTile_vfs (s : State) (key : TileKey) (t : Tile) : (s.setTile key t).vfs = s.vfs := rfl
@[simp] theorem State.setTile_sched (s : State) (key : TileKey) (t : Tile) : (s.setTile key t).sched = s.sched := rfl
@[simp] theorem State.setTile_prot (s : State) (key : TileKey) (t : Tile) : (s.setTile key t).prot = s.prot := rfl
@[simp] theorem State.setTile_fab (s : State) (key : TileKey) (t : Tile) : (s.setTile key t).fab = s.fab := rfl
@[simp] theorem State.setTile_ckpts (s : State) (key : TileKey) (t : Tile) : (s.setTile key t).ckpts = s.ckpts := rfl
@[simp] theorem State.setTile_rot (s : State) (key : TileKey) (t : Tile) : (s.setTile key t).rot = s.rot := rfl
@[simp] theorem State.setTile_hits (s : State) (key : TileKey) (t : Tile) : (s.setTile key t).hits = s.hits := rfl
@[simp] theorem State.dropTile_now (s : State) (key : TileKey) : (s.dropTile key).now = s.now := rfl
@[simp] theorem State.dropTile_plan (s : State) (key : TileKey) : (s.dropTile key).plan = s.plan := rfl
@[simp] theorem State.dropTile_turn (s : State) (key : TileKey) : (s.dropTile key).turn = s.turn := rfl
@[simp] theorem State.dropTile_pick (s : State) (key : TileKey) : (s.dropTile key).pick = s.pick := rfl
@[simp] theorem State.dropTile_cur (s : State) (key : TileKey) : (s.dropTile key).cur = s.cur := rfl
@[simp] theorem State.dropTile_cyc (s : State) (key : TileKey) : (s.dropTile key).cyc = s.cyc := rfl
@[simp] theorem State.dropTile_ctxs (s : State) (key : TileKey) : (s.dropTile key).ctxs = s.ctxs := rfl
@[simp] theorem State.dropTile_ord (s : State) (key : TileKey) : (s.dropTile key).ord = s.ord := rfl
@[simp] theorem State.dropTile_mem (s : State) (key : TileKey) : (s.dropTile key).mem = s.mem := rfl
@[simp] theorem State.dropTile_pf (s : State) (key : TileKey) : (s.dropTile key).pf = s.pf := rfl
@[simp] theorem State.dropTile_vfs (s : State) (key : TileKey) : (s.dropTile key).vfs = s.vfs := rfl
@[simp] theorem State.dropTile_sched (s : State) (key : TileKey) : (s.dropTile key).sched = s.sched := rfl
@[simp] theorem State.dropTile_prot (s : State) (key : TileKey) : (s.dropTile key).prot = s.prot := rfl
@[simp] theorem State.dropTile_fab (s : State) (key : TileKey) : (s.dropTile key).fab = s.fab := rfl
@[simp] theorem State.dropTile_ckpts (s : State) (key : TileKey) : (s.dropTile key).ckpts = s.ckpts := rfl
@[simp] theorem State.dropTile_rot (s : State) (key : TileKey) : (s.dropTile key).rot = s.rot := rfl
@[simp] theorem State.dropTile_hits (s : State) (key : TileKey) : (s.dropTile key).hits = s.hits := rfl
@[simp] theorem State.setDv_now (s : State) (die loc : Nat) (b : DvByte) : (s.setDv die loc b).now = s.now := rfl
@[simp] theorem State.setDv_plan (s : State) (die loc : Nat) (b : DvByte) : (s.setDv die loc b).plan = s.plan := rfl
@[simp] theorem State.setDv_turn (s : State) (die loc : Nat) (b : DvByte) : (s.setDv die loc b).turn = s.turn := rfl
@[simp] theorem State.setDv_pick (s : State) (die loc : Nat) (b : DvByte) : (s.setDv die loc b).pick = s.pick := rfl
@[simp] theorem State.setDv_cur (s : State) (die loc : Nat) (b : DvByte) : (s.setDv die loc b).cur = s.cur := rfl
@[simp] theorem State.setDv_cyc (s : State) (die loc : Nat) (b : DvByte) : (s.setDv die loc b).cyc = s.cyc := rfl
@[simp] theorem State.setDv_ctxs (s : State) (die loc : Nat) (b : DvByte) : (s.setDv die loc b).ctxs = s.ctxs := rfl
@[simp] theorem State.setDv_tiles (s : State) (die loc : Nat) (b : DvByte) : (s.setDv die loc b).tiles = s.tiles := rfl
@[simp] theorem State.setDv_mem (s : State) (die loc : Nat) (b : DvByte) : (s.setDv die loc b).mem = s.mem := rfl
@[simp] theorem State.setDv_pf (s : State) (die loc : Nat) (b : DvByte) : (s.setDv die loc b).pf = s.pf := rfl
@[simp] theorem State.setDv_vfs (s : State) (die loc : Nat) (b : DvByte) : (s.setDv die loc b).vfs = s.vfs := rfl
@[simp] theorem State.setDv_sched (s : State) (die loc : Nat) (b : DvByte) : (s.setDv die loc b).sched = s.sched := rfl
@[simp] theorem State.setDv_prot (s : State) (die loc : Nat) (b : DvByte) : (s.setDv die loc b).prot = s.prot := rfl
@[simp] theorem State.setDv_fab (s : State) (die loc : Nat) (b : DvByte) : (s.setDv die loc b).fab = s.fab := rfl
@[simp] theorem State.setDv_ckpts (s : State) (die loc : Nat) (b : DvByte) : (s.setDv die loc b).ckpts = s.ckpts := rfl
@[simp] theorem State.setDv_rot (s : State) (die loc : Nat) (b : DvByte) : (s.setDv die loc b).rot = s.rot := rfl
@[simp] theorem State.setDv_hits (s : State) (die loc : Nat) (b : DvByte) : (s.setDv die loc b).hits = s.hits := rfl
@[simp] theorem State.sendUp_now (s : State) (die line vf : Nat) (m : UpMsg) : (s.sendUp die line vf m).now = s.now := rfl
@[simp] theorem State.sendUp_plan (s : State) (die line vf : Nat) (m : UpMsg) : (s.sendUp die line vf m).plan = s.plan := rfl
@[simp] theorem State.sendUp_turn (s : State) (die line vf : Nat) (m : UpMsg) : (s.sendUp die line vf m).turn = s.turn := rfl
@[simp] theorem State.sendUp_pick (s : State) (die line vf : Nat) (m : UpMsg) : (s.sendUp die line vf m).pick = s.pick := rfl
@[simp] theorem State.sendUp_cur (s : State) (die line vf : Nat) (m : UpMsg) : (s.sendUp die line vf m).cur = s.cur := rfl
@[simp] theorem State.sendUp_cyc (s : State) (die line vf : Nat) (m : UpMsg) : (s.sendUp die line vf m).cyc = s.cyc := rfl
@[simp] theorem State.sendUp_ctxs (s : State) (die line vf : Nat) (m : UpMsg) : (s.sendUp die line vf m).ctxs = s.ctxs := rfl
@[simp] theorem State.sendUp_tiles (s : State) (die line vf : Nat) (m : UpMsg) : (s.sendUp die line vf m).tiles = s.tiles := rfl
@[simp] theorem State.sendUp_mem (s : State) (die line vf : Nat) (m : UpMsg) : (s.sendUp die line vf m).mem = s.mem := rfl
@[simp] theorem State.sendUp_pf (s : State) (die line vf : Nat) (m : UpMsg) : (s.sendUp die line vf m).pf = s.pf := rfl
@[simp] theorem State.sendUp_vfs (s : State) (die line vf : Nat) (m : UpMsg) : (s.sendUp die line vf m).vfs = s.vfs := rfl
@[simp] theorem State.sendUp_sched (s : State) (die line vf : Nat) (m : UpMsg) : (s.sendUp die line vf m).sched = s.sched := rfl
@[simp] theorem State.sendUp_prot (s : State) (die line vf : Nat) (m : UpMsg) : (s.sendUp die line vf m).prot = s.prot := rfl
@[simp] theorem State.sendUp_fab (s : State) (die line vf : Nat) (m : UpMsg) : (s.sendUp die line vf m).fab = s.fab := rfl
@[simp] theorem State.sendUp_ckpts (s : State) (die line vf : Nat) (m : UpMsg) : (s.sendUp die line vf m).ckpts = s.ckpts := rfl
@[simp] theorem State.sendUp_rot (s : State) (die line vf : Nat) (m : UpMsg) : (s.sendUp die line vf m).rot = s.rot := rfl
@[simp] theorem State.sendUp_hits (s : State) (die line vf : Nat) (m : UpMsg) : (s.sendUp die line vf m).hits = s.hits := rfl
@[simp] theorem State.sendDn_now (s : State) (die line : Nat) (m : DnMsg) : (s.sendDn die line m).now = s.now := rfl
@[simp] theorem State.sendDn_plan (s : State) (die line : Nat) (m : DnMsg) : (s.sendDn die line m).plan = s.plan := rfl
@[simp] theorem State.sendDn_turn (s : State) (die line : Nat) (m : DnMsg) : (s.sendDn die line m).turn = s.turn := rfl
@[simp] theorem State.sendDn_pick (s : State) (die line : Nat) (m : DnMsg) : (s.sendDn die line m).pick = s.pick := rfl
@[simp] theorem State.sendDn_cur (s : State) (die line : Nat) (m : DnMsg) : (s.sendDn die line m).cur = s.cur := rfl
@[simp] theorem State.sendDn_cyc (s : State) (die line : Nat) (m : DnMsg) : (s.sendDn die line m).cyc = s.cyc := rfl
@[simp] theorem State.sendDn_ctxs (s : State) (die line : Nat) (m : DnMsg) : (s.sendDn die line m).ctxs = s.ctxs := rfl
@[simp] theorem State.sendDn_tiles (s : State) (die line : Nat) (m : DnMsg) : (s.sendDn die line m).tiles = s.tiles := rfl
@[simp] theorem State.sendDn_mem (s : State) (die line : Nat) (m : DnMsg) : (s.sendDn die line m).mem = s.mem := rfl
@[simp] theorem State.sendDn_pf (s : State) (die line : Nat) (m : DnMsg) : (s.sendDn die line m).pf = s.pf := rfl
@[simp] theorem State.sendDn_vfs (s : State) (die line : Nat) (m : DnMsg) : (s.sendDn die line m).vfs = s.vfs := rfl
@[simp] theorem State.sendDn_sched (s : State) (die line : Nat) (m : DnMsg) : (s.sendDn die line m).sched = s.sched := rfl
@[simp] theorem State.sendDn_prot (s : State) (die line : Nat) (m : DnMsg) : (s.sendDn die line m).prot = s.prot := rfl
@[simp] theorem State.sendDn_fab (s : State) (die line : Nat) (m : DnMsg) : (s.sendDn die line m).fab = s.fab := rfl
@[simp] theorem State.sendDn_ckpts (s : State) (die line : Nat) (m : DnMsg) : (s.sendDn die line m).ckpts = s.ckpts := rfl
@[simp] theorem State.sendDn_rot (s : State) (die line : Nat) (m : DnMsg) : (s.sendDn die line m).rot = s.rot := rfl
@[simp] theorem State.sendDn_hits (s : State) (die line : Nat) (m : DnMsg) : (s.sendDn die line m).hits = s.hits := rfl
@[simp] theorem State.hbmRaw_now (s : State) (a : Nat) (bs : List Byte) : (s.hbmRaw a bs).now = s.now := rfl
@[simp] theorem State.hbmRaw_plan (s : State) (a : Nat) (bs : List Byte) : (s.hbmRaw a bs).plan = s.plan := rfl
@[simp] theorem State.hbmRaw_turn (s : State) (a : Nat) (bs : List Byte) : (s.hbmRaw a bs).turn = s.turn := rfl
@[simp] theorem State.hbmRaw_pick (s : State) (a : Nat) (bs : List Byte) : (s.hbmRaw a bs).pick = s.pick := rfl
@[simp] theorem State.hbmRaw_cur (s : State) (a : Nat) (bs : List Byte) : (s.hbmRaw a bs).cur = s.cur := rfl
@[simp] theorem State.hbmRaw_cyc (s : State) (a : Nat) (bs : List Byte) : (s.hbmRaw a bs).cyc = s.cyc := rfl
@[simp] theorem State.hbmRaw_ctxs (s : State) (a : Nat) (bs : List Byte) : (s.hbmRaw a bs).ctxs = s.ctxs := rfl
@[simp] theorem State.hbmRaw_tiles (s : State) (a : Nat) (bs : List Byte) : (s.hbmRaw a bs).tiles = s.tiles := rfl
@[simp] theorem State.hbmRaw_ord (s : State) (a : Nat) (bs : List Byte) : (s.hbmRaw a bs).ord = s.ord := rfl
@[simp] theorem State.hbmRaw_pf (s : State) (a : Nat) (bs : List Byte) : (s.hbmRaw a bs).pf = s.pf := rfl
@[simp] theorem State.hbmRaw_vfs (s : State) (a : Nat) (bs : List Byte) : (s.hbmRaw a bs).vfs = s.vfs := rfl
@[simp] theorem State.hbmRaw_sched (s : State) (a : Nat) (bs : List Byte) : (s.hbmRaw a bs).sched = s.sched := rfl
@[simp] theorem State.hbmRaw_prot (s : State) (a : Nat) (bs : List Byte) : (s.hbmRaw a bs).prot = s.prot := rfl
@[simp] theorem State.hbmRaw_fab (s : State) (a : Nat) (bs : List Byte) : (s.hbmRaw a bs).fab = s.fab := rfl
@[simp] theorem State.hbmRaw_ckpts (s : State) (a : Nat) (bs : List Byte) : (s.hbmRaw a bs).ckpts = s.ckpts := rfl
@[simp] theorem State.hbmRaw_rot (s : State) (a : Nat) (bs : List Byte) : (s.hbmRaw a bs).rot = s.rot := rfl
@[simp] theorem State.hbmRaw_hits (s : State) (a : Nat) (bs : List Byte) : (s.hbmRaw a bs).hits = s.hits := rfl
@[simp] theorem State.upInst_now (s : State) (id : Nat) (f : Inst → Inst) : (s.upInst id f).now = s.now := rfl
@[simp] theorem State.upInst_plan (s : State) (id : Nat) (f : Inst → Inst) : (s.upInst id f).plan = s.plan := rfl
@[simp] theorem State.upInst_turn (s : State) (id : Nat) (f : Inst → Inst) : (s.upInst id f).turn = s.turn := rfl
@[simp] theorem State.upInst_pick (s : State) (id : Nat) (f : Inst → Inst) : (s.upInst id f).pick = s.pick := rfl
@[simp] theorem State.upInst_cur (s : State) (id : Nat) (f : Inst → Inst) : (s.upInst id f).cur = s.cur := rfl
@[simp] theorem State.upInst_cyc (s : State) (id : Nat) (f : Inst → Inst) : (s.upInst id f).cyc = s.cyc := rfl
@[simp] theorem State.upInst_ctxs (s : State) (id : Nat) (f : Inst → Inst) : (s.upInst id f).ctxs = s.ctxs := rfl
@[simp] theorem State.upInst_tiles (s : State) (id : Nat) (f : Inst → Inst) : (s.upInst id f).tiles = s.tiles := rfl
@[simp] theorem State.upInst_ord (s : State) (id : Nat) (f : Inst → Inst) : (s.upInst id f).ord = s.ord := rfl
@[simp] theorem State.upInst_mem (s : State) (id : Nat) (f : Inst → Inst) : (s.upInst id f).mem = s.mem := rfl
@[simp] theorem State.upInst_pf (s : State) (id : Nat) (f : Inst → Inst) : (s.upInst id f).pf = s.pf := rfl
@[simp] theorem State.upInst_vfs (s : State) (id : Nat) (f : Inst → Inst) : (s.upInst id f).vfs = s.vfs := rfl
@[simp] theorem State.upInst_prot (s : State) (id : Nat) (f : Inst → Inst) : (s.upInst id f).prot = s.prot := rfl
@[simp] theorem State.upInst_fab (s : State) (id : Nat) (f : Inst → Inst) : (s.upInst id f).fab = s.fab := rfl
@[simp] theorem State.upInst_ckpts (s : State) (id : Nat) (f : Inst → Inst) : (s.upInst id f).ckpts = s.ckpts := rfl
@[simp] theorem State.upInst_rot (s : State) (id : Nat) (f : Inst → Inst) : (s.upInst id f).rot = s.rot := rfl
@[simp] theorem State.upInst_hits (s : State) (id : Nat) (f : Inst → Inst) : (s.upInst id f).hits = s.hits := rfl
@[simp] theorem State.upTask_now (s : State) (seq : Nat) (f : Task → Task) : (s.upTask seq f).now = s.now := rfl
@[simp] theorem State.upTask_plan (s : State) (seq : Nat) (f : Task → Task) : (s.upTask seq f).plan = s.plan := rfl
@[simp] theorem State.upTask_turn (s : State) (seq : Nat) (f : Task → Task) : (s.upTask seq f).turn = s.turn := rfl
@[simp] theorem State.upTask_pick (s : State) (seq : Nat) (f : Task → Task) : (s.upTask seq f).pick = s.pick := rfl
@[simp] theorem State.upTask_cur (s : State) (seq : Nat) (f : Task → Task) : (s.upTask seq f).cur = s.cur := rfl
@[simp] theorem State.upTask_cyc (s : State) (seq : Nat) (f : Task → Task) : (s.upTask seq f).cyc = s.cyc := rfl
@[simp] theorem State.upTask_ctxs (s : State) (seq : Nat) (f : Task → Task) : (s.upTask seq f).ctxs = s.ctxs := rfl
@[simp] theorem State.upTask_tiles (s : State) (seq : Nat) (f : Task → Task) : (s.upTask seq f).tiles = s.tiles := rfl
@[simp] theorem State.upTask_ord (s : State) (seq : Nat) (f : Task → Task) : (s.upTask seq f).ord = s.ord := rfl
@[simp] theorem State.upTask_mem (s : State) (seq : Nat) (f : Task → Task) : (s.upTask seq f).mem = s.mem := rfl
@[simp] theorem State.upTask_pf (s : State) (seq : Nat) (f : Task → Task) : (s.upTask seq f).pf = s.pf := rfl
@[simp] theorem State.upTask_vfs (s : State) (seq : Nat) (f : Task → Task) : (s.upTask seq f).vfs = s.vfs := rfl
@[simp] theorem State.upTask_prot (s : State) (seq : Nat) (f : Task → Task) : (s.upTask seq f).prot = s.prot := rfl
@[simp] theorem State.upTask_fab (s : State) (seq : Nat) (f : Task → Task) : (s.upTask seq f).fab = s.fab := rfl
@[simp] theorem State.upTask_ckpts (s : State) (seq : Nat) (f : Task → Task) : (s.upTask seq f).ckpts = s.ckpts := rfl
@[simp] theorem State.upTask_rot (s : State) (seq : Nat) (f : Task → Task) : (s.upTask seq f).rot = s.rot := rfl
@[simp] theorem State.upTask_hits (s : State) (seq : Nat) (f : Task → Task) : (s.upTask seq f).hits = s.hits := rfl

/-! ### Updates of a context -/

@[simp] theorem Ctx.setStrm_live (c : Ctx) (st : Strm) (x : StreamSt) : (c.setStrm st x).live = c.live := by cases st <;> rfl
@[simp] theorem Ctx.setStrm_vf (c : Ctx) (st : Strm) (x : StreamSt) : (c.setStrm st x).vf = c.vf := by cases st <;> rfl
@[simp] theorem Ctx.setStrm_team (c : Ctx) (st : Strm) (x : StreamSt) : (c.setStrm st x).team = c.team := by cases st <;> rfl
@[simp] theorem Ctx.setStrm_g (c : Ctx) (st : Strm) (x : StreamSt) : (c.setStrm st x).g = c.g := by cases st <;> rfl
@[simp] theorem Ctx.setStrm_d (c : Ctx) (st : Strm) (x : StreamSt) : (c.setStrm st x).d = c.d := by cases st <;> rfl
@[simp] theorem Ctx.setStrm_dext (c : Ctx) (st : Strm) (x : StreamSt) : (c.setStrm st x).dext = c.dext := by cases st <;> rfl
@[simp] theorem Ctx.setStrm_tok (c : Ctx) (st : Strm) (x : StreamSt) : (c.setStrm st x).tok = c.tok := by cases st <;> rfl
@[simp] theorem Ctx.setStrm_guard (c : Ctx) (st : Strm) (x : StreamSt) : (c.setStrm st x).guard = c.guard := by cases st <;> rfl
@[simp] theorem Ctx.setStrm_dvb (c : Ctx) (st : Strm) (x : StreamSt) : (c.setStrm st x).dvb = c.dvb := by cases st <;> rfl
@[simp] theorem Ctx.setStrm_dvbWait (c : Ctx) (st : Strm) (x : StreamSt) : (c.setStrm st x).dvbWait = c.dvbWait := by cases st <;> rfl
@[simp] theorem Ctx.setStrm_rq (c : Ctx) (st : Strm) (x : StreamSt) : (c.setStrm st x).rq = c.rq := by cases st <;> rfl
@[simp] theorem Ctx.setStrm_oq (c : Ctx) (st : Strm) (x : StreamSt) : (c.setStrm st x).oq = c.oq := by cases st <;> rfl
@[simp] theorem Ctx.setStrm_deal (c : Ctx) (st : Strm) (x : StreamSt) : (c.setStrm st x).deal = c.deal := by cases st <;> rfl
@[simp] theorem Ctx.setStrm_shadow (c : Ctx) (st : Strm) (x : StreamSt) : (c.setStrm st x).shadow = c.shadow := by cases st <;> rfl
@[simp] theorem Ctx.setStrm_hvec (c : Ctx) (st : Strm) (x : StreamSt) : (c.setStrm st x).hvec = c.hvec := by cases st <;> rfl
@[simp] theorem Ctx.setStrm_hpc (c : Ctx) (st : Strm) (x : StreamSt) : (c.setStrm st x).hpc = c.hpc := by cases st <;> rfl
@[simp] theorem Ctx.setStrm_hmode (c : Ctx) (st : Strm) (x : StreamSt) : (c.setStrm st x).hmode = c.hmode := by cases st <;> rfl
@[simp] theorem Ctx.setStrm_sel (c : Ctx) (st : Strm) (x : StreamSt) : (c.setStrm st x).sel = c.sel := by cases st <;> rfl
@[simp] theorem Ctx.setStrm_act (c : Ctx) (st : Strm) (x : StreamSt) : (c.setStrm st x).act = c.act := by cases st <;> rfl
@[simp] theorem Ctx.setStrm_frec (c : Ctx) (st : Strm) (x : StreamSt) : (c.setStrm st x).frec = c.frec := by cases st <;> rfl
@[simp] theorem Ctx.setStrm_hsave (c : Ctx) (st : Strm) (x : StreamSt) : (c.setStrm st x).hsave = c.hsave := by cases st <;> rfl
@[simp] theorem Ctx.setStrm_tlbinv (c : Ctx) (st : Strm) (x : StreamSt) : (c.setStrm st x).tlbinv = c.tlbinv := by cases st <;> rfl
@[simp] theorem Ctx.setStrm_vec (c : Ctx) (st : Strm) (x : StreamSt) : (c.setStrm st x).vec = c.vec := by cases st <;> rfl
@[simp] theorem Ctx.setStrm_mat (c : Ctx) (st : Strm) (x : StreamSt) : (c.setStrm st x).mat = c.mat := by cases st <;> rfl
@[simp] theorem Ctx.setStrm_cpy (c : Ctx) (st : Strm) (x : StreamSt) : (c.setStrm st x).cpy = c.cpy := by cases st <;> rfl
@[simp] theorem Ctx.setStrm_gpend (c : Ctx) (st : Strm) (x : StreamSt) : (c.setStrm st x).gpend = c.gpend := by cases st <;> rfl
@[simp] theorem Ctx.setStrm_dpend (c : Ctx) (st : Strm) (x : StreamSt) : (c.setStrm st x).dpend = c.dpend := by cases st <;> rfl
@[simp] theorem Ctx.setStrm_idleFrom (c : Ctx) (st : Strm) (x : StreamSt) : (c.setStrm st x).idleFrom = c.idleFrom := by cases st <;> rfl
@[simp] theorem Ctx.setStrm_regCheck (c : Ctx) (st : Strm) (x : StreamSt) : (c.setStrm st x).regCheck = c.regCheck := by cases st <;> rfl
@[simp] theorem Ctx.setStrm_mustDeliver (c : Ctx) (st : Strm) (x : StreamSt) : (c.setStrm st x).mustDeliver = c.mustDeliver := by cases st <;> rfl
@[simp] theorem Ctx.upStrm_live (c : Ctx) (st : Strm) (f : StreamSt → StreamSt) : (c.upStrm st f).live = c.live := by cases st <;> rfl
@[simp] theorem Ctx.upStrm_vf (c : Ctx) (st : Strm) (f : StreamSt → StreamSt) : (c.upStrm st f).vf = c.vf := by cases st <;> rfl
@[simp] theorem Ctx.upStrm_team (c : Ctx) (st : Strm) (f : StreamSt → StreamSt) : (c.upStrm st f).team = c.team := by cases st <;> rfl
@[simp] theorem Ctx.upStrm_g (c : Ctx) (st : Strm) (f : StreamSt → StreamSt) : (c.upStrm st f).g = c.g := by cases st <;> rfl
@[simp] theorem Ctx.upStrm_d (c : Ctx) (st : Strm) (f : StreamSt → StreamSt) : (c.upStrm st f).d = c.d := by cases st <;> rfl
@[simp] theorem Ctx.upStrm_dext (c : Ctx) (st : Strm) (f : StreamSt → StreamSt) : (c.upStrm st f).dext = c.dext := by cases st <;> rfl
@[simp] theorem Ctx.upStrm_tok (c : Ctx) (st : Strm) (f : StreamSt → StreamSt) : (c.upStrm st f).tok = c.tok := by cases st <;> rfl
@[simp] theorem Ctx.upStrm_guard (c : Ctx) (st : Strm) (f : StreamSt → StreamSt) : (c.upStrm st f).guard = c.guard := by cases st <;> rfl
@[simp] theorem Ctx.upStrm_dvb (c : Ctx) (st : Strm) (f : StreamSt → StreamSt) : (c.upStrm st f).dvb = c.dvb := by cases st <;> rfl
@[simp] theorem Ctx.upStrm_dvbWait (c : Ctx) (st : Strm) (f : StreamSt → StreamSt) : (c.upStrm st f).dvbWait = c.dvbWait := by cases st <;> rfl
@[simp] theorem Ctx.upStrm_rq (c : Ctx) (st : Strm) (f : StreamSt → StreamSt) : (c.upStrm st f).rq = c.rq := by cases st <;> rfl
@[simp] theorem Ctx.upStrm_oq (c : Ctx) (st : Strm) (f : StreamSt → StreamSt) : (c.upStrm st f).oq = c.oq := by cases st <;> rfl
@[simp] theorem Ctx.upStrm_deal (c : Ctx) (st : Strm) (f : StreamSt → StreamSt) : (c.upStrm st f).deal = c.deal := by cases st <;> rfl
@[simp] theorem Ctx.upStrm_shadow (c : Ctx) (st : Strm) (f : StreamSt → StreamSt) : (c.upStrm st f).shadow = c.shadow := by cases st <;> rfl
@[simp] theorem Ctx.upStrm_hvec (c : Ctx) (st : Strm) (f : StreamSt → StreamSt) : (c.upStrm st f).hvec = c.hvec := by cases st <;> rfl
@[simp] theorem Ctx.upStrm_hpc (c : Ctx) (st : Strm) (f : StreamSt → StreamSt) : (c.upStrm st f).hpc = c.hpc := by cases st <;> rfl
@[simp] theorem Ctx.upStrm_hmode (c : Ctx) (st : Strm) (f : StreamSt → StreamSt) : (c.upStrm st f).hmode = c.hmode := by cases st <;> rfl
@[simp] theorem Ctx.upStrm_sel (c : Ctx) (st : Strm) (f : StreamSt → StreamSt) : (c.upStrm st f).sel = c.sel := by cases st <;> rfl
@[simp] theorem Ctx.upStrm_act (c : Ctx) (st : Strm) (f : StreamSt → StreamSt) : (c.upStrm st f).act = c.act := by cases st <;> rfl
@[simp] theorem Ctx.upStrm_frec (c : Ctx) (st : Strm) (f : StreamSt → StreamSt) : (c.upStrm st f).frec = c.frec := by cases st <;> rfl
@[simp] theorem Ctx.upStrm_hsave (c : Ctx) (st : Strm) (f : StreamSt → StreamSt) : (c.upStrm st f).hsave = c.hsave := by cases st <;> rfl
@[simp] theorem Ctx.upStrm_tlbinv (c : Ctx) (st : Strm) (f : StreamSt → StreamSt) : (c.upStrm st f).tlbinv = c.tlbinv := by cases st <;> rfl
@[simp] theorem Ctx.upStrm_vec (c : Ctx) (st : Strm) (f : StreamSt → StreamSt) : (c.upStrm st f).vec = c.vec := by cases st <;> rfl
@[simp] theorem Ctx.upStrm_mat (c : Ctx) (st : Strm) (f : StreamSt → StreamSt) : (c.upStrm st f).mat = c.mat := by cases st <;> rfl
@[simp] theorem Ctx.upStrm_cpy (c : Ctx) (st : Strm) (f : StreamSt → StreamSt) : (c.upStrm st f).cpy = c.cpy := by cases st <;> rfl
@[simp] theorem Ctx.upStrm_gpend (c : Ctx) (st : Strm) (f : StreamSt → StreamSt) : (c.upStrm st f).gpend = c.gpend := by cases st <;> rfl
@[simp] theorem Ctx.upStrm_dpend (c : Ctx) (st : Strm) (f : StreamSt → StreamSt) : (c.upStrm st f).dpend = c.dpend := by cases st <;> rfl
@[simp] theorem Ctx.upStrm_idleFrom (c : Ctx) (st : Strm) (f : StreamSt → StreamSt) : (c.upStrm st f).idleFrom = c.idleFrom := by cases st <;> rfl
@[simp] theorem Ctx.upStrm_regCheck (c : Ctx) (st : Strm) (f : StreamSt → StreamSt) : (c.upStrm st f).regCheck = c.regCheck := by cases st <;> rfl
@[simp] theorem Ctx.upStrm_mustDeliver (c : Ctx) (st : Strm) (f : StreamSt → StreamSt) : (c.upStrm st f).mustDeliver = c.mustDeliver := by cases st <;> rfl
@[simp] theorem Ctx.writeG_live (c : Ctx) (r : Nat) (v : Word) : (c.writeG r v).live = c.live := rfl
@[simp] theorem Ctx.writeG_vf (c : Ctx) (r : Nat) (v : Word) : (c.writeG r v).vf = c.vf := rfl
@[simp] theorem Ctx.writeG_team (c : Ctx) (r : Nat) (v : Word) : (c.writeG r v).team = c.team := rfl
@[simp] theorem Ctx.writeG_d (c : Ctx) (r : Nat) (v : Word) : (c.writeG r v).d = c.d := rfl
@[simp] theorem Ctx.writeG_dext (c : Ctx) (r : Nat) (v : Word) : (c.writeG r v).dext = c.dext := rfl
@[simp] theorem Ctx.writeG_tok (c : Ctx) (r : Nat) (v : Word) : (c.writeG r v).tok = c.tok := rfl
@[simp] theorem Ctx.writeG_guard (c : Ctx) (r : Nat) (v : Word) : (c.writeG r v).guard = c.guard := rfl
@[simp] theorem Ctx.writeG_dvb (c : Ctx) (r : Nat) (v : Word) : (c.writeG r v).dvb = c.dvb := rfl
@[simp] theorem Ctx.writeG_dvbWait (c : Ctx) (r : Nat) (v : Word) : (c.writeG r v).dvbWait = c.dvbWait := rfl
@[simp] theorem Ctx.writeG_rq (c : Ctx) (r : Nat) (v : Word) : (c.writeG r v).rq = c.rq := rfl
@[simp] theorem Ctx.writeG_oq (c : Ctx) (r : Nat) (v : Word) : (c.writeG r v).oq = c.oq := rfl
@[simp] theorem Ctx.writeG_deal (c : Ctx) (r : Nat) (v : Word) : (c.writeG r v).deal = c.deal := rfl
@[simp] theorem Ctx.writeG_shadow (c : Ctx) (r : Nat) (v : Word) : (c.writeG r v).shadow = c.shadow := rfl
@[simp] theorem Ctx.writeG_hvec (c : Ctx) (r : Nat) (v : Word) : (c.writeG r v).hvec = c.hvec := rfl
@[simp] theorem Ctx.writeG_hpc (c : Ctx) (r : Nat) (v : Word) : (c.writeG r v).hpc = c.hpc := rfl
@[simp] theorem Ctx.writeG_hmode (c : Ctx) (r : Nat) (v : Word) : (c.writeG r v).hmode = c.hmode := rfl
@[simp] theorem Ctx.writeG_sel (c : Ctx) (r : Nat) (v : Word) : (c.writeG r v).sel = c.sel := rfl
@[simp] theorem Ctx.writeG_act (c : Ctx) (r : Nat) (v : Word) : (c.writeG r v).act = c.act := rfl
@[simp] theorem Ctx.writeG_frec (c : Ctx) (r : Nat) (v : Word) : (c.writeG r v).frec = c.frec := rfl
@[simp] theorem Ctx.writeG_hsave (c : Ctx) (r : Nat) (v : Word) : (c.writeG r v).hsave = c.hsave := rfl
@[simp] theorem Ctx.writeG_tlbinv (c : Ctx) (r : Nat) (v : Word) : (c.writeG r v).tlbinv = c.tlbinv := rfl
@[simp] theorem Ctx.writeG_sc (c : Ctx) (r : Nat) (v : Word) : (c.writeG r v).sc = c.sc := rfl
@[simp] theorem Ctx.writeG_sm (c : Ctx) (r : Nat) (v : Word) : (c.writeG r v).sm = c.sm := rfl
@[simp] theorem Ctx.writeG_sv (c : Ctx) (r : Nat) (v : Word) : (c.writeG r v).sv = c.sv := rfl
@[simp] theorem Ctx.writeG_sy (c : Ctx) (r : Nat) (v : Word) : (c.writeG r v).sy = c.sy := rfl
@[simp] theorem Ctx.writeG_vec (c : Ctx) (r : Nat) (v : Word) : (c.writeG r v).vec = c.vec := rfl
@[simp] theorem Ctx.writeG_mat (c : Ctx) (r : Nat) (v : Word) : (c.writeG r v).mat = c.mat := rfl
@[simp] theorem Ctx.writeG_cpy (c : Ctx) (r : Nat) (v : Word) : (c.writeG r v).cpy = c.cpy := rfl
@[simp] theorem Ctx.writeG_dpend (c : Ctx) (r : Nat) (v : Word) : (c.writeG r v).dpend = c.dpend := rfl
@[simp] theorem Ctx.writeG_idleFrom (c : Ctx) (r : Nat) (v : Word) : (c.writeG r v).idleFrom = c.idleFrom := rfl
@[simp] theorem Ctx.writeG_regCheck (c : Ctx) (r : Nat) (v : Word) :
    (c.writeG r v).regCheck = c.regCheck.filter fun e => decide (r = 0) || e.1 / 2 != r := rfl
@[simp] theorem Ctx.writeG_mustDeliver (c : Ctx) (r : Nat) (v : Word) : (c.writeG r v).mustDeliver = c.mustDeliver := rfl
@[simp] theorem Ctx.pendG_live (c : Ctx) (r id : Nat) : (c.pendG r id).live = c.live := rfl
@[simp] theorem Ctx.pendG_vf (c : Ctx) (r id : Nat) : (c.pendG r id).vf = c.vf := rfl
@[simp] theorem Ctx.pendG_team (c : Ctx) (r id : Nat) : (c.pendG r id).team = c.team := rfl
@[simp] theorem Ctx.pendG_g (c : Ctx) (r id : Nat) : (c.pendG r id).g = c.g := rfl
@[simp] theorem Ctx.pendG_d (c : Ctx) (r id : Nat) : (c.pendG r id).d = c.d := rfl
@[simp] theorem Ctx.pendG_dext (c : Ctx) (r id : Nat) : (c.pendG r id).dext = c.dext := rfl
@[simp] theorem Ctx.pendG_tok (c : Ctx) (r id : Nat) : (c.pendG r id).tok = c.tok := rfl
@[simp] theorem Ctx.pendG_guard (c : Ctx) (r id : Nat) : (c.pendG r id).guard = c.guard := rfl
@[simp] theorem Ctx.pendG_dvb (c : Ctx) (r id : Nat) : (c.pendG r id).dvb = c.dvb := rfl
@[simp] theorem Ctx.pendG_dvbWait (c : Ctx) (r id : Nat) : (c.pendG r id).dvbWait = c.dvbWait := rfl
@[simp] theorem Ctx.pendG_rq (c : Ctx) (r id : Nat) : (c.pendG r id).rq = c.rq := rfl
@[simp] theorem Ctx.pendG_oq (c : Ctx) (r id : Nat) : (c.pendG r id).oq = c.oq := rfl
@[simp] theorem Ctx.pendG_deal (c : Ctx) (r id : Nat) : (c.pendG r id).deal = c.deal := rfl
@[simp] theorem Ctx.pendG_shadow (c : Ctx) (r id : Nat) : (c.pendG r id).shadow = c.shadow := rfl
@[simp] theorem Ctx.pendG_hvec (c : Ctx) (r id : Nat) : (c.pendG r id).hvec = c.hvec := rfl
@[simp] theorem Ctx.pendG_hpc (c : Ctx) (r id : Nat) : (c.pendG r id).hpc = c.hpc := rfl
@[simp] theorem Ctx.pendG_hmode (c : Ctx) (r id : Nat) : (c.pendG r id).hmode = c.hmode := rfl
@[simp] theorem Ctx.pendG_sel (c : Ctx) (r id : Nat) : (c.pendG r id).sel = c.sel := rfl
@[simp] theorem Ctx.pendG_act (c : Ctx) (r id : Nat) : (c.pendG r id).act = c.act := rfl
@[simp] theorem Ctx.pendG_frec (c : Ctx) (r id : Nat) : (c.pendG r id).frec = c.frec := rfl
@[simp] theorem Ctx.pendG_hsave (c : Ctx) (r id : Nat) : (c.pendG r id).hsave = c.hsave := rfl
@[simp] theorem Ctx.pendG_tlbinv (c : Ctx) (r id : Nat) : (c.pendG r id).tlbinv = c.tlbinv := rfl
@[simp] theorem Ctx.pendG_sc (c : Ctx) (r id : Nat) : (c.pendG r id).sc = c.sc := rfl
@[simp] theorem Ctx.pendG_sm (c : Ctx) (r id : Nat) : (c.pendG r id).sm = c.sm := rfl
@[simp] theorem Ctx.pendG_sv (c : Ctx) (r id : Nat) : (c.pendG r id).sv = c.sv := rfl
@[simp] theorem Ctx.pendG_sy (c : Ctx) (r id : Nat) : (c.pendG r id).sy = c.sy := rfl
@[simp] theorem Ctx.pendG_vec (c : Ctx) (r id : Nat) : (c.pendG r id).vec = c.vec := rfl
@[simp] theorem Ctx.pendG_mat (c : Ctx) (r id : Nat) : (c.pendG r id).mat = c.mat := rfl
@[simp] theorem Ctx.pendG_cpy (c : Ctx) (r id : Nat) : (c.pendG r id).cpy = c.cpy := rfl
@[simp] theorem Ctx.pendG_dpend (c : Ctx) (r id : Nat) : (c.pendG r id).dpend = c.dpend := rfl
@[simp] theorem Ctx.pendG_idleFrom (c : Ctx) (r id : Nat) : (c.pendG r id).idleFrom = c.idleFrom := rfl
@[simp] theorem Ctx.pendG_regCheck (c : Ctx) (r id : Nat) : (c.pendG r id).regCheck = c.regCheck := rfl
@[simp] theorem Ctx.pendG_mustDeliver (c : Ctx) (r id : Nat) : (c.pendG r id).mustDeliver = c.mustDeliver := rfl
@[simp] theorem Ctx.writeGuard_live (c : Ctx) (n : Nat) (v : Guard) : (c.writeGuard n v).live = c.live := rfl
@[simp] theorem Ctx.writeGuard_vf (c : Ctx) (n : Nat) (v : Guard) : (c.writeGuard n v).vf = c.vf := rfl
@[simp] theorem Ctx.writeGuard_team (c : Ctx) (n : Nat) (v : Guard) : (c.writeGuard n v).team = c.team := rfl
@[simp] theorem Ctx.writeGuard_g (c : Ctx) (n : Nat) (v : Guard) : (c.writeGuard n v).g = c.g := rfl
@[simp] theorem Ctx.writeGuard_d (c : Ctx) (n : Nat) (v : Guard) : (c.writeGuard n v).d = c.d := rfl
@[simp] theorem Ctx.writeGuard_dext (c : Ctx) (n : Nat) (v : Guard) : (c.writeGuard n v).dext = c.dext := rfl
@[simp] theorem Ctx.writeGuard_tok (c : Ctx) (n : Nat) (v : Guard) : (c.writeGuard n v).tok = c.tok := rfl
@[simp] theorem Ctx.writeGuard_dvb (c : Ctx) (n : Nat) (v : Guard) : (c.writeGuard n v).dvb = c.dvb := rfl
@[simp] theorem Ctx.writeGuard_dvbWait (c : Ctx) (n : Nat) (v : Guard) : (c.writeGuard n v).dvbWait = c.dvbWait := rfl
@[simp] theorem Ctx.writeGuard_rq (c : Ctx) (n : Nat) (v : Guard) : (c.writeGuard n v).rq = c.rq := rfl
@[simp] theorem Ctx.writeGuard_oq (c : Ctx) (n : Nat) (v : Guard) : (c.writeGuard n v).oq = c.oq := rfl
@[simp] theorem Ctx.writeGuard_deal (c : Ctx) (n : Nat) (v : Guard) : (c.writeGuard n v).deal = c.deal := rfl
@[simp] theorem Ctx.writeGuard_shadow (c : Ctx) (n : Nat) (v : Guard) : (c.writeGuard n v).shadow = c.shadow := rfl
@[simp] theorem Ctx.writeGuard_hvec (c : Ctx) (n : Nat) (v : Guard) : (c.writeGuard n v).hvec = c.hvec := rfl
@[simp] theorem Ctx.writeGuard_hpc (c : Ctx) (n : Nat) (v : Guard) : (c.writeGuard n v).hpc = c.hpc := rfl
@[simp] theorem Ctx.writeGuard_hmode (c : Ctx) (n : Nat) (v : Guard) : (c.writeGuard n v).hmode = c.hmode := rfl
@[simp] theorem Ctx.writeGuard_sel (c : Ctx) (n : Nat) (v : Guard) : (c.writeGuard n v).sel = c.sel := rfl
@[simp] theorem Ctx.writeGuard_act (c : Ctx) (n : Nat) (v : Guard) : (c.writeGuard n v).act = c.act := rfl
@[simp] theorem Ctx.writeGuard_frec (c : Ctx) (n : Nat) (v : Guard) : (c.writeGuard n v).frec = c.frec := rfl
@[simp] theorem Ctx.writeGuard_hsave (c : Ctx) (n : Nat) (v : Guard) : (c.writeGuard n v).hsave = c.hsave := rfl
@[simp] theorem Ctx.writeGuard_tlbinv (c : Ctx) (n : Nat) (v : Guard) : (c.writeGuard n v).tlbinv = c.tlbinv := rfl
@[simp] theorem Ctx.writeGuard_sc (c : Ctx) (n : Nat) (v : Guard) : (c.writeGuard n v).sc = c.sc := rfl
@[simp] theorem Ctx.writeGuard_sm (c : Ctx) (n : Nat) (v : Guard) : (c.writeGuard n v).sm = c.sm := rfl
@[simp] theorem Ctx.writeGuard_sv (c : Ctx) (n : Nat) (v : Guard) : (c.writeGuard n v).sv = c.sv := rfl
@[simp] theorem Ctx.writeGuard_sy (c : Ctx) (n : Nat) (v : Guard) : (c.writeGuard n v).sy = c.sy := rfl
@[simp] theorem Ctx.writeGuard_vec (c : Ctx) (n : Nat) (v : Guard) : (c.writeGuard n v).vec = c.vec := rfl
@[simp] theorem Ctx.writeGuard_mat (c : Ctx) (n : Nat) (v : Guard) : (c.writeGuard n v).mat = c.mat := rfl
@[simp] theorem Ctx.writeGuard_cpy (c : Ctx) (n : Nat) (v : Guard) : (c.writeGuard n v).cpy = c.cpy := rfl
@[simp] theorem Ctx.writeGuard_gpend (c : Ctx) (n : Nat) (v : Guard) : (c.writeGuard n v).gpend = c.gpend := rfl
@[simp] theorem Ctx.writeGuard_dpend (c : Ctx) (n : Nat) (v : Guard) : (c.writeGuard n v).dpend = c.dpend := rfl
@[simp] theorem Ctx.writeGuard_idleFrom (c : Ctx) (n : Nat) (v : Guard) : (c.writeGuard n v).idleFrom = c.idleFrom := rfl
@[simp] theorem Ctx.writeGuard_regCheck (c : Ctx) (n : Nat) (v : Guard) : (c.writeGuard n v).regCheck = c.regCheck := rfl
@[simp] theorem Ctx.writeGuard_mustDeliver (c : Ctx) (n : Nat) (v : Guard) : (c.writeGuard n v).mustDeliver = c.mustDeliver := rfl

/-! ### Updates of a stream -/

@[simp] theorem StreamSt.leave_stat (x : StreamSt) (bs : List Block) (a : Nat) : (x.leave bs a).stat = x.stat := rfl
@[simp] theorem StreamSt.leave_waitN (x : StreamSt) (bs : List Block) (a : Nat) : (x.leave bs a).waitN = x.waitN := rfl
@[simp] theorem StreamSt.leave_rob (x : StreamSt) (bs : List Block) (a : Nat) : (x.leave bs a).rob = x.rob := rfl
@[simp] theorem StreamSt.leave_cq (x : StreamSt) (bs : List Block) (a : Nat) : (x.leave bs a).cq = x.cq := rfl
@[simp] theorem StreamSt.leave_obs (x : StreamSt) (bs : List Block) (a : Nat) : (x.leave bs a).obs = x.obs := rfl
@[simp] theorem StreamSt.leave_outE (x : StreamSt) (bs : List Block) (a : Nat) : (x.leave bs a).outE = x.outE := rfl
@[simp] theorem StreamSt.leave_outR (x : StreamSt) (bs : List Block) (a : Nat) : (x.leave bs a).outR = x.outR := rfl
@[simp] theorem StreamSt.leave_lost (x : StreamSt) (bs : List Block) (a : Nat) : (x.leave bs a).lost = x.lost := rfl
@[simp] theorem StreamSt.leave_lostVa (x : StreamSt) (bs : List Block) (a : Nat) : (x.leave bs a).lostVa = x.lostVa := rfl
@[simp] theorem StreamSt.leave_werr (x : StreamSt) (bs : List Block) (a : Nat) : (x.leave bs a).werr = x.werr := rfl
@[simp] theorem StreamSt.leave_faulted (x : StreamSt) (bs : List Block) (a : Nat) : (x.leave bs a).faulted = x.faulted := rfl
@[simp] theorem StreamSt.leave_stopReq (x : StreamSt) (bs : List Block) (a : Nat) : (x.leave bs a).stopReq = x.stopReq := rfl
@[simp] theorem StreamSt.leave_saved (x : StreamSt) (bs : List Block) (a : Nat) : (x.leave bs a).saved = x.saved := rfl
@[simp] theorem StreamSt.leave_redo (x : StreamSt) (bs : List Block) (a : Nat) : (x.leave bs a).redo = x.redo := rfl
@[simp] theorem StreamSt.leave_crc (x : StreamSt) (bs : List Block) (a : Nat) : (x.leave bs a).crc = x.crc := rfl
@[simp] theorem StreamSt.leave_vacc (x : StreamSt) (bs : List Block) (a : Nat) : (x.leave bs a).vacc = x.vacc := rfl
@[simp] theorem StreamSt.leave_epoch (x : StreamSt) (bs : List Block) (a : Nat) : (x.leave bs a).epoch = x.epoch := rfl
@[simp] theorem StreamSt.leave_recs (x : StreamSt) (bs : List Block) (a : Nat) : (x.leave bs a).recs = x.recs := rfl
@[simp] theorem StreamSt.leave_pc (x : StreamSt) (bs : List Block) (a : Nat) : (x.leave bs a).pc = a := rfl
@[simp] theorem StreamSt.leave_fp (x : StreamSt) (bs : List Block) (a : Nat) : (x.leave bs a).fp = a := rfl
@[simp] theorem StreamSt.leave_blocks (x : StreamSt) (bs : List Block) (a : Nat) : (x.leave bs a).blocks = bs := rfl
@[simp] theorem StreamSt.leave_pfx (x : StreamSt) (bs : List Block) (a : Nat) : (x.leave bs a).pfx = none := rfl
@[simp] theorem StreamSt.leave_rpt (x : StreamSt) (bs : List Block) (a : Nat) : (x.leave bs a).rpt = none := rfl
@[simp] theorem StreamSt.leave_discard (x : StreamSt) (bs : List Block) (a : Nat) : (x.leave bs a).discard = false := rfl
@[simp] theorem StreamSt.leave_committed (x : StreamSt) (bs : List Block) (a : Nat) : (x.leave bs a).committed = false := rfl
@[simp] theorem StreamSt.leave_mpos (x : StreamSt) (bs : List Block) (a : Nat) : (x.leave bs a).mpos = 0 := rfl

/-! ### Reading back -/

/-- A context after a context has been replaced. -/
@[simp] theorem State.ctx_setCtx (s : State) (k j : Nat) (c : Ctx) : (s.setCtx k c).ctx j = if j = k then c else s.ctx j := by
  by_cases h : j = k
  · subst h; simp [State.setCtx, State.ctx, AMap.get_set_same]
  · simp [State.setCtx, State.ctx, AMap.get_set_other _ _ _ _ _ h, h]

/-- A context after a context has been changed. -/
@[simp] theorem State.ctx_upCtx (s : State) (k j : Nat) (f : Ctx → Ctx) : (s.upCtx k f).ctx j = if j = k then f (s.ctx k) else s.ctx j := by
  simp [State.upCtx]

/-- The executing context after it has been changed. -/
@[simp] theorem State.here_upHere (s : State) (f : Ctx → Ctx) : (s.upHere f).here = f s.here := by
  simp [State.here, State.upHere]

/-- The executing stream is one of the executing context. -/
theorem State.me_eq (s : State) : s.me = s.here.strm s.cur.st := rfl

/-- A stream after it has been replaced. -/
@[simp] theorem Ctx.strm_setStrm (c : Ctx) (st u : Strm) (x : StreamSt) : (c.setStrm st x).strm u = if u = st then x else c.strm u := by
  cases st <;> cases u <;> rfl

/-- Replacing a stream twice. -/
@[simp] theorem Ctx.setStrm_setStrm (c : Ctx) (st : Strm) (x y : StreamSt) : (c.setStrm st x).setStrm st y = c.setStrm st y := by
  cases st <;> rfl

/-- Replacing a stream by itself. -/
@[simp] theorem Ctx.setStrm_strm (c : Ctx) (st : Strm) : c.setStrm st (c.strm st) = c := by cases st <;> rfl

/-- A g register after a write: g0 reads 0. -/
theorem Ctx.readG_writeG (c : Ctx) (r j : Nat) (v : Word) : (c.writeG r v).readG j = if j = r ∧ r ≠ 0 then v else c.readG j := by
  unfold Ctx.readG Ctx.writeG
  by_cases hj : j = 0
  · subst hj; by_cases hr : r = 0 <;> simp [hr, Ne.symm]
  · by_cases hr : r = 0
    · simp [hj, hr]
    · by_cases h : j = r
      · subst h; simp [hj, AMap.get_set_same]
      · simp [hj, hr, h, AMap.get_set_other _ _ _ _ _ h]

end Sys2Proof.Machine
end

