-- ==== Sys2Proof/Laws/Issue.lean ====
section
/-!
SUPPORT. Sys2Proof/Laws/Issue.lean: what issuing an instruction, finishing it and taking its fault can do, said once for every
instruction that ends in them.
-/

namespace Sys2Proof.Machine

/-- Nothing retires in front of an instruction that waits, and a finished one behind it waits too. -/
theorem retireList_blocked (st : Strm) (c : Ctx) (r : Rob) (rest : List Rob)
    (h : r.done = false ∨ r.err ≠ 0 ∨ pushTokens c.tok (pushKeys st r.push) = none) :
    retireList st c (r :: rest) = (c, r :: rest) := by
  unfold retireList
  obtain h | h | h := h
  · simp [h]
  · simp [h]
  · simp [h]

/-- One instruction that is complete, without error or effect of its own, and first in its stream. -/
theorem retireList_one (st : Strm) (c : Ctx) (r : Rob) (hd : r.done = true) (he : r.err = 0) (hf : r.eff = []) :
    retireList st c [r] =
      match pushTokens c.tok (pushKeys st r.push) with
      | some tok => ({ c with tok := tok }, [])
      | none => (c, [r]) := by
  simp only [retireList, hd, he, hf, decide_true, Bool.and_self, if_true]
  cases pushTokens c.tok (pushKeys st r.push) <;> simp

/-- Retiring in a stream of a context with a finished instruction at the end of what waits. -/
theorem Ctx.retire_eq (c : Ctx) (st : Strm) :
    c.retire st = (retireList st c (c.strm st).rob).1.upStrm st fun x => { x with rob := (retireList st c (c.strm st).rob).2 } := rfl

/-- The context of an issue: its stream has gone on as `go` says and holds the new unretired instruction. -/
def Ctx.issueWith (c : Ctx) (st : Strm) (r : Rob) (go : StreamSt → StreamSt) : Ctx :=
  let c := c.setStrm st (go { c.strm st with rob := (c.strm st).rob ++ [r] })
  if st = .v then { c with vec := { c.vec with slot := c.vec.slot + 1 } } else c

/-- A way for a stream to go on that does not look at its unretired instructions. -/
def KeepsRob (go : StreamSt → StreamSt) : Prop := ∀ (x : StreamSt) (rob : List Rob), go { x with rob := rob } = { go x with rob := rob }

theorem keepsRob_advance (next : Nat) : KeepsRob fun x => x.advance next := by
  intro x rob
  show StreamSt.advance _ _ = { StreamSt.advance x next with rob := rob }
  unfold StreamSt.advance StreamSt.lastIter
  cases x.rpt with
  | none => simp [StreamSt.leave]
  | some r => by_cases h : r.n ≤ r.iter + 1 <;> simp [StreamSt.leave, h]

theorem keepsRob_leave (a : Nat) : KeepsRob fun x => x.leave (keepBlocks x.blocks a) a := fun _ _ => rfl

theorem Ctx.issueWith_eq (c : Ctx) (st : Strm) (r : Rob) (go : StreamSt → StreamSt) (hgo : KeepsRob go) :
    c.issueWith st r go =
      { c.setStrm st { go (c.strm st) with rob := (c.strm st).rob ++ [r] } with
        vec := if st = .v then { c.vec with slot := c.vec.slot + 1 } else c.vec } := by
  unfold Ctx.issueWith
  rw [hgo]
  cases st <;> simp [Ctx.setStrm]

theorem Ctx.issueWith_strm (c : Ctx) (st : Strm) (r : Rob) (go : StreamSt → StreamSt) (hgo : KeepsRob go) :
    (c.issueWith st r go).strm st = { go (c.strm st) with rob := (c.strm st).rob ++ [r] } := by
  rw [Ctx.issueWith_eq c st r go hgo]; cases st <;> rfl

theorem Ctx.issueWith_tok (c : Ctx) (st : Strm) (r : Rob) (go : StreamSt → StreamSt) : (c.issueWith st r go).tok = c.tok := by
  unfold Ctx.issueWith
  by_cases h : st = .v <;> simp [h]

/-- What can retire of a list that ends in a new instruction without an effect of its own. -/
theorem retireList_issue (st : Strm) (c : Ctx) (rob : List Rob) (r : Rob) (he : r.err = 0) (hf : r.eff = [])
    (h : match rob with | [] => True | q :: _ => q.done = false ∨ q.err ≠ 0 ∨ pushTokens c.tok (pushKeys st q.push) = none) :
    (r.done = true ∧ rob = [] ∧ ∃ tok, pushTokens c.tok (pushKeys st r.push) = some tok ∧ retireList st c (rob ++ [r]) = ({ c with tok := tok }, [])) ∨
    retireList st c (rob ++ [r]) = (c, rob ++ [r]) := by
  cases rob with
  | cons q rest => exact .inr (retireList_blocked st c q _ h)
  | nil =>
    cases hd : r.done with
    | false => exact .inr (retireList_blocked st c r [] (.inl hd))
    | true =>
      rw [List.nil_append, retireList_one st c r hd he hf]
      cases hp : pushTokens c.tok (pushKeys st r.push) with
      | none => exact .inr rfl
      | some tok => exact .inl ⟨rfl, rfl, tok, rfl, rfl⟩

theorem Ctx.retire_issue (c : Ctx) (st : Strm) (r : Rob) (go : StreamSt → StreamSt) (hgo : KeepsRob go) (he : r.err = 0) (hf : r.eff = [])
    (h : match (c.strm st).rob with | [] => True | q :: _ => q.done = false ∨ q.err ≠ 0 ∨ pushTokens c.tok (pushKeys st q.push) = none) :
    ∃ tok rob, (c.issueWith st r go).retire st =
        { c.setStrm st { go (c.strm st) with rob := rob } with
          tok := tok, vec := if st = .v then { c.vec with slot := c.vec.slot + 1 } else c.vec } ∧
      ((r.done = true ∧ (c.strm st).rob = [] ∧ rob = [] ∧ pushTokens c.tok (pushKeys st r.push) = some tok) ∨
        (tok = c.tok ∧ rob = (c.strm st).rob ++ [r])) := by
  have hq := retireList_issue st (c.issueWith st r go) (c.strm st).rob r he hf (by rw [Ctx.issueWith_tok]; exact h)
  rw [Ctx.issueWith_tok] at hq
  obtain ⟨hd, h0, tok, hp, hr⟩ | hr := hq
  · refine ⟨tok, [], ?_, .inl ⟨hd, h0, rfl, hp⟩⟩
    rw [Ctx.retire_eq, Ctx.issueWith_strm c st r go hgo, hr, Ctx.issueWith_eq c st r go hgo]
    cases st <;> rfl
  · refine ⟨c.tok, _, ?_, .inr ⟨rfl, rfl⟩⟩
    rw [Ctx.retire_eq, Ctx.issueWith_strm c st r go hgo, hr, Ctx.issueWith_eq c st r go hgo]
    cases st <;> rfl

/-- A state whose executing context is what issuing with `go` leaves of what `f` makes of it, and which is as before elsewhere: what every
instruction that ends in an issue comes to. -/
theorem State.issues_of (s t : State) (id : Nat) (done : Bool) (it : Option Nat) (go : StreamSt → StreamSt) (f : Ctx → Ctx) (hgo : KeepsRob go) (hs : s.settled)
    (hrob : ((f s.here).strm s.cur.st).rob = s.me.rob) (htok : (f s.here).tok = s.here.tok)
    (ht : t = { s with ctxs := t.ctxs, ord := { s.ord with nextId := t.ord.nextId } })
    (hj : ∀ j, j ≠ s.cur.ctx → t.ctx j = s.ctx j)
    (hk : t.here = { ((f s.here).issueWith s.cur.st ⟨id, done, s.me.pushes, s.cur.pc, 0, [], it⟩ go).retire s.cur.st with
      idleFrom := (s.cycle (dieOf s.cur.ctx)).toNat }) :
    s.issues t done go f := by
  have hcur : t.cur = s.cur := by rw [ht]
  obtain ⟨tok, rob, hc, hq⟩ := Ctx.retire_issue (f s.here) s.cur.st ⟨id, done, s.me.pushes, s.cur.pc, 0, [], it⟩ go hgo rfl rfl
    (by rw [hrob, htok]; exact hs)
  rw [hc] at hk
  rw [hrob, htok] at hq
  have hme : t.me = { go ((f s.here).strm s.cur.st) with rob := rob } := by
    have : t.me = t.here.strm s.cur.st := by rw [State.me, State.strm, State.here, hcur]
    rw [this, hk]; cases s.cur.st <;> rfl
  refine ⟨⟨ht, hj⟩, ?_, ?_, ?_, ?_⟩
  · rw [ht]; exact ⟨fun _ => rfl, fun _ => rfl, fun _ => rfl, fun _ _ => rfl, fun _ => rfl⟩
  · rw [hme]
  · unfold State.entered
    rw [hme, hk]
    obtain ⟨hd, h0, hr, hp⟩ | ⟨ht, hr⟩ := hq
    · exact .inl ⟨hd, h0, hr, hp⟩
    · exact .inr ⟨ht, _, hr, rfl, rfl, rfl, rfl⟩
  · rw [hme, hk]

/-- The shared end of an issue, with what it makes of the executing context spelled out. -/
theorem State.issuedEff_here (s : State) (id : Nat) (done : Bool) (eff : List RetEff) :
    (s.issuedEff id done eff).here =
      { (s.here.issueWith s.cur.st ⟨id, done, s.me.pushes, s.cur.pc, 0, eff,
        if s.cur.st = .v then s.me.rpt.map Rpt.iter else none⟩ fun x => x.advance s.cur.next).retire s.cur.st with
        idleFrom := (s.cycle (dieOf s.cur.ctx)).toNat } := by
  unfold State.issuedEff
  rw [State.here_upHere]
  rfl

/-- A transfer, with what it makes of the executing context spelled out. -/
theorem State.transfer_here (s : State) (a : Nat) :
    (s.transfer a).here =
      { (s.here.issueWith s.cur.st ⟨s.ord.nextId, true, s.me.pushes, s.cur.pc, 0, [], none⟩ fun x => x.leave (keepBlocks x.blocks a) a).retire
          s.cur.st with
        idleFrom := (s.cycle (dieOf s.cur.ctx)).toNat } := by
  unfold State.transfer
  rw [State.here_upHere]
  rfl

/-- An instruction that has changed its context by `f` in state `u` and issues passes with `f` as its effect. -/
theorem State.issued_passes (s u : State) (id : Nat) (done : Bool) (f : Ctx → Ctx) (hs : s.settled)
    (hrob : ((f s.here).strm s.cur.st).rob = s.me.rob) (hpush : ((f s.here).strm s.cur.st).pushes = s.me.pushes)
    (htok : (f s.here).tok = s.here.tok)
    (hu : u = { s with ctxs := u.ctxs, ord := { s.ord with nextId := u.ord.nextId } })
    (huc : ∀ j, u.ctx j = if j = s.cur.ctx then f s.here else s.ctx j) :
    s.passes (u.issued id done) done f := by
  have hcur : u.cur = s.cur := by rw [hu]
  have hhere : u.here = f s.here := by rw [State.here, hcur, huc]; simp
  have hme : u.me = (f s.here).strm s.cur.st := by
    have : u.me = u.here.strm s.cur.st := by rw [State.me, State.strm, State.here, hcur]
    rw [this, hhere]
  have hcyc : u.cycle (dieOf s.cur.ctx) = s.cycle (dieOf s.cur.ctx) := by rw [hu]; rfl
  have hT := State.issuedEff_here u id done []
  rw [hhere, hme, hpush, hcur, hcyc] at hT
  refine State.issues_of s _ id done _ _ f (keepsRob_advance _) hs hrob htok ?_ ?_ hT
  · rw [hu]; rfl
  · intro j hj
    simp [State.issued, State.issuedEff, State.upHere, hcur, huc, hj]

/-- An instruction that changes its context by `f` and finishes passes with `f` as its effect. -/
theorem State.finish_passes (s : State) (f : Ctx → Ctx) (hs : s.settled)
    (hstrm : (f s.here).strm s.cur.st = s.me) (htok : (f s.here).tok = s.here.tok) :
    s.passes (s.upHere f).finish true f :=
  State.issued_passes s _ _ true f hs (by rw [hstrm]) (by rw [hstrm]) htok rfl fun j => State.ctx_upCtx s s.cur.ctx j f

/-- An instruction that finishes with no effect of its own passes. -/
theorem State.finish_passes_id (s : State) (hs : s.settled) : s.passes s.finish true id :=
  State.issued_passes s s.freshId _ true id hs rfl rfl rfl rfl fun j => by
    by_cases h : j = s.cur.ctx <;> simp [h, State.ctx, State.here, State.freshId]

theorem Ctx.withAccs_strm (c : Ctx) (st : Strm) (dest : Option Nat) (id : Nat) (as_ : List Access) :
    (c.withAccs st dest id as_).strm st = { c.strm st with cq := (c.strm st).cq ++ as_ } := by
  cases dest <;> cases st <;> rfl

/-- Accesses that enter the class queues of the executing stream, with the register that waits for them. -/
theorem State.issueAccs_passes (s u : State) (dest : Option Nat) (as_ : List Access) (hs : s.settled)
    (hu : u = { s with ctxs := u.ctxs }) (hh : ∀ j, u.ctx j = if j = s.cur.ctx then s.here.pendDest dest s.ord.nextId else s.ctx j) :
    s.passes (u.issueAccs as_) false fun c => c.withAccs s.cur.st dest s.ord.nextId as_ := by
  have hc : u.cur = s.cur := by rw [hu]
  have ho : u.ord = s.ord := by rw [hu]
  unfold State.issueAccs
  rw [hc, ho]
  refine State.issued_passes s _ _ false _ hs (by rw [Ctx.withAccs_strm]; rfl) (by rw [Ctx.withAccs_strm]; rfl) ?_ ?_ ?_
  · cases dest <;> simp [Ctx.withAccs, Ctx.pendDest]
  · rw [hu]; rfl
  · intro j
    have : (u.pushAccs s.cur.ctx s.cur.st as_).freshId.ctx j = (u.pushAccs s.cur.ctx s.cur.st as_).ctx j := rfl
    rw [this]
    unfold State.pushAccs State.upStrm
    rw [State.ctx_upCtx, hh, hh]
    by_cases h : j = s.cur.ctx <;> simp [h, Ctx.withAccs]

/-- An instruction that has changed its context by `f` in state `u` and transfers control goes to the target. -/
theorem State.transfer_goesTo (s u : State) (a : Nat) (f : Ctx → Ctx) (hs : s.settled)
    (hrob : ((f s.here).strm s.cur.st).rob = s.me.rob) (hpush : ((f s.here).strm s.cur.st).pushes = s.me.pushes)
    (htok : (f s.here).tok = s.here.tok)
    (hu : u = { s with ctxs := u.ctxs, ord := { s.ord with nextId := u.ord.nextId } })
    (huc : ∀ j, u.ctx j = if j = s.cur.ctx then f s.here else s.ctx j) :
    s.goesTo (u.transfer a) a f := by
  have hcur : u.cur = s.cur := by rw [hu]
  have hhere : u.here = f s.here := by rw [State.here, hcur, huc]; simp
  have hme : u.me = (f s.here).strm s.cur.st := by
    have : u.me = u.here.strm s.cur.st := by rw [State.me, State.strm, State.here, hcur]
    rw [this, hhere]
  have hcyc : u.cycle (dieOf s.cur.ctx) = s.cycle (dieOf s.cur.ctx) := by rw [hu]; rfl
  have hT := State.transfer_here u a
  rw [hhere, hme, hpush, hcur, hcyc] at hT
  refine State.issues_of s _ _ true _ _ f (keepsRob_leave a) hs hrob htok ?_ ?_ hT
  · rw [hu]; rfl
  · intro j hj
    have : (u.freshId).ctx j = u.ctx j := rfl
    simp [State.transfer, State.upHere, hcur, this, huc, hj]

/-- A precise fault of a cause other than a translation fault, with nothing unretired before it and no record VALID, is taken. -/
theorem State.fault_faults (s : State) (f : FaultRec) (h : s.mayFault) (hc : f.cause ≠ cXLATE) : s.faults (s.fault f) f := by
  obtain ⟨h0, hv⟩ := h
  have he : ∃ cp sp, s.fault f = s.upHere fun c =>
      ({ c with frec := c.frec.set (strmIx s.cur.st) { f with valid := true, since := s.now, st := s.cur.st, pc := s.cur.pc, cpos := cp, spos := sp } } : Ctx).upStrm
        s.cur.st fun x => { x with faulted := true } := by
    refine ⟨match s.me.rpt with | some r => if s.cur.st = .v && decide (f.cause ≠ cBOUND) then r.iter else f.cpos | none => f.cpos,
      Nat.max (match s.me.rpt with | some r => if s.cur.st = .v && decide (f.cause ≠ cBOUND) then r.iter else f.cpos | none => f.cpos) f.spos, ?_⟩
    simp only [State.fault, h0, List.isEmpty_nil, if_true, State.takeFault, State.takeXlate, hc, ne_eq, not_false_eq_true]
    simp only [State.upHere, State.upCtx]
    have hnv : ¬ ((s.ctx s.cur.ctx).frec.get (strmIx s.cur.st) {}).valid = true := by
      show ¬ (s.here.frec.get (strmIx s.cur.st) {}).valid = true
      simp [hv]
    (rw [if_neg hnv]) <;> rfl
  obtain ⟨cp, sp, he⟩ := he
  rw [he]
  refine ⟨⟨rfl, ?_⟩, ?_, ?_, ?_, ?_, ?_⟩
  · intro j hj; simp [State.upHere, hj]
  · exact ⟨fun _ => rfl, fun _ => rfl, fun _ => rfl, fun _ _ => rfl, fun _ => rfl⟩
  · rw [State.here_upHere]
    simp only [Ctx.upStrm_frec, AMap.get_set_same, true_and]
  · rw [State.me_eq, State.me_eq, State.here_upHere]
    show Ctx.strm (Ctx.upStrm _ s.cur.st _) s.cur.st = _
    cases s.cur.st <;> rfl
  · rw [State.me_eq, State.here_upHere]
    rw [show (s.upHere _).cur = s.cur from rfl]
    generalize s.cur.st = st
    cases st <;> rfl
  · intro n hn; rw [State.here_upHere]; simp [AMap.get_set_other _ _ _ _ _ hn]

end Sys2Proof.Machine
end

