-- ==== Sys2Proof/Laws/Memory.lean ====
section
/-!
SUPPORT. Sys2Proof/Laws/Memory.lean: every memory operation keeps the canonical form, a read after a write gives what was written, and
every other byte is as before.
-/

namespace Sys2Proof.Machine

/-! ### One byte -/

theorem memWfFrom_mono (d : Byte) (m : Memory) (lo lo' : Nat) (h : lo' ≤ lo) (w : memWfFrom d lo m = true) : memWfFrom d lo' m = true := by
  cases m with
  | nil => rfl
  | cons c rest =>
    simp only [memWfFrom, Bool.and_eq_true, decide_eq_true_eq] at w ⊢
    exact ⟨⟨Nat.le_trans h w.1.1, w.1.2⟩, w.2⟩

theorem memGet_below (d : Byte) (m : Memory) (lo a : Nat) (w : memWfFrom d lo m = true) (h : a < lo) : memGet d m a = d := by
  induction m generalizing lo with
  | nil => rfl
  | cons c rest ih =>
    simp only [memWfFrom, Bool.and_eq_true, decide_eq_true_eq] at w
    rw [memGet, if_neg (by omega)]
    exact ih _ w.2 (by omega)

theorem memPut_wfFrom (d : Byte) (m : Memory) (lo a : Nat) (v : Byte) (h : lo ≤ a) (w : memWfFrom d lo m = true) :
    memWfFrom d lo (memPut d m a v) = true := by
  induction m generalizing lo with
  | nil => by_cases hv : v = d <;> simp [memPut, memWfFrom, hv, h]
  | cons c rest ih =>
    obtain ⟨b, x⟩ := c
    simp only [memWfFrom, Bool.and_eq_true, decide_eq_true_eq] at w
    obtain ⟨⟨hb, hx⟩, hr⟩ := w
    unfold memPut
    by_cases h1 : a < b
    · by_cases hv : v = d
      · simp [h1, hv, memWfFrom, hb, hx, hr]
      · simp [h1, hv, memWfFrom, h, hx, hr] <;> omega
    · by_cases h2 : a = b
      · subst h2
        by_cases hv : v = d
        · simpa [hv] using memWfFrom_mono d rest _ _ (by omega) hr
        · simp [hv, memWfFrom, h, hr]
      · simp only [h1, h2, if_false, memWfFrom, Bool.and_eq_true, decide_eq_true_eq]
        exact ⟨⟨hb, hx⟩, ih _ (by omega) hr⟩

/-- A write of one byte keeps the canonical form. -/
theorem memPut_wf (d : Byte) (m : Memory) (a : Nat) (v : Byte) (w : Memory.wf d m = true) : Memory.wf d (memPut d m a v) = true :=
  memPut_wfFrom d m 0 a v (Nat.zero_le _) w

theorem memGet_memPut_from (d : Byte) (m : Memory) (lo a b : Nat) (v : Byte) (w : memWfFrom d lo m = true) :
    memGet d (memPut d m a v) b = if b = a then v else memGet d m b := by
  induction m generalizing lo with
  | nil =>
    by_cases hv : v = d <;> by_cases hb : b = a <;> simp [memPut, memGet, hv, hb]
  | cons c rest ih =>
    obtain ⟨x, y⟩ := c
    simp only [memWfFrom, Bool.and_eq_true, decide_eq_true_eq] at w
    have below : ∀ n, n ≤ x → memGet d rest n = d := fun n h => memGet_below d rest _ n w.2 (by omega)
    unfold memPut
    by_cases h1 : a < x
    · rw [if_pos h1]
      by_cases hv : v = d
      · rw [if_pos hv]
        by_cases hb : b = a
        · subst hb; simp [memGet, Nat.ne_of_lt h1, below b (by omega), hv]
        · simp [hb]
      · simp [hv, memGet]
    · rw [if_neg h1]
      by_cases h2 : a = x
      · subst h2
        by_cases hv : v = d
        · by_cases hb : b = a <;> simp [hv, memGet, hb, below]
        · by_cases hb : b = a <;> simp [hv, memGet, hb]
      · rw [if_neg h2]
        by_cases hb : b = x
        · subst hb; simp [memGet, Ne.symm h2]
        · simp [memGet, hb, ih _ w.2]

/-- Reading a byte after writing one: the byte written, or what was there. -/
theorem memGet_memPut (d : Byte) (m : Memory) (a b : Nat) (v : Byte) (w : Memory.wf d m = true) :
    memGet d (memPut d m a v) b = if b = a then v else memGet d m b := memGet_memPut_from d m 0 a b v w

/-- Equal memories are equal data: two memories in the form that read alike at every address are the same list. -/
theorem memory_ext (d : Byte) (m n : Memory) (lo : Nat) (wm : memWfFrom d lo m = true) (wn : memWfFrom d lo n = true)
    (h : ∀ a, memGet d m a = memGet d n a) : m = n := by
  induction m generalizing lo n with
  | nil =>
    cases n with
    | nil => rfl
    | cons c rest =>
      simp only [memWfFrom, Bool.and_eq_true, decide_eq_true_eq] at wn
      have := h c.1
      simp only [memGet, if_true] at this
      exact absurd this.symm wn.1.2
  | cons c rest ih =>
    obtain ⟨x, y⟩ := c
    have wm' := wm
    simp only [memWfFrom, Bool.and_eq_true, decide_eq_true_eq] at wm
    cases n with
    | nil =>
      have := h x
      simp only [memGet, if_true] at this
      exact absurd this wm.1.2
    | cons e more =>
      obtain ⟨x', y'⟩ := e
      have wn' := wn
      simp only [memWfFrom, Bool.and_eq_true, decide_eq_true_eq] at wn
      have hx : x = x' := by
        refine Nat.le_antisymm (Nat.le_of_not_lt fun hl => ?_) (Nat.le_of_not_lt fun hl => ?_)
        · have := h x'
          rw [memGet_below d ((x, y) :: rest) x x' (by simpa [memWfFrom] using ⟨wm.1.2, wm.2⟩) hl] at this
          simp only [memGet, if_true] at this
          exact wn.1.2 this.symm
        · have := h x
          rw [memGet_below d ((x', y') :: more) x' x (by simpa [memWfFrom] using ⟨wn.1.2, wn.2⟩) hl] at this
          simp only [memGet, if_true] at this
          exact wm.1.2 this
      subst hx
      have hy : y = y' := by simpa [memGet] using h x
      subst hy
      refine congrArg _ (ih more (x + 1) wm.2 wn.2 fun a => ?_)
      by_cases ha : a = x
      · subst ha
        rw [memGet_below d rest _ a wm.2 (by omega), memGet_below d more _ a wn.2 (by omega)]
      · simpa [memGet, ha] using h a

/-! ### Several bytes -/

/-- Writing bytes keeps the canonical form. -/
theorem memPutList_wf (d : Byte) (m : Memory) (a : Nat) (bs : List Byte) (w : Memory.wf d m = true) : Memory.wf d (memPutList d m a bs) = true := by
  induction bs generalizing m a with
  | nil => exact w
  | cons b rest ih => exact ih _ _ (memPut_wf d m a b w)

/-- Reading a byte after writing bytes: the byte written there, or what was there. -/
theorem memGet_memPutList (d : Byte) (m : Memory) (a b : Nat) (bs : List Byte) (w : Memory.wf d m = true) :
    memGet d (memPutList d m a bs) b = if a ≤ b ∧ b < a + bs.length then bs.getD (b - a) d else memGet d m b := by
  induction bs generalizing m a with
  | nil => simp only [memPutList, List.length_nil]; rw [if_neg (by omega)]
  | cons v rest ih =>
    rw [memPutList, ih _ _ (memPut_wf d m a v w), memGet_memPut d m a b v w]
    simp only [List.length_cons]
    by_cases h : b = a
    · subst h
      rw [if_neg (by omega), if_pos rfl, if_pos (by omega), Nat.sub_self]; rfl
    · rw [if_neg h]
      by_cases h2 : a + 1 ≤ b ∧ b < a + 1 + rest.length
      · rw [if_pos h2, if_pos (by omega)]
        have : b - a = (b - (a + 1)) + 1 := by omega
        rw [this]; rfl
      · rw [if_neg h2, if_neg (by omega)]

/-- Writing (address, byte) pairs one by one keeps the canonical form. -/
theorem foldPut_wf {α : Type} (d : Byte) (f : α → Nat) (g : α → Byte) (l : List α) (m : Memory) (w : Memory.wf d m = true) :
    Memory.wf d (l.foldl (fun m x => memPut d m (f x) (g x)) m) = true := by
  induction l generalizing m with
  | nil => exact w
  | cons x rest ih => exact ih _ (memPut_wf d m _ _ w)

/-- Leaving out entries keeps the canonical form. -/
theorem filter_wfFrom (d : Byte) (p : Host.Cell → Bool) (m : Memory) (lo : Nat) (w : memWfFrom d lo m = true) : memWfFrom d lo (m.filter p) = true := by
  induction m generalizing lo with
  | nil => rfl
  | cons c rest ih =>
    simp only [memWfFrom, Bool.and_eq_true, decide_eq_true_eq] at w
    rw [List.filter_cons]
    cases p c with
    | true => simp only [if_true, memWfFrom, Bool.and_eq_true, decide_eq_true_eq]; exact ⟨w.1, ih _ w.2⟩
    | false => exact memWfFrom_mono d _ _ _ (by omega) (ih _ w.2)

/-! ### The module's memories -/

theorem State.reset_memWf : State.reset.memWf := ⟨rfl, rfl, rfl⟩

theorem State.hbmRaw_memWf (s : State) (a : Nat) (bs : List Byte) (w : s.memWf) : (s.hbmRaw a bs).memWf :=
  ⟨memPutList_wf _ _ a bs w.1, w.2.1, w.2.2⟩

/-- Raw HBM bytes after they are stored. -/
theorem State.hbmRaw_byte (s : State) (a b : Nat) (bs : List Byte) (w : s.memWf) :
    (s.hbmRaw a bs).hbmByte b = if a ≤ b ∧ b < a + bs.length then bs.getD (b - a) Config.powerOnByte else s.hbmByte b :=
  memGet_memPutList _ _ a b bs w.1

theorem State.hostWrite_memWf (s : State) (a n v : Nat) (w : s.memWf) : (s.hostWrite a n v).memWf :=
  ⟨w.1, memPutList_wf _ _ a _ w.2.1, w.2.2⟩

/-- Host memory after a number is written. -/
theorem State.hostWrite_byte (s : State) (a b n v : Nat) (w : s.memWf) :
    (s.hostWrite a n v).hostByte b =
      if a ≤ b ∧ b < a + (bytesOf v n).length then (bytesOf v n).getD (b - a) Config.hostPowerOnByte else s.hostByte b :=
  memGet_memPutList _ _ a b _ w.2.1

theorem State.hbmRaws_memWf {α : Type} (f : α → Nat) (g : α → List Byte) (l : List α) (s : State) (w : s.memWf) :
    (l.foldl (fun s x => s.hbmRaw (f x) (g x)) s).memWf := by
  induction l generalizing s with
  | nil => exact w
  | cons x rest ih => exact ih _ (s.hbmRaw_memWf _ _ w)

theorem State.fillFrame_memWf (s : State) (addr : Nat) (cells : List Host.Cell) (w : s.memWf) : (s.fillFrame addr cells).memWf :=
  ⟨foldPut_wf _ (fun c : Host.Cell => addr + c.1 % 2 ^ 21) Prod.snd cells _ (filter_wfFrom _ _ _ _ w.1), w.2.1, w.2.2⟩

theorem State.copyFrame_memWf (s : State) (src dst : Nat) (w : s.memWf) : (s.copyFrame src dst).memWf :=
  s.fillFrame_memWf dst _ w

theorem State.plantHbm_memWf (s : State) (addr : Nat) (bs : List (Nat × Byte)) (c : BitVec 8) (w : s.memWf) : (s.plantHbm addr bs c).memWf := by
  cases bs with
  | nil => exact w
  | cons b rest => exact State.hbmRaws_memWf (fun b : Nat × Byte => addr + b.1 % 2 ^ 21) (fun b => [b.2]) (b :: rest) s w

/-- Only logs, history and write-backs change when an HBM word is read. -/
theorem State.hbmReadWord_memWf (s : State) (n : Nat) (w : s.memWf) : (s.hbmReadWord n).1.memWf := by
  unfold State.hbmReadWord
  split
  · exact w
  · simp only []
    split <;> exact w

theorem State.hbmWriteWord_memWf (s : State) (n : Nat) (bs : List (Nat × Byte)) (w : s.memWf) : (s.hbmWriteWord n bs).1.memWf := by
  unfold State.hbmWriteWord
  simp only []
  split
  · exact State.hbmRaws_memWf (fun ab : Nat × Byte => ab.1) (fun ab => [ab.2]) bs s w
  · split
    · exact State.hbmRaws_memWf (fun ab : Nat × Byte => ab.1) (fun ab => [ab.2]) bs s w
    · have hr := s.hbmReadWord_memWf n w
      split
      · exact hr
      · exact State.hbmRaws_memWf (fun ab : Nat × Byte => ab.1) (fun ab => [ab.2]) bs _ (State.hbmRaw_memWf _ _ _ hr)

theorem State.hbmWrite_memWf (s : State) (bs : List (Nat × Byte)) (w : s.memWf) : (s.hbmWrite bs).1.memWf := by
  unfold State.hbmWrite
  have : ∀ (l : List Nat) (r : State × Bool), r.1.memWf → (l.foldl (fun r n =>
      let (s', ok) := r.1.hbmWriteWord n (bs.filter fun ab => ab.1 / 8 == n)
      (s', r.2 && ok)) r).1.memWf := by
    intro l
    induction l with
    | nil => exact fun _ h => h
    | cons n rest ih => exact fun r h => ih _ (State.hbmWriteWord_memWf r.1 n _ h)
  exact this _ (s, true) w

theorem State.hbmReadWords_memWf (n : Nat) (s : State) (a : Nat) (w : s.memWf) : (s.hbmReadWords a n).1.memWf := by
  induction n generalizing s a with
  | zero => exact w
  | succ n ih =>
    have hr := s.hbmReadWord_memWf a w
    unfold State.hbmReadWords
    cases h : (s.hbmReadWord a).2 with
    | none => simp only [h]; exact hr
    | some d => simp only [h]; exact ih _ _ hr

/-- Reading HBM through its code keeps the memories. -/
theorem State.hbmRead_memWf (s : State) (a n : Nat) (w : s.memWf) : (s.hbmRead a n).1.memWf := State.hbmReadWords_memWf _ s _ w

theorem State.hostFill_memWf (s : State) (addr n : Nat) (cells : List Host.Cell) (w : s.memWf) : (s.hostFill addr n cells).memWf :=
  ⟨w.1, foldPut_wf _ (fun c : Host.Cell => addr + c.1) Prod.snd cells _ (filter_wfFrom _ _ _ _ w.2.1), w.2.2⟩

/-- Writing the shards and the manifest of a checkpoint keeps the memories. -/
theorem State.writeImage_memWf (s : State) (base vf : Nat) (xs : List Shard) (w : s.memWf) : (s.writeImage base vf xs).memWf := by
  have : ∀ (l : List (Nat × Shard)) (s : State), s.memWf → (l.foldl (fun s x => s.hostFill (base + x.1) x.2.len x.2.cells) s).memWf := by
    intro l
    induction l with
    | nil => exact fun _ h => h
    | cons x rest ih => exact fun s h => ih _ (s.hostFill_memWf _ _ _ h)
  exact State.hostFill_memWf _ _ _ _ (this _ s w)

/-- Writing a save area keeps the memories. -/
theorem State.writeArea_memWf (s : State) (n : Nat) (cells : List Host.Cell) (w : s.memWf) : (s.writeArea n cells).memWf :=
  State.hbmRaw_memWf _ _ _ (s.fillFrame_memWf _ cells w)

theorem State.setDv_memWf (s : State) (die loc : Nat) (b : DvByte) (w : s.memWf) : (s.setDv die loc b).memWf := w

/-- A codeword of any memory that is stored keeps the memories. -/
theorem State.putCodeword_memWf (s : State) (x : EccWord) (d k : Nat) (w : s.memWf) : (s.putCodeword x d k).memWf := by
  have cache : ∀ (l : List Nat) (die a : Nat) (s : State), s.memWf →
      (l.foldl (fun s i => s.setDv die (4 * a + i) { s.dvByte die (4 * a + i) with val := byteOf d i }) s).memWf := by
    intro l die a
    induction l with
    | nil => exact fun _ h => h
    | cons i rest ih => exact fun s h => ih _ (s.setDv_memWf _ _ _ h)
  unfold State.putCodeword
  split
  · exact s.hbmRaw_memWf _ _ w
  · rename_i die a; exact cache (List.range 4) die a s w
  · split <;> exact w
  · exact w

/-- A scrub's or write-back's correction keeps the memories, and so does a flip from outside. -/
theorem State.fixWord_memWf (s : State) (x : EccWord) (w : s.memWf) : (s.fixWord x).memWf := by
  unfold State.fixWord
  split
  · exact s.putCodeword_memWf x _ _ w
  · exact w

theorem State.flipWord_memWf (s : State) (x : EccWord) (flip : Nat) (w : s.memWf) : (s.flipWord x flip).memWf :=
  s.putCodeword_memWf x _ _ w

end Sys2Proof.Machine
end

