-- ==== Sys2Proof/Tests/Bench.lean ====
section
/-!
SUPPORT. Sys2Proof/Tests/Bench.lean: the small states that the witnesses and tests of this folder start from.
-/

namespace Sys2Proof.Tests

open Sys2Proof Sys2Proof.Machine

/-- Context 0 at a boundary of one stream at address 64, page 0 mapped onto frame 0 of memory die 0, its three engines its own. -/
def bench (st : Strm) : State :=
  let s := State.reset.mapPage0
  let s := s.setCtx 0 (({} : Ctx).atWord st false)
  { s with
    cur := ⟨0, st, 64, 66⟩
    mem := { s.mem with stage2 := s.mem.stage2.set 0 0x80000000 }
    pf := { s.pf with own := [(0, 0x40000000), (1, 0x40000000), (2, 0x40000000)] } }

/-- The same with g registers. -/
def benchG (gs : List (Nat × Word)) : State := (bench .c).upHere fun c => { c with g := gs }

/-- The partition of the bench has the privilege. -/
def asPriv (s : State) : State := { s with pf := { s.pf with pctl := s.pf.pctl.set 0 { w0 := 0x20000000 } } }

/-- The grid point of the bench is of class 2. -/
def asClass2 (s : State) : State := s.upHere fun c => { c with team := { c.team with pclass := 2 } }

/-- One unretired instruction. -/
def oneRob : Rob := ⟨7, false, 0, 60, 0, [], none⟩

end Sys2Proof.Tests
end

