-- ==== Sys2Proof/Tests/Slice0.lean ====
section
/-!
SUPPORT. Sys2Proof/Tests/Slice0.lean: decoding of a word of every constructor, written out from the encoding tables of 13_encoding.md field by
field; the words that the spec itself writes out; ill-formed terms and reserved words; and the spec's worked examples.
-/

namespace Sys2Proof.Tests

set_option Elab.async false

open Sys2Proof Sys2Proof.Machine

/-- The word decodes to the instruction, with nothing left, and the instruction encodes to the word and is well formed. -/
def reads (st : Strm) (bytes w : Nat) (i : Instr) : Bool :=
  (match decode st (bytesOf w bytes) with
    | .ok (j, r) => j == i && r == []
    | .error _ => false) && encode i == bytesOf w bytes && i.wf st

/-- A row of a test table: stream, bytes, word, instruction. -/
abbrev Row := Strm × Nat × Nat × Instr

/-- Every row decodes and encodes. -/
def readAll (rows : List Row) : Bool := rows.all fun r => reads r.1 r.2.1 r.2.2.1 r.2.2.2

/-! ### A word for every constructor -/

/-- Tables 13-4 and 13-7: words of 16 bits of every stream. -/
theorem test_decode_common16 : readAll [
    (.m, 2, 0xFFC0, .wait 2046),
    (.c, 2, 0x0002, .endS),
    (.y, 2, 0x1BA2, .brk 93),
    (.c, 2, 0x2002, .eret),
    (.c, 2, 0x3002, .halt),
    (.c, 2, 0x4002, .rdv),
    (.c, 2, 0x5002, .ret),
    (.v, 2, 0x80A6, .svc 1029),
    (.v, 2, 0x0AA4, .syncPrefix 0 2 true 2 true)] = true := by decide +kernel

/-- Tables 13-3, 13-6 and 13-8: words of 32 bits of every stream. -/
theorem test_decode_common32 : readAll [
    (.m, 4, 0x00180141, .blk 6 5),
    (.c, 4, 0xFFFFFD83, .br (-5)),
    (.c, 4, 0xFFFFD6C3, .bg 5 true (-6)),
    (.c, 4, 0x0024CE07, .csrr 7 0x93),
    (.m, 4, 0x00A05E47, .csrw 0x281 15),
    (.v, 4, 0xA5604087, .csrwi 0x181 0xA5),
    (.y, 4, 0x000000C7, .sigc),
    (.c, 4, 0x00314907, .dstc 4 5 6),
    (.c, 4, 0x01314907, .dstcSram 4 5 6),
    (.c, 4, 0x00196945, .rpt true 9 6 37)] = true := by decide +kernel

/-- R292: words of 16 bits of the control stream. -/
theorem test_decode_control16 : readAll [
    (.c, 2, 0x0168, .gsetImm 3 true),
    (.c, 2, 0x0248, .gclr 2),
    (.c, 2, 0x248A, .mov 4 9)] = true := by decide +kernel

/-- Tables 13-9 and 13-10: the control ALU. -/
theorem test_decode_alu : readAll [
    (.c, 4, 0x0003F449, .add 17 30 3),
    (.c, 4, 0x0023F449, .sub 17 30 3),
    (.c, 4, 0x0043F449, .and 17 30 3),
    (.c, 4, 0x0063F449, .or 17 30 3),
    (.c, 4, 0x0083F449, .xor 17 30 3),
    (.c, 4, 0x00A3F449, .shl 17 30 3),
    (.c, 4, 0x00C3F449, .shr 17 30 3),
    (.c, 4, 0x00E3F449, .sar 17 30 3),
    (.c, 4, 0x0103F449, .mul 17 30 3),
    (.c, 4, 0x0123F449, .mulh 17 30 3),
    (.c, 4, 0x0143F449, .mulhu 17 30 3),
    (.c, 4, 0x0163F449, .div 17 30 3),
    (.c, 4, 0x0183F449, .divu 17 30 3),
    (.c, 4, 0x01A3F449, .rem 17 30 3),
    (.c, 4, 0x01C3F449, .remu 17 30 3),
    (.c, 4, 0x01E3F449, .min 17 30 3),
    (.c, 4, 0x0203F449, .max 17 30 3),
    (.c, 4, 0x0223F449, .minu 17 30 3),
    (.c, 4, 0x0243F449, .maxu 17 30 3),
    (.c, 4, 0x0263F449, .slt 17 30 3),
    (.c, 4, 0x0283F449, .sltu 17 30 3),
    (.c, 4, 0x02A3F449, .seq 17 30 3),
    (.c, 4, 0x02C3F449, .sne 17 30 3),
    (.c, 4, 0x02E3F449, .sel 17 30 3)] = true := by decide +kernel

/-- Table 13-9, majors 5 to 11. -/
theorem test_decode_controlImm : readAll [
    (.c, 4, 0xFFFEF44B, .addi 17 30 (-2)),
    (.c, 4, 0x8000F44D, .slti 17 30 (-32768)),
    (.c, 4, 0xFFFEF44F, .andi 17 30 0xFFFE),
    (.c, 4, 0x8001F451, .ori 17 30 0x8001),
    (.c, 4, 0x1234F453, .xori 17 30 0x1234),
    (.c, 4, 0x0031F455, .shli 17 30 49),
    (.c, 4, 0x0071F455, .shri 17 30 49),
    (.c, 4, 0x00B1F455, .sari 17 30 49),
    (.c, 4, 0x340010D7, .li 3 0x3400 2),
    (.c, 4, 0x340030D7, .lik 3 0x3400 2)] = true := by decide +kernel

/-- Table 13-9, majors 12 to 20. -/
theorem test_decode_controlMem : readAll [
    (.c, 4, 0xFEE9F459, .ld 17 30 (-3) true 2 9),
    (.c, 4, 0x00F3215B, .st 4 5 1 true 3 3),
    (.c, 4, 0x0359F45D, .ldAcq 17 30 3 true 1 9),
    (.c, 4, 0x03D9F45D, .stRel 30 17 3 true 1 9),
    (.c, 4, 0x7125F45F, .amoadd 17 30 5 3 2 9),
    (.c, 4, 0x7325F45F, .amoand 17 30 5 3 2 9),
    (.c, 4, 0x7525F45F, .amoor 17 30 5 3 2 9),
    (.c, 4, 0x7725F45F, .amoxor 17 30 5 3 2 9),
    (.c, 4, 0x7125F461, .amomin 17 30 5 3 2 9),
    (.c, 4, 0x7325F461, .amomax 17 30 5 3 2 9),
    (.c, 4, 0x7525F461, .amoswp 17 30 5 3 2 9),
    (.c, 4, 0x7725F461, .cas 17 30 5 3 2 9),
    (.c, 4, 0x0525F023, .wadd 30 5 true 9),
    (.c, 4, 0x0320F463, .cread 17 30 false 9),
    (.c, 4, 0x00C00225, .fence 3 8),
    (.c, 4, 0x0479F127, .spill 4 30 7 true 9),
    (.c, 4, 0x0279F127, .fill 4 30 7 9),
    (.c, 4, 0xFFE9F029, .pf 30 (-2) 9)] = true := by decide +kernel

/-- Table 13-9, majors 21 to 24. -/
theorem test_decode_controlFlow : readAll [
    (.c, 4, 0xFFFF946B, .bz 17 (-7)),
    (.c, 4, 0x00007C6B, .bnz 17 7),
    (.c, 4, 0xFFFFFDED, .call (-9)),
    (.c, 4, 0x000418AF, .jt 2 3 4),
    (.c, 12, 0x00000009FFFFFFFE00000171, .fork 5 (-2) 0 9)] = true := by decide +kernel

/-- Table 13-9, majors 25 to 29. -/
theorem test_decode_controlTile : readAll [
    (.c, 4, 0x003111B3, .talloc 70 2 3),
    (.c, 4, 0x00007233, .tfree 200),
    (.c, 4, 0x090222F5, .dld 11 17 9),
    (.c, 4, 0x003A26F5, .dset 11 17 14),
    (.c, 4, 0x00362AF5, .dget 17 11 13),
    (.c, 4, 0x09822EF5, .dst 17 11 true 9),
    (.c, 4, 0x00002377, .gsetReg 17 5),
    (.c, 4, 0x00005479, .qdepth 17 1 false 2),
    (.c, 4, 0x0000047B, .tsig 17)] = true := by decide +kernel

/-- R293: words of 16 bits of the matrix stream. -/
theorem test_decode_matrix16 : readAll [
    (.m, 2, 0x00C8, .mzero 2 true),
    (.m, 2, 0x006A, .astc 3)] = true := by decide +kernel

/-- Table 13-11, majors 4 to 8. -/
theorem test_decode_matrix32 : readAll [
    (.m, 4, 0x19002BC9, .mma 3 11 2 true 9),
    (.m, 4, 0x29542BC9, .mmaRange 3 11 2 4 5 false 9),
    (.m, 4, 0x00667BCB, .mdrain 11 3 7 2 true 9),
    (.m, 4, 0x25A7C8CD, .mdraint 200 3 7 2 6 9),
    (.m, 4, 0x0097C8CF, .mld 3 200 7 9),
    (.m, 4, 0x00942BD1, .wq 3 11 2 4 9)] = true := by decide +kernel

/-- Table 13-11, majors 9 to 12, in both streams. -/
theorem test_decode_offsets : readAll [
    (.m, 4, 0x0000F153, .oadd 5 12 3),
    (.y, 4, 0x0004F153, .osub 5 12 3),
    (.m, 4, 0x0008F153, .omul 5 12 3),
    (.y, 4, 0x000CF153, .oand 5 12 3),
    (.m, 4, 0x0010F153, .oshl 5 12 3),
    (.y, 4, 0x0014F153, .oshr 5 12 3),
    (.m, 4, 0x0018F153, .omin 5 12 3),
    (.y, 4, 0x001CF153, .omax 5 12 3),
    (.y, 4, 0xFFFFB155, .oaddi 5 12 (-2)),
    (.m, 4, 0xFFFFF557, .oli 5 (-3)),
    (.y, 4, 0x0003B219, .qpop 200 6 1),
    (.m, 4, 0x0005B219, .qpush 200 6 0)] = true := by decide +kernel

/-- R294: words of 16 bits of the copy stream. -/
theorem test_decode_copy16 : readAll [
    (.y, 2, 0x09A8, .barm 9 5),
    (.y, 2, 0x10A8, .bwait 5)] = true := by decide +kernel

/-- Table 13-12. -/
theorem test_decode_copy32 : readAll [
    (.y, 4, 0x1B3AF209, .cpyTensorTile 200 11 6 true 5 9),
    (.y, 4, 0x3B3AF20B, .cpyTileTensor 11 200 6 true true 5 9),
    (.y, 4, 0x02138ECD, .cpyTensorTensor 11 3 6 true false 0 9),
    (.y, 4, 0x1381F20F, .cpyTileTile 200 7 6 9),
    (.y, 4, 0x01938ED1, .cpys 11 3 6 12 9),
    (.y, 4, 0x00013ADB, .cpf 11 6 9),
    (.y, 4, 0x00138EDD, .wld 11 3 6 9),
    (.y, 4, 0x03538EDF, .rput 11 3 6 true 5 9),
    (.y, 4, 0x00338EDF, .rget 11 3 6 false 0 9)] = true := by decide +kernel

/-- R295: the word of 16 bits of the vector stream. -/
theorem test_decode_vector16 : readAll [
    (.v, 2, 0x0028, .vmode true)] = true := by decide +kernel

/-- Table 13-13, majors 4 to 7. -/
theorem test_decode_vectorFp : readAll [
    (.v, 4, 0x04CA5E89, .vadd 58 ⟨2, 37⟩ ⟨1, 12⟩),
    (.v, 4, 0x14CA5E89, .vsub 58 ⟨2, 37⟩ ⟨1, 12⟩),
    (.v, 4, 0x24CA5E89, .vmul 58 ⟨2, 37⟩ ⟨1, 12⟩),
    (.v, 4, 0x34CA5E89, .vfma 58 ⟨2, 37⟩ ⟨1, 12⟩),
    (.v, 4, 0x44CA5E89, .vdiv 58 ⟨2, 37⟩ ⟨1, 12⟩),
    (.v, 4, 0x54CA5E89, .vmin 58 ⟨2, 37⟩ ⟨1, 12⟩),
    (.v, 4, 0x64CA5E89, .vmax 58 ⟨2, 37⟩ ⟨1, 12⟩),
    (.v, 4, 0x000A5E8B, .vrcp 58 ⟨2, 37⟩),
    (.v, 4, 0x001A5E8B, .vsqrt 58 ⟨2, 37⟩),
    (.v, 4, 0x002A5E8B, .vrsqrt 58 ⟨2, 37⟩),
    (.v, 4, 0x003A5E8B, .vexp2 58 ⟨2, 37⟩),
    (.v, 4, 0x004A5E8B, .vlog2 58 ⟨2, 37⟩),
    (.v, 4, 0x005A5E8B, .vsin 58 ⟨2, 37⟩),
    (.v, 4, 0x006A5E8B, .vcos 58 ⟨2, 37⟩),
    (.v, 4, 0x007A5E8B, .vtanh 58 ⟨2, 37⟩),
    (.v, 4, 0x008A5E8B, .vsigm 58 ⟨2, 37⟩),
    (.v, 4, 0x009A5E8B, .vneg 58 ⟨2, 37⟩),
    (.v, 4, 0x00AA5E8B, .vabs 58 ⟨2, 37⟩),
    (.v, 4, 0x04CA5E8D, .vaddF16 58 ⟨2, 37⟩ ⟨1, 12⟩),
    (.v, 4, 0x14CA5E8D, .vsubF16 58 ⟨2, 37⟩ ⟨1, 12⟩),
    (.v, 4, 0x24CA5E8D, .vmulF16 58 ⟨2, 37⟩ ⟨1, 12⟩),
    (.v, 4, 0x34CA5E8D, .vfmaF16 58 ⟨2, 37⟩ ⟨1, 12⟩),
    (.v, 4, 0x44CA5E8D, .vminF16 58 ⟨2, 37⟩ ⟨1, 12⟩),
    (.v, 4, 0x54CA5E8D, .vmaxF16 58 ⟨2, 37⟩ ⟨1, 12⟩),
    (.v, 4, 0x04CA5E8F, .vaddBf16 58 ⟨2, 37⟩ ⟨1, 12⟩),
    (.v, 4, 0x14CA5E8F, .vsubBf16 58 ⟨2, 37⟩ ⟨1, 12⟩),
    (.v, 4, 0x24CA5E8F, .vmulBf16 58 ⟨2, 37⟩ ⟨1, 12⟩),
    (.v, 4, 0x34CA5E8F, .vfmaBf16 58 ⟨2, 37⟩ ⟨1, 12⟩),
    (.v, 4, 0x44CA5E8F, .vminBf16 58 ⟨2, 37⟩ ⟨1, 12⟩),
    (.v, 4, 0x54CA5E8F, .vmaxBf16 58 ⟨2, 37⟩ ⟨1, 12⟩)] = true := by decide +kernel

/-- Table 13-13, majors 8 to 10. -/
theorem test_decode_vectorInt : readAll [
    (.v, 4, 0x04CA5E91, .viadd 58 ⟨2, 37⟩ ⟨1, 12⟩),
    (.v, 4, 0x14CA5E91, .visub 58 ⟨2, 37⟩ ⟨1, 12⟩),
    (.v, 4, 0x24CA5E91, .vimul 58 ⟨2, 37⟩ ⟨1, 12⟩),
    (.v, 4, 0x34CA5E91, .vimad 58 ⟨2, 37⟩ ⟨1, 12⟩),
    (.v, 4, 0x44CA5E91, .vand 58 ⟨2, 37⟩ ⟨1, 12⟩),
    (.v, 4, 0x54CA5E91, .vor 58 ⟨2, 37⟩ ⟨1, 12⟩),
    (.v, 4, 0x64CA5E91, .vxor 58 ⟨2, 37⟩ ⟨1, 12⟩),
    (.v, 4, 0x74CA5E91, .vshl 58 ⟨2, 37⟩ ⟨1, 12⟩),
    (.v, 4, 0x84CA5E91, .vshr 58 ⟨2, 37⟩ ⟨1, 12⟩),
    (.v, 4, 0x94CA5E91, .vsar 58 ⟨2, 37⟩ ⟨1, 12⟩),
    (.v, 4, 0xA4CA5E91, .vimin 58 ⟨2, 37⟩ ⟨1, 12⟩),
    (.v, 4, 0xB4CA5E91, .vimax 58 ⟨2, 37⟩ ⟨1, 12⟩),
    (.v, 4, 0xC4CA5E91, .viadds 58 ⟨2, 37⟩ ⟨1, 12⟩),
    (.v, 4, 0xD4CA5E91, .visubs 58 ⟨2, 37⟩ ⟨1, 12⟩),
    (.v, 4, 0xE4CA5E91, .vimulh 58 ⟨2, 37⟩ ⟨1, 12⟩),
    (.v, 4, 0x000A5E93, .vineg 58 ⟨2, 37⟩),
    (.v, 4, 0x001A5E93, .vnot 58 ⟨2, 37⟩),
    (.v, 4, 0x002A5E93, .viabs 58 ⟨2, 37⟩),
    (.v, 4, 0x04CA5E95, .vfeq 58 ⟨2, 37⟩ ⟨1, 12⟩),
    (.v, 4, 0x14CA5E95, .vfne 58 ⟨2, 37⟩ ⟨1, 12⟩),
    (.v, 4, 0x24CA5E95, .vflt 58 ⟨2, 37⟩ ⟨1, 12⟩),
    (.v, 4, 0x34CA5E95, .vfle 58 ⟨2, 37⟩ ⟨1, 12⟩),
    (.v, 4, 0x44CA5E95, .vfslt 58 ⟨2, 37⟩ ⟨1, 12⟩),
    (.v, 4, 0x54CA5E95, .vfsle 58 ⟨2, 37⟩ ⟨1, 12⟩),
    (.v, 4, 0x64CA5E95, .vfun 58 ⟨2, 37⟩ ⟨1, 12⟩),
    (.v, 4, 0x74CA5E95, .vieq 58 ⟨2, 37⟩ ⟨1, 12⟩),
    (.v, 4, 0x84CA5E95, .vilt 58 ⟨2, 37⟩ ⟨1, 12⟩),
    (.v, 4, 0x94CA5E95, .vile 58 ⟨2, 37⟩ ⟨1, 12⟩),
    (.v, 4, 0xA4CA5E95, .viltu 58 ⟨2, 37⟩ ⟨1, 12⟩),
    (.v, 4, 0xB4CA5E95, .vileu 58 ⟨2, 37⟩ ⟨1, 12⟩),
    (.v, 4, 0xC4CA5E95, .vsel 58 ⟨2, 37⟩ ⟨1, 12⟩)] = true := by decide +kernel

/-- Table 13-13, majors 11 and 12. -/
theorem test_decode_vectorConv : readAll [
    (.v, 4, 0x04BA5E97, .vcvt 58 ⟨2, 37⟩ false 4 11),
    (.v, 4, 0x084A5E99, .vpack 58 ⟨2, 37⟩ true 0 4),
    (.v, 4, 0xB32A5E99, .vpackCb4 58 ⟨2, 37⟩ 11 false 3),
    (.v, 4, 0x03925E99, .vunpack 58 ⟨0, 37⟩ false 3 1),
    (.v, 4, 0xB8A25E99, .vunpackCb4 58 ⟨0, 37⟩ 11 true 0)] = true := by decide +kernel

/-- Table 13-13, majors 13 to 15. -/
theorem test_decode_vectorMove : readAll [
    (.v, 4, 0x000A5E9B, .vrsum 58 ⟨2, 37⟩),
    (.v, 4, 0x001A5E9B, .vrmin 58 ⟨2, 37⟩),
    (.v, 4, 0x002A5E9B, .vrmax 58 ⟨2, 37⟩),
    (.v, 4, 0x003A5E9B, .virsum 58 ⟨2, 37⟩),
    (.v, 4, 0x004A5E9B, .virmin 58 ⟨2, 37⟩),
    (.v, 4, 0x005A5E9B, .virmax 58 ⟨2, 37⟩),
    (.v, 4, 0x056A501B, .vrany ⟨2, 37⟩ 5),
    (.v, 4, 0x057A501B, .vrall ⟨2, 37⟩ 5),
    (.v, 4, 0x000A5E9D, .vmov 58 ⟨2, 37⟩),
    (.v, 4, 0x001A5E9D, .vtrn 58 ⟨2, 37⟩),
    (.v, 4, 0x092A5E9D, .vbce 58 ⟨2, 37⟩ 9),
    (.v, 4, 0x09300E9D, .vbck 58 9),
    (.v, 4, 0x094A501D, .vext 9 ⟨2, 37⟩),
    (.v, 4, 0x000A5E9F, .jseed 58 ⟨2, 37⟩),
    (.v, 4, 0x001A5E9F, .jconst 58 ⟨2, 37⟩),
    (.v, 4, 0x004A5E9F, .jdiff 58 ⟨2, 37⟩),
    (.v, 4, 0x052A5E9F, .jget 58 ⟨2, 37⟩ 5),
    (.v, 4, 0x053A5E9F, .jput 58 ⟨2, 37⟩ 5)] = true := by decide +kernel

/-- Table 13-13, majors 16 to 23. -/
theorem test_decode_vectorMem : readAll [
    (.v, 4, 0x0093BEA1, .vld 58 11 3 9),
    (.v, 4, 0x0393BEA1, .vst 11 3 58 true 9),
    (.v, 4, 0x093C8EA3, .vtld 58 200 3 9),
    (.v, 4, 0x193C8EA3, .vtst 200 3 58 9),
    (.v, 4, 0x00001EA5, .vpop 58 1),
    (.v, 4, 0x00002EA5, .vpush 58 0),
    (.v, 4, 0x0004FBE7, .vshape 15 31 2),
    (.v, 4, 0x00401569, .psetImm 5 1025 2),
    (.v, 4, 0x00009B69, .psetK 5 9 1),
    (.v, 4, 0x0000F16B, .kadd 5 12 3),
    (.v, 4, 0x0004F16B, .ksub 5 12 3),
    (.v, 4, 0x0008F16B, .kmul 5 12 3),
    (.v, 4, 0x000CF16B, .kand 5 12 3),
    (.v, 4, 0x0010F16B, .kor 5 12 3),
    (.v, 4, 0x0014F16B, .kshl 5 12 3),
    (.v, 4, 0x0018F16B, .kshr 5 12 3),
    (.v, 4, 0x001CF16B, .kmin 5 12 3),
    (.v, 4, 0x0020F16B, .kmax 5 12 3),
    (.v, 4, 0xFFFFB16D, .kaddi 5 12 (-2)),
    (.v, 4, 0x000C8EAF, .vdefer 58 200),
    (.v, 4, 0x00105EAF, .vdrain 58 5),
    (.v, 4, 0x00200EAF, .vscatb 58)] = true := by decide +kernel

/-! ### Words that the spec writes out -/

/-- R303 to R314, R335, R339, R344, R347, R350, R351, Tables 13-14 and 15-2. -/
theorem test_spec_words_control : readAll [
    (.c, 4, 0x000208C9, .add 3 1 2),
    (.c, 4, 0x01E12199, .ld 6 4 3 true 2 1),
    (.c, 4, 0x6E062161, .cas 5 4 6 3 1 0),
    (.c, 4, 0x00494023, .wadd 8 9 false 2),
    (.c, 4, 0x000000FB, .tsig 3),
    (.c, 2, 0x248A, .mov 4 9),
    (.c, 4, 0xFFFFD543, .bg 2 true (-6)),
    (.c, 4, 0x02408087, .csrwi 0x102 2),
    (.c, 4, 0x00024E07, .csrr 7 0x009),
    (.c, 4, 0x00314907, .dstc 4 5 6),
    (.c, 4, 0x01314907, .dstcSram 4 5 6),
    (.c, 4, 0x340000D7, .li 3 0x3400 0),
    (.c, 4, 0x401228D7, .lik 3 0x4012 1),
    (.c, 4, 0x000830D7, .lik 3 8 2),
    (.c, 4, 0x00F3215B, .st 4 5 1 true 3 3),
    (.c, 4, 0x00C00225, .fence 3 8),
    (.c, 4, 0xFFFF88AB, .bnz 2 (-8)),
    (.c, 4, 0x000418AF, .jt 2 3 4),
    (.c, 4, 0x003111B3, .talloc 70 2 3),
    (.c, 4, 0x0000E075, .dld 1 7 0),
    (.c, 2, 0x0168, .gsetImm 3 true),
    (.c, 2, 0x0248, .gclr 2),
    (.c, 4, 0x00004979, .qdepth 5 1 false 1)] = true := by decide +kernel

/-- Tables 13-14 and 16-9. -/
theorem test_spec_words_vector : readAll [
    (.v, 2, 0x0AA4, .syncPrefix 0 2 true 2 true),
    (.v, 4, 0x04C04209, .vadd 8 ⟨0, 4⟩ ⟨1, 12⟩),
    (.v, 4, 0x0005F9E7, .vshape 7 63 2),
    (.v, 4, 0x00064469, .psetImm 1 100 2),
    (.v, 4, 0x001530A1, .vld 2 3 5 1),
    (.v, 4, 0x30C08509, .vfma 20 ⟨0, 8⟩ ⟨0, 12⟩),
    (.v, 4, 0x0070420B, .vtanh 8 ⟨0, 4⟩),
    (.v, 4, 0x00108797, .vcvt 30 ⟨0, 8⟩ false 0 1),
    (.v, 4, 0x0360901B, .vrany ⟨0, 9⟩ 3),
    (.v, 4, 0x03253521, .vst 3 5 20 true 2),
    (.v, 4, 0x0000311F, .jseed 4 ⟨0, 3⟩),
    (.v, 4, 0x0000522F, .vdefer 8 5),
    (.v, 4, 0x0010222F, .vdrain 8 2),
    (.v, 4, 0x0020022F, .vscatb 8),
    (.v, 2, 0x0028, .vmode true)] = true := by decide +kernel

/-- R390, Tables 13-14 and 17-7. -/
theorem test_spec_words_matrix : readAll [
    (.m, 4, 0x00040201, .blk 1 8),
    (.m, 4, 0x00180141, .blk 6 5),
    (.m, 2, 0x4404, .syncPrefix 2 1 false 0 false),
    (.m, 4, 0x00002109, .mma 0 1 2 false 0),
    (.m, 4, 0x30542149, .mmaRange 1 1 2 4 5 true 0),
    (.m, 4, 0x0044250B, .mdrain 5 0 2 0 true 1),
    (.m, 4, 0x00930A4D, .mdraint 10 1 3 1 2 0),
    (.m, 4, 0x00030A8F, .mld 2 10 3 0),
    (.m, 4, 0x00017611, .wq 0 6 7 1 0),
    (.m, 4, 0x00041115, .oaddi 4 4 16),
    (.m, 4, 0x000640D9, .qpush 3 1 1),
    (.m, 2, 0x00C8, .mzero 2 true),
    (.m, 2, 0x002A, .astc 1)] = true := by decide +kernel

/-- Tables 13-14 and 17-7. -/
theorem test_spec_words_copy : readAll [
    (.y, 2, 0x0002, .endS),
    (.y, 4, 0x10208149, .cpyTensorTile 5 2 0 true 0 1),
    (.y, 4, 0x02000D0D, .cpyTensorTensor 4 3 0 true false 0 0),
    (.y, 4, 0x01224D11, .cpys 4 3 1 9 1),
    (.y, 4, 0x00200E9F, .rget 10 3 0 false 0 0),
    (.y, 2, 0x0608, .barm 6 0),
    (.y, 2, 0x1008, .bwait 0)] = true := by decide +kernel

/-- Table 22-2. -/
theorem test_spec_words_redundant : readAll [
    (.c, 4, 0x00040141, .blk 1 5),
    (.c, 4, 0x01188307, .dstcSram 1 2 3),
    (.c, 4, 0x00040341, .blk 1 13),
    (.c, 4, 0x00000075, .dld 1 0 0),
    (.c, 2, 0x4004, .syncPrefix 2 0 false 0 false),
    (.c, 2, 0x4002, .rdv),
    (.v, 4, 0x00040501, .blk 1 20),
    (.v, 4, 0x00047827, .vshape 0 15 2),
    (.v, 4, 0x0000C06D, .kaddi 1 0 3),
    (.v, 4, 0x0230011D, .vbck 4 2),
    (.v, 2, 0x0404, .syncPrefix 0 1 false 0 false),
    (.v, 4, 0x00001061, .vld 1 1 0 0),
    (.v, 4, 0x30301111, .vimad 4 ⟨0, 1⟩ ⟨0, 3⟩),
    (.v, 4, 0x01002121, .vst 2 0 4 false 0)] = true := by decide +kernel

/-! ### Terms and words that are refused -/

/-- None of the terms is an instruction of its stream. -/
def refuses (rows : List (Strm × Instr)) : Bool := rows.all fun r => !r.2.wf r.1

/-- Tables 13-3, 13-4, 13-6 to 13-8, R282, R286 to R288: counts, sets, masks, the streams of a word, register and CSR numbers. -/
theorem test_ill_formed_common : refuses [
    (.c, .blk 0 5), (.c, .blk 16384 5), (.c, .blk 1 1), (.c, .blk 1 4096), (.v, .wait 2048), (.c, .brk 128), (.m, .eret), (.v, .halt), (.y, .rdv),
    (.m, .ret), (.c, .svc 2048), (.c, .syncPrefix 0 0 false 0 false), (.c, .syncPrefix 8 0 false 0 false), (.c, .syncPrefix 0 8 false 0 false),
    (.c, .syncPrefix 1 0 false 1 false), (.c, .syncPrefix 1 0 false 0 true), (.c, .syncPrefix 1 0 true 8 false), (.c, .br 16777216),
    (.c, .br (-16777217)), (.c, .bg 8 true 0), (.c, .bg 0 true 1048576), (.v, .rpt false 0 0 1), (.v, .rpt false 16 1 1), (.v, .rpt false 0 16 1),
    (.v, .rpt false 0 1 64), (.c, .csrr 32 0), (.v, .csrr 16 0), (.c, .csrr 0 1024), (.m, .csrw 0 16), (.c, .csrwi 0 256), (.c, .csrwi 1024 0),
    (.v, .dstc 0 0 0), (.c, .dstc 32 0 0), (.c, .dstc 0 32 0), (.c, .dstcSram 0 0 32), (.y, .dstcSram 0 0 0)] = true := by decide +kernel

/-- Tables 13-9, R280, R292, R175: registers, amounts, scopes, forms, offsets, sets, handles and fields. -/
theorem test_ill_formed_control : refuses [
    (.v, .gsetImm 0 true), (.c, .gsetImm 8 true), (.c, .gclr 8), (.c, .mov 32 0), (.c, .mov 0 32), (.c, .add 32 0 0), (.c, .sub 0 32 0),
    (.c, .mul 0 0 32), (.m, .add 0 0 0), (.c, .addi 0 0 32768), (.c, .slti 0 0 (-32769)), (.c, .andi 0 0 65536), (.c, .shli 0 0 64),
    (.c, .li 0 65536 0), (.c, .li 0 0 4), (.c, .lik 32 0 0), (.c, .ld 0 0 256 false 0 0), (.c, .ld 0 0 0 true 3 0), (.c, .ld 0 0 0 false 4 0),
    (.c, .ld 0 0 0 false 0 16), (.c, .st 0 0 (-257) false 0 0), (.c, .ldAcq 0 0 5 false 0 0), (.c, .ldAcq 0 0 0 true 3 0),
    (.c, .stRel 0 0 5 false 0 0), (.c, .amoadd 0 0 0 5 1 0), (.c, .amoor 0 0 0 0 3 0), (.c, .cas 0 0 0 1 0 0), (.c, .amoswp 0 0 32 0 1 0),
    (.c, .wadd 0 0 false 16), (.c, .cread 32 0 false 0), (.c, .fence 5 1), (.c, .fence 0 0), (.c, .fence 0 65536), (.c, .spill 30 0 2 false 0),
    (.c, .fill 30 0 2 0), (.c, .fill 4 6 3 0), (.c, .pf 0 2048 0), (.c, .bz 0 524288), (.c, .bnz 32 0), (.c, .call 33554432), (.c, .jt 0 0 65536),
    (.c, .fork 0 0 0 0), (.c, .fork 8 0 0 0), (.c, .fork 1 0 2 0), (.c, .fork 4 2147483648 0 0), (.c, .talloc 256 0 0), (.c, .tfree 256),
    (.c, .dld 16 0 0), (.c, .dset 0 0 15), (.c, .dget 0 0 15), (.c, .dst 0 16 false 0), (.c, .gsetReg 0 8), (.c, .qdepth 0 2 false 0),
    (.c, .qdepth 0 0 false 3), (.c, .tsig 32), (.v, .tsig 0)] = true := by decide +kernel

/-- Tables 13-11 and 13-12, R293, R294: accumulators, pairs, handles, formats, barriers and streams. -/
theorem test_ill_formed_engines : refuses [
    (.m, .mzero 1 true), (.m, .mzero 4 false), (.m, .astc 4), (.m, .mma 0 16 0 false 0), (.m, .mmaRange 0 0 0 16 0 false 0),
    (.m, .mdrain 0 0 0 4 false 0), (.m, .mdraint 0 0 0 0 9 0), (.m, .mld 0 256 0 0), (.m, .wq 0 0 16 0 0), (.v, .oadd 0 0 0), (.c, .osub 0 0 0),
    (.m, .omul 16 0 0), (.m, .oaddi 0 0 131072), (.y, .oli 0 (-2097153)), (.y, .qpop 0 8 0), (.m, .qpush 0 0 2), (.m, .barm 0 0), (.y, .barm 16 0),
    (.y, .bwait 8), (.y, .cpyTensorTile 0 0 0 false 1 0), (.y, .cpyTileTensor 0 256 0 false false 0 0), (.y, .cpyTensorTensor 0 0 8 false false 0 0),
    (.y, .cpyTileTile 256 0 0 0), (.y, .cpys 0 0 0 16 0), (.y, .cpf 16 0 0), (.y, .wld 0 0 0 16), (.y, .rput 0 0 0 false 7 0),
    (.m, .rget 0 0 0 false 0 0)] = true := by decide +kernel

/-- Table 13-13, R295: registers, directions, roundings, codes, shapes and counts. -/
theorem test_ill_formed_vector : refuses [
    (.c, .vmode true), (.v, .vadd 64 ⟨0, 0⟩ ⟨0, 0⟩), (.v, .vsub 0 ⟨3, 0⟩ ⟨0, 0⟩), (.v, .vmul 0 ⟨0, 64⟩ ⟨0, 0⟩), (.v, .vfma 0 ⟨0, 0⟩ ⟨3, 0⟩),
    (.v, .vdiv 0 ⟨0, 0⟩ ⟨0, 64⟩), (.y, .vadd 0 ⟨0, 0⟩ ⟨0, 0⟩), (.v, .vrcp 0 ⟨3, 0⟩), (.v, .vcvt 0 ⟨0, 0⟩ false 5 0), (.v, .vcvt 0 ⟨0, 0⟩ true 1 0),
    (.v, .vcvt 0 ⟨0, 0⟩ false 0 12), (.v, .vpack 0 ⟨0, 0⟩ false 0 2), (.v, .vpack 0 ⟨0, 0⟩ false 0 5), (.v, .vpack 63 ⟨0, 0⟩ false 0 3),
    (.v, .vpackCb4 0 ⟨0, 0⟩ 16 false 0), (.v, .vunpack 0 ⟨1, 0⟩ false 0 0), (.v, .vunpack 0 ⟨0, 63⟩ false 0 4), (.v, .vunpackCb4 0 ⟨2, 0⟩ 0 false 0),
    (.v, .vrsum 64 ⟨0, 0⟩), (.v, .vrany ⟨0, 0⟩ 8), (.v, .vbce 0 ⟨0, 0⟩ 16), (.v, .vbck 0 16), (.v, .vext 16 ⟨0, 0⟩), (.v, .jget 0 ⟨0, 0⟩ 6),
    (.v, .jput 0 ⟨0, 0⟩ 6), (.v, .vld 0 16 0 0), (.v, .vst 0 0 64 false 0), (.v, .vtld 0 256 0 0), (.v, .vtst 0 0 0 16), (.v, .vpop 0 2),
    (.v, .vpush 64 0), (.v, .vshape 0 0 3), (.v, .vshape 31 31 2), (.v, .vshape 32 0 0), (.v, .psetImm 8 0 0), (.v, .psetImm 0 2048 0),
    (.v, .psetImm 0 0 3), (.v, .psetK 0 16 0), (.v, .kadd 16 0 0), (.v, .kaddi 0 0 131072), (.v, .vdefer 0 256), (.v, .vdrain 0 8), (.v, .vscatb 64)] = true := by decide +kernel

/-- The units that an event names. -/
theorem test_ill_formed_events : refuses [
    (.c, .converterFault 5), (.c, .railInjection 37 0 true 0), (.c, .railBeatArrival 0 16 true 0), (.c, .routerPowerGate 0 5 0),
    (.c, .connectorMeasurement 10 0), (.c, .homeTableWrite 262144 0), (.c, .ffmapWrite 4 0 0), (.c, .pctlWrite 512 0 0), (.c, .queueEnable 0 4 0),
    (.c, .queueDrain 512 0 0), (.c, .coolantWrite (2 ^ 64)), (.c, .tlbinvPage 1024), (.c, .counterHalving 4), (.c, .drstGo 37),
    (.c, .linkFailure 37 0 [] []), (.c, .poolSliceEnd 256 0), (.c, .poolSliceEnd 0 3), (.c, .deadlock 1024), (.c, .checkpoint 512)] = true := by decide +kernel

/-- The words are reserved (R8, R296). -/
def reserved (bytes : Nat) (rows : List (Strm × Nat)) : Bool :=
  rows.all fun r => match decode r.1 (bytesOf r.2 bytes) with | .error e => e == (if bytes = 2 then .reserved16 else .reserved32) | .ok _ => false

/-- R290 to R295: unassigned majors and codes, fields that are not 0, and words of other streams, of 16 bits. -/
theorem test_reserved_16 : reserved 2 [
    (.c, 0x6002), (.c, 0x0022), (.c, 0x0308), (.c, 0x0568), (.c, 0xA48A), (.c, 0x000C), (.m, 0x00A8), (.m, 0x006C), (.y, 0x110E), (.y, 0x000A), (.v, 0x0048), (.v, 0x000A), (.m, 0x2002), (.m, 0x0004), (.m, 0x0424)] = true := by decide +kernel

/-- The same of 32 bits. -/
theorem test_reserved_32 : reserved 4 [
    (.c, 0x0000003D), (.c, 0x0000003F), (.m, 0x0000001B), (.y, 0x00000021), (.v, 0x00000031), (.c, 0x03000009),
    (.c, 0x08000009), (.c, 0x00000147), (.c, 0x00201005), (.c, 0x00C00015), (.c, 0x1800001F), (.c, 0x2000001F),
    (.c, 0x00001035), (.c, 0x00001839), (.v, 0x70000009), (.v, 0x00B0000B), (.v, 0x6000000D), (.v, 0xF0000011),
    (.v, 0x00300013), (.v, 0xD0000015), (.v, 0x00C00017), (.v, 0x0080001B), (.v, 0x0050001D), (.v, 0x0050001F),
    (.v, 0x000C0009), (.v, 0x0024002B), (.v, 0x0030002F), (.m, 0x00200013), (.y, 0x20000009), (.m, 0x00010009),
    (.v, 0x10000019)] = true := by decide +kernel

/-! ### Worked examples of the spec -/

/-- R106, the example of pipeline 5: contributions 5, 15, 22, 22 leave 1, and 6, 18, 25, 25 leave 0. -/
theorem test_vector_word :
    ([5, 15, 22, 22].foldl (fun a w => vaccAdd a 5 w) []).get 5 0 = 1 ∧ ([6, 18, 25, 25].foldl (fun a w => vaccAdd a 5 w) []).get 5 0 = 0 := by decide

/-- R424: the words of vector epoch 0 for y = 3x + 7, with the right operand and with x[5] = 6. -/
theorem test_vector_epoch_word :
    let word := fun (x : Nat → Nat) => vecWord ((List.range 16).foldl (fun a p => [3, 7, x p, 3 * x p + 7, 3 * x p + 7].foldl (fun a w => vaccAdd a p w) a) [])
    word id = 0x579BD02468ACE135 ∧ word (fun p => if p = 5 then 6 else p) = 0x579BD024688CE135 := by decide +kernel

/-- FIPS 180-4: the digest of "abc" that R128 and R129 rest on. -/
theorem test_sha256 : sha256 [0x61, 0x62, 0x63] = [
    0xBA, 0x78, 0x16, 0xBF, 0x8F, 0x01, 0xCF, 0xEA, 0x41, 0x41, 0x40, 0xDE, 0x5D, 0xAE, 0x22, 0x23, 0xB0, 0x03, 0x61, 0xA3, 0x96, 0x17, 0x7A, 0x9C, 0xB4, 0x10, 0xFF, 0x61, 0xF2, 0x00, 0x15, 0xAD] := by decide +kernel

/-- R433: code(1) is 0x43 for a 32-bit word and 0x83 for a 64-bit word, and code(0) is 0 for both. -/
theorem test_storage_code : eccCode 32 6 1 = 0x43 ∧ eccCode 64 7 1 = 0x83 ∧ eccCode 32 6 0 = 0 ∧ eccCode 64 7 0 = 0 := by decide

/-- R213, the example block: scale 0x1FF, codes 0b0111, 0b1011 and 0b0001 for 10, -3 and 0.5. -/
theorem test_p4_block :
    (encBlock fmtE2m1 6 0 0 [some (.num false 10 0), some (.num true 3 0), some (.num false 1 (-1))]).scale = 0x1FF ∧
      (encBlock fmtE2m1 6 0 0 [some (.num false 10 0), some (.num true 3 0), some (.num false 1 (-1))]).codes = [7, 11, 1] := by decide +kernel

/-- R220, the example: 1 and two products of 2^-24 in one K-step give 1 + 2^-23; one of them alone is lost. -/
theorem test_k_step :
    (kStep32 0x3F800000 [(.num false 1 (-12), .num false 1 (-12)), (.num false 1 (-12), .num false 1 (-12))]).1 = 0x3F800001 ∧
      (kStep32 0x3F800000 [(.num false 1 (-12), .num false 1 (-12))]).1 = 0x3F800000 := by decide +kernel

/-- The example behind R234: tanh of the jet (0, 1, 0, 0) is (0, 1, 0, -1/3 rounded), inexact in slot 3 alone. -/
theorem test_tanh_jet :
    jetOp { code := 0 } (.fn .tanh) 3 ([0, 0x3F800000, 0, 0].map rd32) [] [] = [(0, 0), (0x3F800000, 0), (0, 0), (0xBEAAAAAB, 1)] := by decide +kernel

/-- R321, the example: `lik g3, 0x4012, 1` on 0x3400 gives 0x4012_3400. -/
theorem test_lik : (match exec (.lik 3 0x4012 1) (benchG [(3, 0x3400)]) with | .next t => (t.ctx 0).readG 3 == 0x40123400 | _ => false) = true := by decide +kernel

/-- R318: a quotient by 0 is all ones, and the most negative number by -1 is itself. -/
theorem test_div_corners :
    (match exec (.div 5 1 0) (benchG [(1, 7)]) with | .next t => (t.ctx 0).readG 5 == 0xFFFFFFFFFFFFFFFF | _ => false) = true ∧
      (match exec (.div 5 1 2) (benchG [(1, 0x8000000000000000), (2, 0xFFFFFFFFFFFFFFFF)]) with
        | .next t => (t.ctx 0).readG 5 == 0x8000000000000000 | _ => false) = true := by decide +kernel

/-- A word of the opcode table is fetched and run first: `mov g4, g9` of R322 placed at the next fetch. -/
theorem test_first_step : (match step (State.reset.withFetchWord 16 0x248A) with | .next t => t.cur.ctx == 0 && (t.strm 0 .c).pc == (t.cur.pc + 2) | _ => false) = true := by
  decide +kernel

end Sys2Proof.Tests
end

