-- ==== Sys2Proof/Tests/Witness1.lean ====
section
/-!
SUPPORT. Sys2Proof/Tests/Witness1.lean: for each statement about the control stream, states and operands that meet its hypotheses together,
clause by clause.
-/

namespace Sys2Proof.Tests

set_option Elab.async false

open Sys2Proof Sys2Proof.Machine

theorem witness_ControlArithmetic :
    (∃ d srcs v, aluSpec (.add 3 1 2) (benchG [(1, -1), (2, 1)]).readG = some (d, srcs, v) ∧ (benchG [(1, -1), (2, 1)]).here.gReady srcs = true ∧
      (benchG [(1, -1), (2, 1)]).settled) ∧
    (∃ d srcs v, aluSpec (.li 0 0xFFFF 3) (bench .c).readG = some (d, srcs, v) ∧ d = 0 ∧ (bench .c).here.gReady srcs = true ∧ (bench .c).settled) :=
  ⟨⟨_, _, _, rfl, by decide, trivial⟩, ⟨_, _, _, rfl, rfl, by decide, trivial⟩⟩

theorem witness_MemoryIssue :
    (∃ m, (bench .c).memSpec (.ld 3 1 0 true 2 0) = some m ∧ (bench .c).here.gReady m.srcs = true ∧ (bench .c).me.syncFault m.sync = none ∧
      m.va % m.align = 0 ∧ (bench .c).chkBytes 0 m.check (vasOf m.va m.size) = .ok [0, 1, 2, 3] 0 ∧ m.check = 0 ∧ (bench .c).settled) ∧
    (∃ m, (bench .c).memSpec (.cas 5 4 6 3 2 15) = some m ∧ (bench .c).here.gReady m.srcs = true ∧ (bench .c).me.syncFault m.sync = none ∧
      m.va % m.align = 0 ∧ (bench .c).chkBytes 0 m.check (vasOf m.va m.size) = .ok [0, 1, 2, 3, 4, 5, 6, 7] 0 ∧
      (bench .c).here.team.pclass ≠ 2 ∧ (bench .c).settled) :=
  ⟨⟨_, rfl, by decide, by decide, by decide, by decide, rfl, trivial⟩, ⟨_, rfl, by decide, by decide, by decide, by decide, by decide, trivial⟩⟩

theorem witness_MemoryFaults :
    (∃ m, (benchG [(1, 7)]).memSpec (.st 1 2 0 true 3 4) = some m ∧ (benchG [(1, 7)]).here.gReady m.srcs = true ∧
      (benchG [(1, 7)]).me.syncFault m.sync = none ∧ (benchG [(1, 7)]).here.team.pclass ≠ 2 ∧ (benchG [(1, 7)]).mayFault ∧ m.va % m.align ≠ 0) ∧
    (∃ m s, s = { benchG [] with mem := { (bench .c).mem with tlb := [(0, [{ asid := 0, vf := 0, size := 16, vpage := 0, gpa := 0, rd := true, w := false, x := true }])] } } ∧
      s.memSpec (.st 1 2 0 true 3 4) = some m ∧ s.here.gReady m.srcs = true ∧ s.me.syncFault m.sync = none ∧ s.here.team.pclass ≠ 2 ∧ s.mayFault ∧
      m.va % m.align = 0 ∧ s.chkBytes 0 m.check (vasOf m.va m.size) = .bad 2 3 0) :=
  ⟨⟨_, rfl, by decide, by decide, by decide, ⟨rfl, rfl⟩, by decide⟩, ⟨_, _, rfl, rfl, by decide, by decide, by decide, ⟨rfl, rfl⟩, by decide, by decide⟩⟩

theorem witness_Branches :
    (∃ srcs a, (bench .c).branchSpec (.bz 1 2) = some (srcs, true, a) ∧ (bench .c).here.gReady srcs = true ∧ (bench .c).settled ∧
      ((bench .c).putCode 68 [1, 0, 0, 0]).target 0 a = .header ∧ ((bench .c).putCode 68 [2, 0]).target 0 a = .other ∧ (bench .c).mayFault) ∧
    (∃ srcs a, (bench .c).branchSpec (.bnz 1 2) = some (srcs, false, a) ∧ (bench .c).here.gReady srcs = true ∧ (bench .c).settled) :=
  ⟨⟨_, _, rfl, by decide, trivial, by decide, by decide, ⟨rfl, rfl⟩⟩, ⟨_, _, rfl, by decide, trivial⟩⟩

theorem witness_CallAndReturn :
    (let s := (bench .c).putCode 72 [1, 0, 0, 0]; s.settled ∧ s.here.shadow.length < 512 ∧ s.target 0 (s.relTo 4) = .header) ∧
    (let s := (bench .c).upHere fun c => { c with shadow := List.replicate 512 0 }; s.settled ∧ 512 ≤ s.here.shadow.length ∧ s.mayFault) ∧
    (let s := (bench .c).upHere fun c => { c with shadow := [8, 9], g := [(31, 8)] }
     s.settled ∧ s.here.shadow = [8, 9] ∧ s.here.gReady [31] = true ∧ s.readG 31 = 8) ∧
    (let s := (bench .c).upHere fun c => { c with shadow := [8, 9] }
     s.settled ∧ s.here.shadow = [8, 9] ∧ s.here.gReady [31] = true ∧ s.readG 31 ≠ 8 ∧ s.mayFault) ∧
    ((bench .c).settled ∧ (bench .c).here.shadow = [] ∧ (bench .c).here.gReady [31] = true ∧ (bench .c).mayFault) :=
  ⟨⟨trivial, by decide, by decide⟩, ⟨trivial, Nat.le_of_eq (List.length_replicate (n := 512) (a := (0 : Word))).symm, ⟨rfl, rfl⟩⟩, ⟨trivial, rfl, by decide, by decide⟩,
    ⟨trivial, rfl, by decide, by decide, ⟨rfl, rfl⟩⟩,
    ⟨trivial, rfl, by decide, ⟨rfl, rfl⟩⟩⟩

theorem witness_JumpTable :
    ((bench .c).settled ∧ (bench .c).me.mpos = 0 ∧ (∀ a ∈ (bench .c).me.cq ++ (bench .c).me.redo.map Prod.fst, a.sink ≠ .jump (bench .c).cur.pc) ∧
      (bench .c).here.gReady [1, 2] = true ∧ 0 ≤ ((bench .c).readG 1).toNat ∧ ((bench .c).readG 1).toNat < 1 ∧
      ((bench .c).readG 2 + 8 * (bench .c).readG 1).toNat % 8 = 0 ∧
      (bench .c).chkBytes 0 0 (vasOf ((bench .c).readG 2 + 8 * (bench .c).readG 1).toNat 8) = .ok [0, 1, 2, 3, 4, 5, 6, 7] 0) ∧
    (let s := ((bench .c).putCode 72 [1, 0]).upStrm 0 .c fun x => { x with mpos := 73 }
     s.settled ∧ s.me.mpos = 72 + 1 ∧ 72 < 2 ^ 56 ∧ s.me.faulted = false ∧ s.target 0 72 = .header) ∧
    (let s := (bench .c).upStrm 0 .c fun x => { x with mpos := 2 ^ 56 + 1 }; s.settled ∧ s.me.mpos = 2 ^ 56 + 1 ∧ 2 ^ 56 ≤ 2 ^ 56 ∧ s.mayFault) ∧
    (let s := ((bench .c).putCode 72 [2, 0]).upStrm 0 .c fun x => { x with mpos := 73 }
     s.settled ∧ s.me.mpos = 72 + 1 ∧ 72 < 2 ^ 56 ∧ s.target 0 72 = .other ∧ s.mayFault) ∧
    ((benchG [(2, 4)]).readG 2 + 8 * (benchG [(2, 4)]).readG 1).toNat % 8 ≠ 0 ∧ (benchG [(2, 4)]).mayFault ∧
    (let s : State := { benchG [] with mem := { (bench .c).mem with tlb := [(0, [{ asid := 0, vf := 0, size := 16, vpage := 0, gpa := 0, rd := false, w := true, x := true }])] } }
     ((s.readG 2 + 8 * s.readG 1).toNat % 8 = 0 ∧ s.chkBytes 0 0 (vasOf (s.readG 2 + 8 * s.readG 1).toNat 8) = .bad 2 3 0 ∧ s.mayFault)) :=
  ⟨⟨trivial, rfl, by decide, by decide, by decide, by decide, by decide, by decide⟩, ⟨trivial, rfl, by decide, rfl, by decide⟩, ⟨trivial, rfl, by decide, ⟨rfl, rfl⟩⟩,
    ⟨trivial, rfl, by decide, by decide, ⟨rfl, rfl⟩⟩, by decide, ⟨rfl, rfl⟩, ⟨by decide, by decide, ⟨rfl, rfl⟩⟩⟩

theorem witness_ForkStarts :
    (let s := (bench .c).putCode 72 [1, 0]
     s.settled ∧ s.cur.st = .c ∧ (∀ p ∈ s.forkSpec 7 4 4 4, s.target 0 p.2 = .header) ∧
       (∀ p ∈ s.forkSpec 7 4 4 4, (s.here.strm p.1).stat = .idle ∧ s.ownsEngine s.here.vf (s.cur.ctx / 4) (kindOf p.1) = true)) ∧
    (let s := ((bench .c).putCode 72 [1, 0]).upStrm 0 .v fun x => { x with stat := .run }
     s.settled ∧ s.cur.st = .c ∧ (∀ p ∈ s.forkSpec 2 0 4 0, s.target 0 p.2 = .header) ∧
       (∃ p ∈ s.forkSpec 2 0 4 0, (s.here.strm p.1).stat ≠ .idle ∨ s.ownsEngine s.here.vf (s.cur.ctx / 4) (kindOf p.1) = false) ∧ s.mayFault) ∧
    (let s := (bench .c).putCode 72 [2, 0]; s.settled ∧ (∃ p ∈ s.forkSpec 4 0 0 4, s.target 0 p.2 = .other) ∧ s.mayFault) :=
  ⟨⟨trivial, rfl, by decide, by decide⟩, ⟨trivial, rfl, by decide, by decide, ⟨rfl, rfl⟩⟩, ⟨trivial, by decide, ⟨rfl, rfl⟩⟩⟩

theorem witness_RendezvousAndEnd :
    ((bench .c).me.rob = [] ∧ (bench .c).cur.st = .c ∧ (bench .c).here.gathered = true ∧ (bench .c).me.syncFault 65535 = none ∧
      (bench .c).here.team.pclass ≠ 2 ∧ (∃ tok, pushTokens (bench .c).here.tok (pushKeys .c (bench .c).me.pushes) = some tok) ∧ (bench .c).here.hmode = false) ∧
    (((bench .c).upStrm 0 .m fun x => { x with stat := .run }).here.gathered = false) ∧
    ((bench .v).me.rob = [] ∧ (bench .v).me.syncFault 65535 = none ∧ (bench .v).here.team.pclass ≠ 2 ∧
      (∃ tok, pushTokens (bench .v).here.tok (pushKeys .v (bench .v).me.pushes) = some tok) ∧ (bench .v).cur.st ≠ .c ∧ (bench .v).here.vec.landing = []) ∧
    (let s := (bench .c).upStrm 0 .m fun x => { x with stat := .run }
     s.me.rob = [] ∧ s.cur.st = .c ∧ s.here.hmode = false ∧ s.here.gathered = false ∧ s.me.syncFault 65535 = none ∧ s.here.team.pclass ≠ 2 ∧
       ∃ tok, pushTokens s.here.tok (pushKeys .c s.me.pushes) = some tok) ∧
    (let s := ((bench .c).upStrm 0 .c fun x => { x with pfx := some ⟨1, 0, false, 0, false, true, true⟩ }).upHere fun c => { c with tok := [(1, 15)] }
     s.me.rob = [] ∧ s.cur.st = .c ∧ s.here.gathered = true ∧ pushTokens s.here.tok (pushKeys .c s.me.pushes) = none) :=
  ⟨⟨rfl, rfl, by decide, by decide, by decide, ⟨_, rfl⟩, rfl⟩, by decide, ⟨rfl, by decide, by decide, ⟨_, rfl⟩, by decide, rfl⟩,
    ⟨rfl, rfl, rfl, by decide, by decide, by decide, ⟨_, rfl⟩⟩, ⟨rfl, rfl, by decide, by decide⟩⟩

/-- A bench with a tile of one row of 64 bytes. -/
def tileBench (st : Strm) (h : Nat) (rows rb : Nat) : State :=
  { bench st with tiles := [((bench st).here.tileKey 0 h, { rows := rows, rb := rb })] }

theorem witness_TileHandles :
    (let s := benchG [(1, 1), (2, 64)]
     s.me.rob = [] ∧ s.here.gReady [1, 2] = true ∧ (1 ≤ (s.readG 1).toNat ∧ (s.readG 1).toNat ≤ 65536 ∧ (s.readG 2).toNat % 64 = 0 ∧ 64 ≤ (s.readG 2).toNat ∧
       (s.readG 2).toNat ≤ 16384) ∧ s.tile (s.here.tileKey 0 0) = none ∧ s.tileRoom 0 (tileLevel 0) (tileUnits (tileLevel 0) 1 64 * unitBytes (tileLevel 0)) = true ∧
       s.shareFits 0 (tileLevel 0) (tileUnits (tileLevel 0) 1 64) = true) ∧
    (benchG [(1, 0), (2, 64)]).mayFault ∧
    (tileBench .c 0 1 64).tile ((tileBench .c 0 1 64).here.tileKey 0 0) ≠ none ∧
    (benchG [(1, 97), (2, 16384)]).tileRoom 0 (tileLevel 0) (tileUnits (tileLevel 0) 97 16384 * unitBytes (tileLevel 0)) = false ∧
    ((benchG [(1, 93), (2, 16384)]).tileRoom 0 (tileLevel 0) (tileUnits (tileLevel 0) 93 16384 * unitBytes (tileLevel 0)) = true ∧
      (benchG [(1, 93), (2, 16384)]).shareFits 0 (tileLevel 0) (tileUnits (tileLevel 0) 93 16384) = false) ∧
    ((∀ q ∈ (tileBench .c 0 1 64).here.mat.queue, q.done = true ∨ q.names .m 0 = false) ∧
      (∀ q ∈ (tileBench .c 0 1 64).here.cpy.queue, q.done = true ∨ q.names .y 0 = false) ∧ (tileBench .c 0 1 64).vNames 0 = false ∧
      (∀ a ∈ (tileBench .c 0 1 64).here.sv.cq ++ (tileBench .c 0 1 64).here.sv.redo.map Prod.fst, a.kind ≠ .tile 0)) :=
  ⟨⟨rfl, by decide, by decide, by decide, by decide, by decide⟩, ⟨rfl, rfl⟩, by decide, by decide, ⟨by decide, by decide⟩, by decide, by decide, by decide, by decide⟩

theorem witness_ShapeRegisters :
    ((bench .c).settled ∧ (bench .c).cur.st = .c ∧ (bench .c).me.rob = [] ∧ (∃ tok, pushTokens (bench .c).here.tok (pushKeys .c (bench .c).me.pushes) = some tok) ∧
      (bench .c).here.dReady 15 = true ∧ (bench .c).here.gReady [31] = true ∧ (bench .c).here.team.ttabn ≤ ((bench .c).readG 31).toNat ∧
      (bench .c).mayFault) ∧
    (let s := (bench .c).upHere fun c => { c with team := { c.team with ttabn := 1 } }
     s.settled ∧ s.here.dReady 15 = true ∧ s.here.gReady [31] = true ∧ (s.readG 31).toNat < s.here.team.ttabn ∧
       (s.here.team.ttab + 64 * (s.readG 31).toNat) % 64 = 0 ∧
       s.chkBytes 0 0 (vasOf (s.here.team.ttab + 64 * (s.readG 31).toNat) 64) = .ok (List.range 64) 0) :=
  ⟨⟨trivial, rfl, rfl, ⟨_, rfl⟩, by decide, by decide, by decide, ⟨rfl, rfl⟩⟩, ⟨trivial, by decide, by decide, by decide, by decide, by decide⟩⟩

theorem witness_GuardWrites :
    ∃ srcs slot v, (bench .c).guardSpec (.gsetReg 31 7) = some (srcs, slot, v) ∧ (bench .c).here.gReady srcs = true ∧ (bench .c).me.rob = [] ∧
      ∃ tok, pushTokens (bench .c).here.tok (pushKeys .c (bench .c).me.pushes) = some tok :=
  ⟨_, _, _, rfl, by decide, rfl, _, rfl⟩

theorem witness_FencesAndSignals :
    (bench .c).settled ∧ (bench .c).here.team.pclass ≠ 2 ∧ (bench .c).me.syncFault 65535 = none ∧ (bench .c).here.gReady [31] = true ∧
    (bench .c).chkBytes 0 0 (vasOf 0 64) = .ok (List.range 64) 0 ∧
    ({ bench .c with mem := { (bench .c).mem with homeCopy := [(0, [(0, 0x80000001)])] } } : State).chkBytes 0 0 (vasOf 0 64) = .ok (List.range 64) (4 + 1) ∧
    ({ bench .c with mem := { (bench .c).mem with tlb := [(0, [{ asid := 0, vf := 0, size := 16, vpage := 0, gpa := 0, rd := false, w := false, x := true }])] } } : State).chkBytes
      0 0 (vasOf 0 64) = .bad 2 3 0 :=
  ⟨trivial, by decide, by decide, by decide, by decide, by decide, by decide⟩

theorem witness_SpillAndFill :
    (bench .c).settled ∧ (bench .c).me.mpos = 0 ∧ ((bench .c).readG 4).toNat % 8 = 0 ∧ (bench .c).here.team.pclass ≠ 2 ∧
    (bench .c).here.gReady (4 :: (List.range 2).map (30 + ·)) = true ∧
    (∀ acc < 2, ∀ j, j ≤ 1 → (bench .c).chkBytes 0 acc (vasOf ((((bench .c).readG 4).toNat + 8 * j) % 2 ^ 64) 8) = .ok ((List.range 8).map (8 * j + ·)) 0) :=
  ⟨trivial, rfl, by decide, by decide, by decide, by decide⟩

theorem witness_DiagnosticStores :
    ((bench .c).here.gReady [1, 2, 3] = true ∧ (bench .c).isPriv (bench .c).here.vf = false ∧ (bench .c).mayFault) ∧
    (let s := asPriv (asClass2 (bench .c)); s.isPriv s.here.vf = true ∧ s.here.team.pclass = 2 ∧ s.mayFault) ∧
    (let s := asPriv (bench .c)
     s.isPriv s.here.vf = true ∧ s.here.team.pclass ≠ 2 ∧ s.settled ∧ s.me.classIdle 0 = true ∧
       s.chkBytes 0 1 (vasOf 0 8) = .ok (List.range 8) 0 ∧ s.chkBytes 0 1 (vasOf 0 4) = .ok [0, 0 + 1, 0 + 2, 0 + 3] 0) :=
  ⟨⟨by decide, by decide, ⟨rfl, rfl⟩⟩, ⟨by decide, rfl, ⟨rfl, rfl⟩⟩, ⟨by decide, by decide, trivial, by decide, by decide, by decide⟩⟩

end Sys2Proof.Tests
end

