-- ==== Sys2Proof/Tests/Witness2.lean ====
section
/-!
SUPPORT. Sys2Proof/Tests/Witness2.lean: states and operands that meet the hypotheses of the statements about class 2, words of every
stream, traps, handlers, CSRs and the vector stream.
-/

namespace Sys2Proof.Tests

set_option Elab.async false

open Sys2Proof Sys2Proof.Machine

/-- A class 2 bench with the key of its control stream's epochs. -/
def heldBench : State := { asClass2 (bench .c) with prot := { keys := [⟨1, 0, 0, 0, 0, .c⟩] } }

theorem witness_HeldStores :
    (∃ m, heldBench.memSpec (.amoadd 3 1 2 0 0 4) = some m ∧ heldBench.here.team.pclass = 2 ∧ heldBench.cur.st = .c ∧ m.check ≠ 0 ∧
      heldBench.here.gReady m.srcs = true ∧ m.dest.getD 0 ≠ 0 ∧ heldBench.mayFault) ∧
    (∃ m a ek, heldBench.memSpec (.st 1 2 0 false 3 4) = some m ∧ heldBench.here.team.pclass = 2 ∧ heldBench.cur.st = .c ∧ m.check ≠ 0 ∧
      heldBench.here.gReady m.srcs = true ∧ m.dest.getD 0 = 0 ∧ m.sync = 0 ∧ heldBench.settled ∧ m.va % m.align = 0 ∧
      heldBench.chkBytes 0 m.check (vasOf m.va m.size) = .ok (List.range 8) 0 ∧ m.accs (List.range 8) 0 = [a] ∧ heldBench.ekey 0 .c = some ek ∧
      heldBench.holdStalls 0 .c = false ∧ heldBench.me.recs + a.records < Config.epochRecords ∧ (heldBench.epoch ek.key heldBench.me.epoch).stat ≠ .release ∧
      (heldBench.sigLog ek.key).count ≤ heldBench.me.epoch ∧ (heldBench.epoch ek.key heldBench.me.epoch).key = ek.key ∧
      (heldBench.epoch ek.key heldBench.me.epoch).n = heldBench.me.epoch) :=
  ⟨⟨_, rfl, rfl, rfl, by decide, by decide, by decide, ⟨rfl, rfl⟩⟩,
    ⟨_, _, _, rfl, rfl, rfl, by decide, by decide, rfl, rfl, trivial, by decide, by decide, rfl, rfl, by decide, by decide, by decide, by decide, rfl, rfl⟩⟩

theorem witness_StreamWords :
    (let s := (bench .c).upStrm 0 .c fun x => { x with blocks := List.replicate 3 ⟨0, 4095, 1⟩ }
     s.settled ∧ s.me.blocks.length < 4 ∧ ∀ b ∈ s.me.blocks, s.cur.pc + 2 * 4 ≤ b.hdr + 2 * b.len) ∧
    (let s := (bench .c).upStrm 0 .c fun x => { x with blocks := List.replicate 4 ⟨0, 4095, 1⟩ }; s.settled ∧ 4 ≤ s.me.blocks.length ∧ s.mayFault) ∧
    (let s := (bench .c).upStrm 0 .c fun x => { x with blocks := [⟨60, 4, 1⟩] }; s.settled ∧ (∃ b ∈ s.me.blocks, b.hdr + 2 * b.len < s.cur.pc + 2 * 3) ∧ s.mayFault) ∧
    ((bench .m).settled ∧ (bench .m).cur.st ≠ .v) ∧
    ((bench .v).settled ∧ (bench .v).cur.st = .v ∧ (bench .v).me.waitN = 0 ∧ (bench .v).here.vec.landing = [] ∧ (bench .v).here.team.pclass ≠ 2) ∧
    ((bench .c).cur.st = .c ∧ (bench .c).here.team.pclass ≠ 2) :=
  ⟨⟨trivial, by decide, by decide⟩, ⟨trivial, by decide, ⟨rfl, rfl⟩⟩, ⟨trivial, by decide, ⟨rfl, rfl⟩⟩, ⟨trivial, by decide⟩, ⟨trivial, rfl, rfl, rfl, by decide⟩, rfl, by decide⟩

theorem witness_Traps : (bench .y).mayFault := ⟨rfl, rfl⟩

theorem witness_FaultDelivery :
    (let s := (((bench .c).putCode 72 [1, 0]).upHere fun c => { c with hvec := 0x8000000000000048, frec := [(2, { valid := true, st := .v })] })
     (s.ctx 0).live = true ∧ (s.ctx 0).sc.stopReq = false ∧ (∃ f, (s.ctx 0).firstFault = some f) ∧ (s.ctx 0).hvec.getLsbD 63 = true ∧ (s.ctx 0).hmode = false ∧
       s.target 0 ((s.ctx 0).hvec.toNat % 2 ^ 56) = .header ∧ (s.ctx 0).sc.inside = false ∧
       ∀ st ∈ allStrms, (st = .c ∨ ((s.ctx 0).frec.get (strmIx st) {}).valid = true) → s.left183 0 st = true) ∧
    (let s := (bench .c).upHere fun c => { c with frec := [(0, { valid := true })] }
     (s.ctx 0).live = true ∧ (s.ctx 0).sc.stopReq = false ∧ (∃ f, (s.ctx 0).firstFault = some f) ∧ (s.ctx 0).hvec.getLsbD 63 = false ∧ (s.ctx 0).team.pclass ≠ 2) :=
  ⟨⟨rfl, rfl, ⟨_, rfl⟩, by decide, rfl, by decide, by decide, by decide⟩, ⟨rfl, rfl, ⟨_, rfl⟩, by decide, by decide⟩⟩

theorem witness_HandlerReturn :
    (let h : HSave := { blocks := [], pfx := none, rpt := none, discard := false, waitN := 0, pc := 8, mpos := 0, dlv := [1, 3] }
     let s := (bench .c).upHere fun c => { c with hmode := true, hsave := some h, act := [(3, 1)] }
     s.cur.st = .c ∧ s.here.hmode = true ∧ s.here.hsave = some h ∧ s.me.rob = [] ∧ ∀ n ∈ h.dlv, n < 4 ∧ s.here.act.get n 0 ≠ 2) ∧
    ((bench .c).cur.st = .c ∧ (bench .c).here.hmode = false ∧ (bench .c).mayFault) :=
  ⟨⟨rfl, rfl, rfl, rfl, by decide⟩, rfl, rfl, ⟨rfl, rfl⟩⟩

theorem witness_HaltPrivilege :
    ((asPriv (bench .c)).isPriv (asPriv (bench .c)).here.vf = true ∧ (asPriv (bench .c)).me.rob = []) ∧
    ((bench .c).isPriv (bench .c).here.vf = false ∧ (bench .c).mayFault) :=
  ⟨⟨by decide, rfl⟩, by decide, ⟨rfl, rfl⟩⟩

theorem witness_CsrReadsAndWrites :
    ((bench .c).cur.st = .c ∧ csrReads .c 48 = true ∧ csrReads .c 38 = false ∧ (bench .c).me.csrPending = false ∧ (bench .c).settled ∧ (bench .c).mayFault) ∧
    ((bench .c).me.rob = [] ∧ (∃ tok, pushTokens (bench .c).here.tok (pushKeys .c (bench .c).me.pushes) = some tok) ∧ (bench .c).here.gReady [31] = true ∧
      (bench .c).isPriv (bench .c).here.vf = false) ∧
    ((asPriv (bench .c)).isPriv (asPriv (bench .c)).here.vf = true ∧ (asPriv (bench .c)).here.tlbinv.getLsbD 63 = false ∧ (asPriv (bench .c)).me.rob = []) ∧
    ((bench .v).cur.st = .v ∧ csrWrites .v 0x105 = true ∧ (bench .v).here.csrHeld 0x105 = false ∧ (bench .v).settled ∧ (bench .v).here.vHeld [] [15] [] = false ∧
      (bench .v).here.vHeld [] [] [] = false) :=
  ⟨⟨rfl, by decide, by decide, by decide, trivial, ⟨rfl, rfl⟩⟩, ⟨rfl, ⟨_, rfl⟩, by decide, by decide⟩, ⟨by decide, by decide, rfl⟩,
    ⟨rfl, by decide, by decide, trivial, by decide, by decide⟩⟩

/-- The vector bench with one element of 32 bits and shape register d0 of one FP32 element at 0. -/
def vecBench : State :=
  (bench .v).upHere fun c => { c with vec := { c.vec with vshape := 0x1000 }, d := [(0, 1 <<< 56), (1, 3 <<< 60 ||| 1 <<< 56)] }

theorem vecBench_noSeal : vecBench.here.noSeal := ⟨rfl, fun _ h => absurd h (List.not_mem_nil)⟩

theorem witness_VectorResults :
    (∃ v, vecBench.vecSpec (.vfma 63 ⟨0, 63⟩ ⟨2, 0⟩) = some v ∧ vecBench.cur.st = .v ∧ v.ready = true ∧ v.legal = true ∧ v.inFile = true ∧
      v.held vecBench.here = false ∧ v.fits vecBench.here = true ∧ v.desc = true ∧ vecBench.here.vRoomFor v.writes.length ∧ vecBench.here.noSeal ∧
      vecBench.hitOf 0 .v = none ∧ vecBench.settled) ∧
    (∃ v, vecBench.vecSpec (.vrany ⟨0, 63⟩ 7) = some v ∧ vecBench.cur.st = .v ∧ v.ready = true ∧ v.legal = true ∧ v.inFile = true ∧
      v.held vecBench.here = false ∧ v.fits vecBench.here = true ∧ v.desc = true ∧ vecBench.here.vRoomFor v.writes.length ∧ vecBench.here.noSeal ∧ vecBench.settled) :=
  ⟨⟨_, rfl, rfl, by decide, by decide, by decide, by decide, by decide, by decide, fun _ => by decide, vecBench_noSeal, rfl, trivial⟩,
    ⟨_, rfl, rfl, by decide, by decide, by decide, by decide, by decide, by decide, fun _ => by decide, vecBench_noSeal, trivial⟩⟩

theorem witness_VectorChecks :
    (∃ v, vecBench.vecSpec (.vpop 5 1) = some v ∧ v.ready = false) ∧
    (∃ v s, s = (vecBench.upHere fun c => { c with vec := { c.vec with landing := [⟨1, none, false, [], 0, [], 4, 9, 0, 1, 0⟩] } }) ∧
      s.vecSpec (.vadd 9 ⟨0, 1⟩ ⟨0, 2⟩) = some v ∧ v.legal = true ∧ v.inFile = true ∧ v.held s.here = true) ∧
    (∃ v s, s = (vecBench.upHere fun c => { c with vec := { c.vec with jord := 5 } }) ∧ s.cur.st = .v ∧
      s.vecSpec (.vadd 59 ⟨0, 1⟩ ⟨0, 2⟩) = some v ∧ v.ready = true ∧ v.held s.here = false ∧ s.mayFault ∧ v.inFile = false) ∧
    (∃ v s, s = (vecBench.upHere fun c => { c with vec := { c.vec with vshape := 0x800 } }) ∧ s.cur.st = .v ∧
      s.vecSpec (.vadd 63 ⟨0, 1⟩ ⟨0, 2⟩) = some v ∧ v.ready = true ∧ v.held s.here = false ∧ s.mayFault ∧ v.legal = true ∧ v.inFile = true ∧ v.fits s.here = false) ∧
    (∃ v s, s = (vecBench.upHere fun c => { c with d := [(2, 12 <<< 56)] }) ∧ s.cur.st = .v ∧
      s.vecSpec (.vunpackCb4 5 ⟨0, 1⟩ 2 false 0) = some v ∧ v.ready = true ∧ v.held s.here = false ∧ s.mayFault ∧ v.legal = true ∧ v.inFile = true ∧
      v.fits s.here = true ∧ v.desc = false) ∧
    (∃ v s, s = (vecBench.upHere fun c => { c with vec := { c.vec with vctl := 512, landing := List.replicate 32 ⟨1, some 9, true, [], 0, [], 4, 9, 0, 1, 0⟩ } }) ∧ s.cur.st = .v ∧
      s.vecSpec (.vrany ⟨0, 63⟩ 7) = some v ∧ v.ready = true ∧ v.legal = true ∧ v.inFile = true ∧ v.held s.here = false ∧ v.fits s.here = true ∧ v.desc = true ∧
      s.here.vec.exposed = true ∧ 32 < s.here.vec.landing.length + v.writes.length) :=
  ⟨⟨_, rfl, by decide⟩, ⟨_, _, rfl, rfl, by decide, by decide, by decide⟩, ⟨_, _, rfl, rfl, rfl, by decide, by decide, ⟨rfl, rfl⟩, by decide⟩,
    ⟨_, _, rfl, rfl, rfl, by decide, by decide, ⟨rfl, rfl⟩, by decide, by decide, by decide⟩,
    ⟨_, _, rfl, rfl, rfl, by decide, by decide, ⟨rfl, rfl⟩, by decide, by decide, by decide, by decide +kernel⟩,
    ⟨_, _, rfl, rfl, rfl, by decide, by decide, by decide, by decide, by decide, by decide, by decide, by decide⟩⟩

theorem witness_PackedElements :
    (0 < 4 ∧ (∀ p ∈ [(511, 7), (0, 1)], (p.1 + 1) * 4 ≤ 2048) ∧ ([(511, 7), (0, 1)].map Prod.fst).Nodup ∧ (511 + 1) * 4 ≤ 2048) ∧
    (0 < 1 ∧ (∀ p ∈ [(2047, 7)], (p.1 + 1) * 1 ≤ 2048) ∧ ([(2047, 7)].map Prod.fst).Nodup ∧ (2047 + 1) * 1 ≤ 2048) := by decide

theorem witness_ResultLanding :
    (let l : Landing := ⟨1, some 4, true, [.k 3 9], 1, [], 4, 64, 0, 1, 0⟩
     let s := vecBench.upHere fun c => { c with vec := { c.vec with landing := [l], slot := 4 } }
     (s.ctx 0).vec.landing = [l] ∧ (s.ctx 0).regCheck = [] ∧ l.ready = true ∧ l.err = 0 ∧ l.writes = [.k 3 9] ∧ l.slot = some 4 ∧ 4 ≤ (s.ctx 0).vec.slot) ∧
    (let l : Landing := ⟨1, none, true, [.k 3 9], 1, [], 4, 64, 0, 7, 0⟩
     let s := vecBench.upHere fun c => { c with vec := { c.vec with landing := [l] }, sv := { c.sv with rob := [oneRob] } }
     (s.ctx 0).vec.landing = [l] ∧ l.ready = true ∧ l.err = 0 ∧ l.writes = [.k 3 9] ∧ l.slot = none ∧ (s.ctx 0).sv.rob = [oneRob] ∧ oneRob.id = l.rob ∧
       oneRob.push = 0 ∧ oneRob.eff = [] ∧ oneRob.err = 0) :=
  ⟨⟨rfl, rfl, rfl, rfl, rfl, rfl, by decide⟩, rfl, rfl, rfl, rfl, rfl, rfl, rfl, rfl, rfl, rfl⟩

theorem witness_VectorLoads :
    (vecBench.cur.st = .v ∧ vecBench.settled ∧ vecBench.here.vFree 63 15 ∧ vecBench.here.vRoomFor 1 ∧ vecBench.here.dReady 0 = true ∧
      (descOf (vecBench.here.readD 0)).vecFault vecBench.here.vec (vecBench.here.elemAddrs 0 15) = none ∧
      vecBench.chkBytes 0 0 (((vecBench.here.elemAddrs 0 15).filterMap fun a => a).flatMap (elemVas vecBench.here.vec.wb)) = .ok (List.range 4) 0) ∧
    (∃ s y, s = { vecBench with tiles := [(vecBench.here.tileKey 0 255, { rows := 1, rb := 64 })] } ∧ s.tileOf 0 255 = some y ∧ y.check = [] ∧
      s.vecTileFault 255 (s.here.readK 15) s.here.active = none ∧ s.me.classIdle 15 = true) :=
  ⟨⟨rfl, trivial, ⟨by decide +kernel, by decide +kernel⟩, fun _ => by decide, by decide +kernel, by decide +kernel, by decide +kernel⟩, ⟨_, _, rfl, rfl, rfl, by decide +kernel, by decide +kernel⟩⟩

theorem witness_VectorStores :
    (vecBench.cur.st = .v ∧ vecBench.settled ∧ vecBench.here.vFree 63 15 ∧ vecBench.here.dReady 1 = true ∧ vecBench.here.team.pclass ≠ 2 ∧ vecBench.me.mpos = 0 ∧
      (descOf (vecBench.here.readD 1)).vecFault vecBench.here.vec (vecBench.here.elemAddrs 1 15) = none ∧ (descOf (vecBench.here.readD 1)).bact = 3 ∧
      (∀ e ∈ vecBench.here.active, ((descOf (vecBench.here.readD 1)).bound (descOf (vecBench.here.readD 1)).fmt (vecBench.here.src vecBench.here.vec.wb 0 63 e)).2 = false) ∧
      vecBench.chkBytes 0 1 (((vecBench.here.elemAddrs 1 15).filterMap fun a => a).flatMap (elemVas vecBench.here.vec.wb)) = .ok (List.range 4) 0) :=
  ⟨rfl, trivial, ⟨by decide +kernel, by decide +kernel⟩, by decide +kernel, by decide +kernel, rfl, by decide +kernel, by decide +kernel, by decide +kernel, by decide +kernel⟩

theorem witness_VectorWords :
    (vecBench.cur.st = .v ∧ vecBench.settled ∧ (31 + 1) * (63 + 1) * widthBytes 0 ≤ 2048 ∧ 2048 < (31 + 1) * (63 + 1) * widthBytes 1 ∧ vecBench.mayFault) ∧
    (vecBench.here.vHeld [63] [] [] = false ∧ (vecBench.here.dvb.get (2 * kindOf .v + 1) 0).getLsbD 63 = false) ∧
    (let s := vecBench.upHere fun c => { c with dvb := [(3, 0x8000000000000000)] }
     (s.here.dvb.get (2 * kindOf .v + 1) 0).getLsbD 63 = true ∧ (s.here.rq.get (2 * kindOf .v + 1) []).length < Config.queueDepth) ∧
    (let s := vecBench.upHere fun c => { c with dvb := [(3, 0x8000000000000000)], rq := [(3, List.replicate 8 ⟨4, 0⟩)] }
     (s.here.dvb.get (2 * kindOf .v + 1) 0).getLsbD 63 = true ∧ Config.queueDepth ≤ (s.here.rq.get (2 * kindOf .v + 1) []).length) ∧
    (63 + vecBench.here.vec.ord ≤ 63 ∧ vecBench.here.vHeld (groupOf 63 vecBench.here.vec.ord ++ [vecBench.here.vec.dsel]) [] [] = false ∧ vecBench.here.vec.wcode = 2 ∧
      vecBench.here.vec.gpen = false ∧ vecBench.here.vec.landing = []) :=
  ⟨⟨rfl, trivial, by decide, by decide, ⟨rfl, rfl⟩⟩, ⟨by decide, by decide⟩, ⟨by decide, by decide⟩, ⟨by decide, by decide⟩, by decide, by decide, by decide, by decide, rfl⟩

end Sys2Proof.Tests
end

