-- ==== Sys2Proof/Tests/Witness3.lean ====
section
/-!
SUPPORT. Sys2Proof/Tests/Witness3.lean: states and operands that meet the hypotheses of the statements about the engines and the ordering
machine.
-/

namespace Sys2Proof.Tests

set_option Elab.async false

open Sys2Proof Sys2Proof.Machine

/-- A descriptor of the bench: format, rank 1 less, extents 0 and 1 less, S1 of 64. -/
def benchDesc (fmt rank e0 e1 : Nat) : BitVec 512 := BitVec.ofNat 512 (fmt * 2 ^ 56 + rank * 2 ^ 62 + e0 * 2 ^ 64 + e1 * 2 ^ 80 + 64 * 2 ^ 128)

/-- The bench of an engine stream with shape registers. -/
def engBench (st : Strm) (ds : List (Nat × BitVec 512)) (os : List (Nat × Half)) : State :=
  (bench st).upHere fun c => { c with d := ds, mat := { c.mat with o := os }, cpy := { c.cpy with o := os } }

/-- An entry of an engine's queue that has begun. -/
def entryOf (i : Instr) : QEntry :=
  { id := 7, instr := i, pc := 60, pfx := none, rpt := none, iter := 0, d1 := 0, d2 := 0, d3 := 0, x1 := 0, x2 := 0, offs := [], entered := true
    begun := true, discarded := false, done := false, faulted := false, cpos := 0, spos := 0, perf := 0, row := 0, busy := false, buf := [], bufOk := true
    sigOut := false }

theorem alone_bench (ds os) : (engBench .m ds os).alone := ⟨rfl, rfl, rfl, rfl, ⟨rfl, rfl⟩, ⟨rfl, rfl⟩⟩

theorem alone_benchY (ds os) : (engBench .y ds os).alone := ⟨rfl, rfl, rfl, rfl, ⟨rfl, rfl⟩, ⟨rfl, rfl⟩⟩

theorem witness_EngineQueues :
    (engineWord (bench .m).cur.st (.mma 3 15 15 true 15) = true ∧ ((bench .m).here.queue .m).length < queueCap .m) ∧
    (let s := (bench .y).upHere fun c => { c with cpy := { c.cpy with queue := List.replicate 32 (entryOf (.bwait 0)) } }
     engineWord s.cur.st (.rget 15 15 7 true 7 15) = true ∧ queueCap .y ≤ (s.here.queue .y).length) ∧
    (let p : Rpt := ⟨false, 0, 1, 2, 0, none⟩
     let s := (bench .m).upStrm 0 .m fun x => { x with rpt := some p }
     engineWord s.cur.st (.mma 0 1 2 false 0) = true ∧ s.me.rpt = some p ∧ 1 < p.n ∧ (iteration .m { p with iter := 1 } (.mma 0 1 2 false 0)).isSome = true) := by decide

theorem witness_EngineWords :
    ((∃ f, (engBench .m [] []).engineSpec (.oaddi 15 15 (-131072)) = some f) ∧ (engBench .m [] []).alone) ∧
    ((∃ f, (engBench .y [] []).engineSpec (.bwait 7) = some f) ∧ (engBench .y [] []).alone) ∧
    (∃ f, (engBench .m [] []).engineSpec .sigc = some f) ∧ (∃ f, (engBench .m [] []).engineSpec (.csrwi 0x200 255) = some f) :=
  ⟨⟨⟨_, rfl⟩, alone_bench _ _⟩, ⟨⟨_, rfl⟩, alone_benchY _ _⟩, ⟨_, rfl⟩, ⟨_, rfl⟩⟩

/-- Operands of one BF16 row of one element, and registers for the range. -/
def mmaBench : State := engBench .m [(1, benchDesc 3 1 0 0), (2, benchDesc 3 1 0 0), (3, benchDesc 1 1 0 0)] [(4, 0), (5, 1), (6, 0)]

theorem witness_MatrixMultiply :
    (mmaBench.cur.st = .m ∧ mmaBench.alone ∧ mmaBench.mayFault) ∧
    (∃ acc z cls a b first count, mmaBench.mmaSpec (.mmaRange 1 1 2 4 5 true 0) = some (acc, z, cls, a, b, first, count) ∧ ¬ mmaRefused acc a b first count ∧
      0 < count ∧ mmaBench.chkBytes 0 0 (a.stepVas (a.e1 + 1) (kRange a b first).1 (kRange a b first).2 ++ b.stepVas (b.e1 + 1) (kRange a b first).1 (kRange a b first).2)
        = .ok [0, 1, 0, 1] 0) ∧
    (∃ acc z cls a b first count, mmaBench.mmaSpec (.mmaRange 1 1 2 4 6 false 0) = some (acc, z, cls, a, b, first, count) ∧ ¬ mmaRefused acc a b first count ∧
      count = 0) ∧
    (∃ acc z cls a b first count, mmaBench.mmaSpec (.mma 1 1 4 false 0) = some (acc, z, cls, a, b, first, count) ∧ mmaRefused acc a b first count) :=
  ⟨⟨rfl, alone_bench _ _, ⟨rfl, rfl⟩⟩, ⟨_, _, _, _, _, _, _, rfl, by unfold mmaRefused; decide +kernel, by decide +kernel, by decide +kernel⟩,
    ⟨_, _, _, _, _, _, _, rfl, by unfold mmaRefused; decide +kernel, by decide +kernel⟩, ⟨_, _, _, _, _, _, _, rfl, by unfold mmaRefused; decide +kernel⟩⟩

theorem witness_KStepCommits :
    let q : QEntry := { entryOf (.mma 0 1 2 false 0) with d1 := benchDesc 3 1 0 0, d2 := benchDesc 3 1 0 0, buf := [(0, 0x80), (1, 0x3F), (0, 0x80), (1, 0x3F)] }
    let s := (bench .m).upHere fun c => { c with mat := { c.mat with queue := [q] }, sm := { c.sm with rob := [oneRob] }, team := { c.team with pclass := 1 } }
    let plan := q.mmaPlan q.instr
    let kStep := fun err => (s.ctx 0).mat.kStep 0 plan.1 plan.2.1 q.x1 q.x2 (kRange plan.1 plan.2.1 plan.2.2.1).1 (kRange plan.1 plan.2.1 plan.2.2.1).2 q.data true err
    (s.ctx 0).regCheck = [] ∧ s.hitOf 0 .m = none ∧ (s.ctx 0).team.pclass = 1 ∧ (kStep none).2 = true ∧ (kStep (some (0, 1))).2 = false ∧
      (kStep (some (0, 0))).2 = true ∧ ((s.ctx 0).frec.get 1 {}).valid = false ∧
      (let h : Hit := ⟨0, .m, 0, 1, 0⟩; ({ s with hits := [h] } : State).hitOf 0 .m = some h) ∧ (s.ctx 0).mat.queue = [q] ∧ q.done = false ∧ q.bufOk = true ∧ mmaAcc q.instr = some 0 ∧ q.rpt = none ∧
      ((q.mmaPlan q.instr).2.2.2 = some 1 ∧ 1 ≤ q.cpos + 1) ∧ (s.ctx 0).sm.faulted = false ∧ (s.ctx 0).sm.rob = [oneRob] ∧
      oneRob.id = q.id ∧ oneRob.eff = [] ∧ oneRob.push = 0 :=
  ⟨rfl, rfl, rfl, by decide +kernel, by decide +kernel, by decide +kernel, rfl, rfl, rfl, rfl, rfl, rfl, rfl, by decide +kernel, rfl, rfl, rfl, rfl, rfl⟩

/-- A bench for the drains: d1 of one FP32 row of one element, d2 with a format that no drain writes. -/
def drainBench : State :=
  { engBench .m [(1, benchDesc 1 1 0 0), (2, benchDesc 9 1 0 0)] [] with
    tiles := [((bench .m).here.tileKey 0 255, { rows := 128, rb := 256 }), ((bench .m).here.tileKey 0 0, { rows := 127, rb := 256 })] }

theorem witness_MatrixDrains :
    (drainBench.cur.st = .m ∧ drainBench.alone ∧ drainBench.here.team.pclass ≠ 2 ∧ drainBench.mayFault) ∧
    (let d := descOf (drainBench.here.readD 1)
     ¬ (d.bad = true ∨ drainFits (drainBench.here.mat.tag 3) d.fmt = false ∨ 64 < d.e0 + 1 ∨ 128 < d.e1 + 1 ∨ d.rows ≤ (drainBench.here.readO .m 15).toNat + d.e1) ∧
       d.bact ≠ 3 ∧ (∀ m, m ≤ d.e1 → drainBench.chkBytes 0 1 ((List.range (drainBench.here.mat.drainRow 3 d.fmt 0 (d.e0 + 1) m (some d)).bytes.length).map
         (d.rowAddr ((drainBench.here.readO .m 15).toNat + m) + ·) ++ (List.range (drainBench.here.mat.drainRow 3 d.fmt 0 (d.e0 + 1) m (some d)).scales.length).map
         (d.scaleAddr ((drainBench.here.readO .m 15).toNat + m) + ·)) = .ok [0, 1, 2, 3] 0)) ∧
    (let d := descOf (drainBench.here.readD 2)
     d.bad = true ∨ drainFits (drainBench.here.mat.tag 3) d.fmt = false ∨ 64 < d.e0 + 1 ∨ 128 < d.e1 + 1 ∨ d.rows ≤ (drainBench.here.readO .m 15).toNat + d.e1) ∧
    (drainFits (drainBench.here.mat.tag 3) 9 = false) ∧
    (∃ y, drainFits (drainBench.here.mat.tag 3) 1 = true ∧ drainBench.tileOf 0 255 = some y ∧ y.check = [] ∧
      y.covers (drainBench.here.readO .m 15).toNat 128 (rowSpan 1 64) = true ∧ drainBench.me.classIdle 15 = true) ∧
    (∀ y, drainBench.tileOf 0 0 = some y → y.covers (drainBench.here.readO .m 15).toNat 128 (rowSpan 1 64) = false) :=
  ⟨⟨rfl, ⟨rfl, rfl, rfl, rfl, ⟨rfl, rfl⟩, ⟨rfl, rfl⟩⟩, by decide, ⟨rfl, rfl⟩⟩, by decide +kernel, by decide +kernel, by decide +kernel,
    ⟨_, by decide +kernel, rfl, rfl, by decide +kernel, by decide +kernel⟩, by
      intro y hy
      have : y = { rows := 127, rb := 256 } := by
        have h : drainBench.tileOf 0 0 = some { rows := 127, rb := 256 } := by decide +kernel
        rw [h] at hy; exact (Option.some.inj hy).symm
      subst this; decide +kernel⟩

/-- A bench with a tile of 128 rows of 256 bytes, offsets 0 and 1, and bound queues. -/
def queueBench (st : Strm) (os : List (Nat × Half)) : State :=
  { ((engBench st [] os).upHere fun c => { c with dvb := [(1, 0x8000000000000000), (5, 0x8000000000000000)], oq := [(1, [⟨256, 0⟩]), (0, [⟨4, 0⟩])] }) with
    tiles := [((bench .m).here.tileKey 0 255, { rows := 128, rb := 256 })] }

theorem witness_EngineTiles :
    (∃ y, (queueBench .m [(15, 1)]).alone ∧ (queueBench .m [(15, 1)]).tileOf 0 255 = some y ∧ y.check = [] ∧ (queueBench .m [(15, 1)]).cur.st = .m ∧
      (queueBench .m [(15, 1)]).me.classIdle 15 = true ∧ y.covers ((queueBench .m [(15, 1)]).here.readO .m 14).toNat 128 256 = true ∧
      ((queueBench .m [(15, 1)]).here.readO .m 15).toNat ≠ 0 ∧ ((queueBench .m [(15, 1)]).here.readO .m 15).toNat * y.rb ≤ 2048 ∧
      ((queueBench .m [(15, 1)]).here.dvb.get (2 * kindOf .m + 1) 0).getLsbD 63 = true ∧ y.covers ((queueBench .m [(15, 1)]).here.readO .m 14).toNat 1 y.rb = true ∧
      ((queueBench .m [(15, 1)]).here.rq.get (2 * kindOf .m + 1) []).length < Config.queueDepth ∧ (queueBench .m [(15, 1)]).mayFault ∧
      ((queueBench .m [(15, 1)]).here.dvb.get (2 * kindOf .m + 0) 0).getLsbD 63 = false ∧
      (queueBench .m [(15, 1)]).here.oq.get (2 * kindOf .m + 1) [] = [⟨256, 0⟩] ∧ 256 = ((queueBench .m [(15, 1)]).here.readO .m 15).toNat * y.rb ∧
      (queueBench .m [(15, 1)]).here.oq.get (2 * kindOf .m + 0) [] = [⟨4, 0⟩] ∧ 4 ≠ ((queueBench .m [(15, 1)]).here.readO .m 15).toNat * y.rb) :=
  ⟨_, ⟨rfl, rfl, rfl, rfl, ⟨rfl, rfl⟩, ⟨rfl, rfl⟩⟩, rfl, rfl, rfl, by decide, by decide, by decide, by decide, by decide, by decide, by decide, ⟨rfl, rfl⟩, by decide, rfl,
    by decide, rfl, by decide⟩

/-- A copy bench: d1 and d2 of one FP32 row of one element; the pair o14, o15 selects one row, o0, o1 none. -/
def copyBench : State := engBench .y [(1, benchDesc 1 1 0 0), (2, benchDesc 1 1 0 0), (3, benchDesc 2 1 0 0)] [(15, 1), (1, 0)]

/-- The entry that a copy of the bench samples. -/
def sampled (i : Instr) : QEntry :=
  { entryOf i with d1 := copyBench.here.readD ((shapeRegs i).getD 0 0), d2 := copyBench.here.readD ((shapeRegs i).getD 1 0), d3 := copyBench.here.readD ((shapeRegs i).getD 2 0) }

theorem witness_CopiesBegin :
    (copyBench.cur.st = .y ∧ copyBench.alone ∧ copyBench.here.team.pclass ≠ 2 ∧ copyBench.mayFault) ∧
    (let i : Instr := .cpyTensorTensor 1 2 0 true false 0 0
     engineWord .y i = true ∧ (∃ p, (sampled i).copyPlan i = some p) ∧ (copyBench.here.readO .y ((offsetReads i).getD 1 0)).toNat = 0) ∧
    (let i : Instr := .cpyTensorTensor 1 2 7 true true 7 15
     engineWord .y i = true ∧ ∃ p d, (sampled i).copyPlan i = some p ∧ (copyBench.here.readO .y ((offsetReads i).getD 1 0)).toNat ≠ 0 ∧
       copyBench.copyFault 0 p (copyBench.copyWidth 0 p) (copyBench.here.readO .y ((offsetReads i).getD 0 0)).toNat
         (copyBench.here.readO .y ((offsetReads i).getD 1 0)).toNat = none ∧ p.src = .tensor d ∧
       copyBench.chkBytes 0 0 (d.rowVas (copyBench.here.readO .y ((offsetReads i).getD 0 0)).toNat 0 (copyBench.copyWidth 0 p)) = .ok [0, 1, 2, 3] 0) ∧
    (let i : Instr := .cpyTensorTensor 1 3 7 true false 0 0
     engineWord .y i = true ∧ ∃ p r, (sampled i).copyPlan i = some p ∧ (copyBench.here.readO .y ((offsetReads i).getD 1 0)).toNat ≠ 0 ∧
       copyBench.copyFault 0 p (copyBench.copyWidth 0 p) (copyBench.here.readO .y ((offsetReads i).getD 0 0)).toNat
         (copyBench.here.readO .y ((offsetReads i).getD 1 0)).toNat = some r) :=
  ⟨⟨rfl, alone_benchY _ _, by decide, ⟨rfl, rfl⟩⟩, ⟨by decide, ⟨_, rfl⟩, by decide +kernel⟩, ⟨by decide, _, _, rfl, by decide +kernel, by decide +kernel, rfl, by decide +kernel⟩,
    ⟨by decide, _, { cause := cDESC }, rfl, by decide +kernel, by decide +kernel⟩⟩

theorem witness_BytesCommit :
    let q : QEntry := { entryOf (.cpyTensorTensor 1 2 7 true true 7 0) with perf := 1 }
    let s := (bench .y).upHere fun c => { c with cpy := { c.cpy with queue := [q] } }
    (s.ctx 0).cpy.queue = [q] ∧ q.done = false ∧ 0 < q.perf := ⟨rfl, rfl, by decide⟩

/-- A bench for weight queries: d1 MX8 of one row of 32 elements at 0 with scales at 4096; window of 64 KiB. -/
def queryBench : State :=
  let d : BitVec 512 := benchDesc 10 1 31 0 + BitVec.ofNat 512 (4096 * 2 ^ 320 + 64 * 2 ^ 376)
  let s := engBench .m [(1, d), (2, benchDesc 1 1 0 0)] []
  { s with pf := { s.pf with wwin := [(0, { w0 := 0, w1 := 1 })] } }

theorem witness_WeightQueriesAndPrefetch :
    (let s := queryBench; let a := descOf (s.here.readD 1); let w := descOf (s.here.readD 1); let o := (s.here.readO .m 15).toNat
     s.cur.st = .m ∧ ¬ (a.bad = true ∨ w.bad = true ∨ (a.fmt ≠ 10 ∧ a.fmt ≠ 11) ∨ (w.fmt ≠ 10 ∧ w.fmt ≠ 11) ∨ a.e0 ≠ w.e0 ∨ 128 < a.e1 + 1 ∨ w.e1 < o ∨
       s.inWindow s.here.vf w o (Nat.min 64 (w.e1 + 1 - o)) = false) ∧ s.isLive (16 + dieOf s.cur.ctx) = true ∧
       s.chkBytes s.cur.ctx 0 (a.stepVas (a.e1 + 1) 0 (a.e0 + 1)) = .ok (List.range 32 ++ [4096]) 0) ∧
    (queryBench.alone ∧ queryBench.mayFault ∧ (descOf (queryBench.here.readD 2)).fmt ≠ 10 ∧ (descOf (queryBench.here.readD 2)).fmt ≠ 11) ∧
    (let s : State := { queryBench with pf := { queryBench.pf with left := [16] } }; s.isLive (16 + dieOf s.cur.ctx) = false) ∧
    (let s : State := { queryBench with fab := { queryBench.fab with linksDown := [(0, 16)] } }
     s.isLive (16 + dieOf s.cur.ctx) = true ∧ (dieOf s.cur.ctx, 16 + dieOf s.cur.ctx) ∈ s.fab.linksDown) ∧
    (let q : QEntry := { entryOf (.wq 0 1 1 15 0) with d1 := queryBench.here.readD 1, d2 := queryBench.here.readD 1 }
     let s := queryBench.upHere fun c => { c with mat := { c.mat with queue := [q] }, sm := { c.sm with rob := [oneRob] } }
     (s.ctx 0).mat.queue = [q] ∧ q.done = false ∧ q.bufOk = true ∧ q.rpt = none ∧ (s.ctx 0).sm.faulted = false ∧ (s.ctx 0).sm.rob = [oneRob] ∧ oneRob.id = q.id ∧
       oneRob.eff = [] ∧ oneRob.push = 0 ∧ (s.ctx 0).team.pclass ≠ 2 ∧ (s.ctx 0).regCheck = [] ∧ s.hitOf 0 .m = none) ∧
    (copyBench.cur.st = .y ∧ copyBench.alone ∧ (descOf (benchDesc 12 1 0 0)).bad = true ∧ (descOf (copyBench.here.readD 1)).bad = false ∧
      (∀ a ∈ ((List.range (copyBench.here.readO .y 15).toNat).filter fun r => decide ((copyBench.here.readO .y 14).toNat + r < (descOf (copyBench.here.readD 1)).rows)).flatMap
          fun r => (descOf (copyBench.here.readD 1)).rowVas ((copyBench.here.readO .y 14).toNat + r) 0
          (rowSpan (descOf (copyBench.here.readD 1)).fmt ((descOf (copyBench.here.readD 1)).e0 + 1)),
        copyBench.chkBytes 0 0 [a / 64 * 64] = .ok [0] 0 ∧ copyBench.chkBytes 0 0 ((List.range 64).map (a / 64 * 64 + ·)) = .ok (List.range 64) 0)) :=
  ⟨⟨rfl, by decide +kernel, by decide +kernel, by decide +kernel⟩, ⟨⟨rfl, rfl, rfl, rfl, ⟨rfl, rfl⟩, ⟨rfl, rfl⟩⟩, ⟨rfl, rfl⟩, by decide +kernel, by decide +kernel⟩, by decide +kernel, ⟨by decide +kernel, by decide +kernel⟩,
    ⟨rfl, rfl, rfl, rfl, rfl, rfl, rfl, rfl, rfl, by decide +kernel, rfl, rfl⟩, rfl, alone_benchY _ _, by decide +kernel, by decide +kernel, by decide +kernel⟩

end Sys2Proof.Tests
end

