-- ==== Sys2Proof/Tests/Witness4.lean ====
section
/-!
SUPPORT. Sys2Proof/Tests/Witness4.lean: states that meet the hypotheses of the statements about the ordering machine.
-/

namespace Sys2Proof.Tests

set_option Elab.async false

open Sys2Proof Sys2Proof.Machine

/-- Four bytes of line 0. -/
def b4 : List (Nat × Byte) := [(0, 1), (1, 2), (2, 3), (3, 4)]

/-- An access of 4 bytes at location 0. -/
def acc4 (kind : AccKind) (sink : Sink) : Access := newAccess 9 15 kind [⟨0, b4⟩] sink 0 60 0 0

/-- Line 0 is VALID in the view of die 0. -/
def seen : AMap (AMap DvByte) := [(0, (List.range 64).map fun l => (l, { valid := true, val := BitVec.ofNat 8 l }))]

/-- The bench with accesses in the class queues of its control stream. -/
def accBench (as_ : List Access) : State :=
  let s := (bench .c).upHere fun c => { c with sc := { c.sc with cq := as_ }, gpend := [(31, 9)] }
  { s with ord := { s.ord with dv := seen } }

theorem witness_ViewReads :
    (let a := acc4 .read (.gReg 31 4 true); let s := accBench [a]
     (s.strm 0 .c).queues [] a [] ∧ (s.strm 0 .c).classHead 15 = some a ∧ a.kind = .read ∧ a.acq = false ∧ a.err = 0 ∧ a.parts = [⟨0, b4⟩] ∧
       (∀ b ∈ b4, s.canRead 0 b.1 = true) ∧ s.ord.dvCheck.get 0 [] = [] ∧ a.sink = .gReg 31 4 true ∧
       (s.ctx 0).gpend.contains (31, a.id) = true) ∧
    (let a := { acc4 .read (.gReg 31 4 true) with parts := [⟨0, [(63, 0)]⟩, ⟨1, [(64, 0)]⟩] }; let s := accBench [a]
     (s.strm 0 .c).queues [] a [] ∧ (s.strm 0 .c).classHead 15 = some a ∧ s.canRead 0 63 = true ∧ [(⟨1, [(64, 0)]⟩ : Sys2Proof.Machine.Part)] ≠ []) ∧
    (let a := acc4 .read (.land 1); let l : Landing := ⟨1, none, false, [], 0, [(0, [0, 1, 2, 3])], 4, 9, 60, 9, 0⟩
     let s := (bench .v).upHere fun c => { c with sv := { c.sv with cq := [a] }, vec := { c.vec with landing := [l] } }
     (s.strm 0 .v).queues [] a [] ∧ (s.strm 0 .v).classHead 15 = some a ∧ a.sink = .land 1 ∧ (s.ctx 0).vec.landing = [l] ∧ l.tag = 1) ∧
    (let a := { acc4 .read (.gReg 31 4 true) with parts := [⟨1, [(64, 0)]⟩] }; let s := accBench [a]
     (s.strm 0 .c).classHead 15 = some a ∧ (s.dvByte 0 64).readable = false ∧ (0, 1) ∉ s.ord.fills ∧ s.maySend 0 ∧
       (0, 1) ∈ ({ s with ord := { s.ord with fills := [(0, 1)] } } : State).ord.fills) :=
  ⟨⟨⟨rfl, by decide⟩, by decide, rfl, rfl, rfl, rfl, by decide, rfl, rfl, by decide⟩, ⟨⟨rfl, by decide⟩, by decide, by decide, by decide⟩,
    ⟨⟨rfl, by decide⟩, by decide, rfl, rfl, rfl⟩, by decide, by decide, by decide, ⟨by decide, by decide⟩, by decide⟩

theorem witness_StoresIssue :
    (let a := acc4 .early .none; let s := accBench [a]
     (s.strm 0 .c).queues [] a [] ∧ (s.strm 0 .c).classHead 15 = some a ∧ a.err = 0 ∧ s.maySend 0 ∧ a.kind = .early ∧ a.sent = none ∧ a.sink = .none ∧
       (b4.map Prod.fst).Nodup ∧ s.ord.dvCheck.get 0 [] = []) ∧
    (let a := acc4 .global .none; let s := accBench [a]
     (s.strm 0 .c).queues [] a [] ∧ (s.strm 0 .c).classHead 15 = some a ∧ a.err = 0 ∧ a.kind.isGlobal = true ∧ a.sent = none ∧ a.acq = false) ∧
    (let a := { acc4 .remote .none with rob := 0 }; let s := accBench [a]
     (s.strm 0 .c).queues [] a [] ∧ (s.strm 0 .c).classHead 15 = some a ∧ a.kind = .remote ∧ a.sent = none ∧ a.acq = false ∧ a.sink = .none ∧ a.rob = 0) :=
  ⟨⟨⟨rfl, by decide⟩, by decide, rfl, ⟨by decide, by decide⟩, rfl, rfl, rfl, by decide, rfl⟩, ⟨⟨rfl, by decide⟩, by decide, rfl, rfl, rfl, rfl⟩,
    ⟨⟨rfl, by decide⟩, by decide, rfl, rfl, rfl, rfl, rfl⟩⟩

theorem witness_GlobalsReturn :
    (let a := { acc4 (.amo 0 1 0) (.gOld 31) with wait := [0], sent := some 0 }; let d : Dn := ⟨0, 0, .ga 9 [5, 0, 0, 0, 0, 0, 0, 0], false, 0⟩
     let s : State := { accBench [a] with ord := { (accBench [a]).ord with dn := [d] } }
     (s.strm 0 .c).queues [] a [] ∧ s.dnHead 0 0 = some d ∧ s.awaiting 0 9 0 = some (0, .c, a) ∧ a.wait = [0] ∧ a.err = 0 ∧
       newBytes a.kind b4 [5, 0, 0, 0, 0, 0, 0, 0] = some [(0, 6), (1, 0), (2, 0), (3, 0)] ∧
       ([(0, 6), (1, 0), (2, 0), (3, 0)].map (Prod.fst : Nat × Byte → Nat)).Nodup ∧ (s.ctx 0).gpend.contains (31, a.id) = true) ∧
    (let a := { acc4 .global .none with wait := [0], sent := some 0 }; let s := accBench [a]
     (s.strm 0 .c).queues [] a [] ∧ (s.strm 0 .c).classHead 15 = some a ∧ a.sent = some 0 ∧ (s.cycle 0).toNat < 0 + 2 ^ 24 ∧
       0 + 2 ^ 24 ≤ ((({ s with now := 2 ^ 24 } : State)).cycle 0).toNat ∧ a.held = false ∧ a.sink = .none) ∧
    (let a := { acc4 (.fence 1 4) .none with parts := [] }; let s := accBench [a]
     (s.strm 0 .c).queues [] a [] ∧ (s.strm 0 .c).classHead 0 = some a ∧ a.kind = .fence 1 4 ∧ (s.strm 0 .c).syncDue 1 = false ∧ a.sink = .none ∧
       (∀ c ∈ a.classes, (s.strm 0 .c).classHead c = some a) ∧ (s.strm 0 .c).outE = [] ∧ (s.strm 0 .c).obs = [] ∧ (s.strm 0 .c).outR = []) ∧
    (let a := { acc4 (.fence 1 3) .none with parts := [] }; let s := (accBench [a]).upStrm 0 .c fun x => { x with outE := [⟨3, 0, 0, 0⟩] }
     (s.strm 0 .c).classHead 0 = some a ∧ ¬ (∀ o ∈ (s.strm 0 .c).outE, (1).testBit o.cls = false)) :=
  ⟨⟨⟨rfl, by decide⟩, by decide, by decide, rfl, rfl, by decide, by decide, by decide⟩, ⟨⟨rfl, by decide⟩, by decide, rfl, by decide, by decide, rfl, rfl⟩,
    ⟨⟨rfl, by decide⟩, by decide, rfl, by decide, rfl, by decide, rfl, rfl, rfl⟩, by decide, by decide⟩

/-- The bench with messages on the up channels and on the down channels. -/
def msgBench (up : List Up) (dn : List Dn) : State := { bench .c with ord := { (bench .c).ord with up := up, dn := dn, dv := seen } }

theorem msgBench_memWf (up dn) : (msgBench up dn).memWf := ⟨rfl, rfl, rfl⟩

theorem witness_HomeOrders :
    (let u : Up := ⟨0, 0, 0, .e 5 [(0, 1), (63, 2)], false, 0⟩; let s := msgBench [u] []
     s.arrives 0 0 u 0 0 ∧ ([(0, 1), (63, 2)].map (Prod.fst : Nat × Byte → Nat)).Nodup ∧ s.migrating 0 = false) ∧
    (let u : Up := ⟨0, 0, 0, .e 5 [(0, 1)], false, 0⟩
     let s : State := { msgBench [u] [] with mem := { (bench .c).mem with mig := [(0, { phase := 1, slot := 0 })] } }
     s.arrives 0 0 u 0 0 ∧ s.migrating 0 = true) ∧
    (let s : State := { msgBench [⟨1, 0, 0, .ua 5, false, 0⟩] [] with ord := { (msgBench [⟨1, 0, 0, .ua 5, false, 0⟩] []).ord with ua := [(0, 5, 0, [1])] } }
     s.ord.ua.find? (fun u => u.1 == 0 && u.2.1 == 5) = some (0, 5, 0, [1]) ∧ ∀ x ∈ [1], s.isLive x = true → (∃ u ∈ s.ord.up, u.die = x ∧ u.line = 0 ∧ u.msg = .ua 5) ∧
       s.slotOpen (Config.memDie (s.lineHome 0)) (s.lineVf 0) = true) ∧
    (let s : State := { bench .c with ord := { (bench .c).ord with ua := [(0, 5, 0, [1])] } }
     ∃ x ∈ [1], s.isLive x = true ∧ ∀ u ∈ s.ord.up, ¬ (u.die = x ∧ u.line = 0 ∧ u.msg = .ua 5)) ∧
    (let u : Up := ⟨0, 0, 0, .g 5 0 .global [(0, 1)], false, 0⟩; let s := msgBench [u] []; s.arrives 0 0 u 0 0 ∧ s.migrating 0 = false) ∧
    (let h : Hold := ⟨5, 0, 0, 0, .amo 0 1 0, [(0, 1)], []⟩
     let s : State := { bench .c with ord := { (bench .c).ord with held := [(0, h)] } }
     s.ord.held.find? (fun x => x.1 == 0) = some (0, h) ∧ h.bytes = [(0, 1)] ∧ s.homeOf h.die h.vf (0 * 64 / 2 ^ 21) = .at_ 0 0 ∧ s.mem.hbmCheck = [] ∧ s.memWf ∧
       s.migrating 0 = false ∧ s.slotOpen (Config.memDie (s.lineHome 0)) h.vf = true) ∧
    (let u : Up := ⟨0, 0, 0, .f, false, 0⟩; (msgBench [u] []).arrives 0 0 u 0 0) :=
  ⟨⟨⟨by decide, by decide, by decide, by decide, by decide, rfl, msgBench_memWf _ _⟩, by decide, by decide⟩, ⟨⟨by decide, by decide, by decide, by decide, by decide, rfl, msgBench_memWf [] []⟩, by decide⟩,
    ⟨by decide, by decide⟩, by decide, ⟨⟨by decide, by decide, by decide, by decide, by decide, rfl, msgBench_memWf _ _⟩, by decide⟩,
    ⟨by decide, rfl, by decide, rfl, msgBench_memWf [] [], by decide, by decide⟩, ⟨by decide, by decide, by decide, by decide, by decide, rfl, msgBench_memWf _ _⟩⟩

theorem witness_ViewTakes :
    (msgBench [] []).kHeld 0 0 = false ∧
    (∀ m ∈ [DnMsg.u 5 [(0, 1), (63, 2)], .c 5, .i 5, .fr [(0, 1, 0, true), (1, 2, 5, false)] [], .p 5],
      (msgBench [] [⟨0, 0, m, false, 0⟩]).dnHead 0 0 = some ⟨0, 0, m, false, 0⟩) ∧
    ([(0, 1), (63, 2)].map (Prod.fst : Nat × Byte → Nat)).Nodup ∧
    (∀ b ∈ [(0, (1 : Byte), 0, true), (1, 2, 5, false)], b.2.2.2 = true → b.2.2.1 = 0) ∧
    ((msgBench [] []).ctxs.any fun e => e.1 == 0) = true ∧
    ((msgBench [] []).upStrm 0 .c fun x => { x with outE := [⟨5, 0, 0, 0⟩] }).issuedOn 0 5 = true := by decide

theorem witness_ErrorsAndChecks :
    (let u : Up := ⟨0, 0, 0, .k, false, 0⟩; (msgBench [u] []).ord.up.find? (fun u => u.die == 0 && u.line == 0 && decide (u.msg = UpMsg.k)) = some u) ∧
    (let s : State := { msgBench [] [⟨0, 0, .kr [5] [], false, 0⟩] with ord := { (msgBench [] [⟨0, 0, .kr [5] [], false, 0⟩]).ord with kHold := [⟨0, 0, []⟩] } }
     s.dnHead 0 0 = some ⟨0, 0, .kr [5] [], false, 0⟩ ∧ ∀ h ∈ s.ord.kHold, h.die = 0 → h.line = 0 → h.recd = []) ∧
    (∀ m ∈ [DnMsg.err 5 false true 2, .err 0 true false 6, .err 9 false false 4], (msgBench [] [⟨0, 0, m, false, 0⟩]).dnHead 0 0 = some ⟨0, 0, m, false, 0⟩) ∧
    (∀ cls < 16, ∀ st : Strm, ((msgBench [] []).strm 0 st).classHead cls = none) ∧
    (let a := { acc4 .global .none with wait := [0], sent := some 0 }; let s := accBench [a]
     (s.strm 0 .c).queues [] a [] ∧ s.awaiting 0 9 0 = some (0, .c, a) ∧ a.wait = [0] ∧ a.err = 0 ∧ a.sink = .none) ∧
    (let s := (bench .y).upStrm 0 .y fun x => { x with outR := [⟨5, 0, 0, 0⟩] }; ((s.strm 0 .y).outR.any fun o => o.id == 5) = true) :=
  ⟨by decide, by decide, by decide, by intro cls h st; cases st <;> rfl, ⟨⟨rfl, by decide⟩, by decide, rfl, rfl, rfl⟩, by decide⟩

end Sys2Proof.Tests
end

