-- ==== Sys2Proof/Tests/Witness5.lean ====
section
/-!
SUPPORT. Sys2Proof/Tests/Witness5.lean: states that meet the hypotheses of the statements about translation, granules, stored words, function
windows and command queues.
-/

namespace Sys2Proof.Tests

set_option Elab.async false

open Sys2Proof Sys2Proof.Machine

/-- The bench with address-space entry 0 valid and its level-0 table at 0. -/
def walkBench (bs : List Byte) : State :=
  let s := (bench .c).putCode 0 (bs ++ List.replicate (8 - bs.length) 0)
  { s with pf := { s.pf with ase := [(0, { w0 := 0x80000000, w1 := 0 })] } }

/-- A miss on page 0 of identifier 0. -/
def miss0 : Miss := ⟨0, 0, 0⟩

theorem witness_TranslationEvents :
    (((bench .c).pf.ase.get 0 {}).w0.getLsbD 31 = false) ∧
    (((walkBench []).pf.ase.get 0 {}).w0.getLsbD 31 = true ∧ fld ((walkBench []).pf.ase.get 0 {}).w0.toNat 0 9 = 0 ∧ (walkBench []).leads 0 0 0 0 0 [] 0 ∧
      (walkBench []).tableEntry 0 0 (entryAddr 0 0 0) = (.page 0 0 true true true, 0) ∧ bit 0 0 = false) ∧
    ((walkBench [3]).tableEntry 0 0 (entryAddr 0 0 0) = (.page 0 0 true true true, 3) ∧ bit 3 0 = true ∧ malformed 0 3) ∧
    ((((walkBench [1, 0, 1]).putCode 0x10000 [7, 0, 0, 0, 0, 0, 0, 0]).leads 0 0 0 0 0 [0x10001] 0x10000) ∧
      ((walkBench [1, 0, 1]).putCode 0x10000 [7, 0, 0, 0, 0, 0, 0, 0]).tableEntry 0 0 (entryAddr 0 0x10000 1) = (.page 0 0 true true true, 7) ∧ bit 7 0 = true ∧ ¬ malformed 1 7 ∧ bit 7 1 = true) ∧
    (let s : State := { (walkBench [1, 0, 1]).putCode 0x10000 [7, 0, 0, 0, 0, 0, 0, 0] with mem := { ((walkBench [1, 0, 1]).putCode 0x10000 [7, 0, 0, 0, 0, 0, 0, 0]).mem with missq := [(0, [miss0])], tlb := [] } }
     s.mem.missq.get 0 [] = [miss0] ∧ s.ord.dvCheck.get 0 [] = [] ∧ s.walk 0 0 0 0 = .page 0 30 true false false ∧ s.isSealed 0 = false ∧ s.sealedVfs = [] ∧
       (s.mem.tlb.get 0 []).length < Config.tlbEntries) ∧
    ((walkBench []).walk 0 0 0 0 = .bad 0 0) ∧
    (let s : State := { (walkBench [1, 0, 1]).putCode 0x10000 [7, 0, 0, 0, 0, 0, 0, 0] with ord := { (bench .c).ord with dv := [] } }
     ∃ line, s.walk 0 0 0 0 = .wait line) ∧
    (let s := (bench .c).upHere fun c => { c with tlbinv := 0xC000000000000000 }
     (s.ctx 0).tlbinv.getLsbD 63 = true ∧ fld (s.ctx 0).tlbinv.toNat 61 2 = 2 ∧ s.isLive 0 = true ∧ ∃ e ∈ s.mem.tlb.get 0 [], e.vf = (s.ctx 0).vf) ∧
    (let s := (bench .c).upHere fun c => { c with tlbinv := 0x8000000000000000 + 0x0010000000000000 }
     (s.ctx 0).tlbinv.getLsbD 63 = true ∧ fld (s.ctx 0).tlbinv.toNat 61 2 = 0 ∧ ∀ d ∈ s.mem.tlb, s.isLive d.1 = true → ∀ e ∈ d.2, ¬ e.asid = fld (s.ctx 0).tlbinv.toNat 52 9) ∧
    (let s : State := { bench .c with mem := { (bench .c).mem with served := [(3, 2 ^ 20)], missSig := [(3, 1)], since := [(3, 2 ^ 16)] } }
     2 ^ 20 ≤ s.mem.served.get 3 0 ∧ s.mem.missSig.get 3 0 ≠ 0 ∧ 2 ^ 16 ≤ s.mem.since.get 3 0) ∧
    ((bench .c).mem.served.get 3 0 < 2 ^ 20 ∧ (bench .c).mem.missSig.get 3 0 = 0 ∧ (bench .c).mem.since.get 3 0 < 2 ^ 16) :=
  ⟨by decide, ⟨by decide, by decide, rfl, by decide, by decide⟩, ⟨by decide, by decide, by unfold malformed; decide⟩,
    ⟨⟨by decide, by decide, by decide, by unfold malformed; decide, (by decide : entryTarget 0x10001 = 0x10000)⟩, by decide, by decide, by unfold malformed; decide, by decide⟩,
    ⟨by decide, rfl, by decide, by decide, by decide, by decide⟩, by decide, ⟨0, by decide⟩, ⟨by decide, by decide, by decide, by decide⟩, ⟨by decide, by decide, by decide⟩,
    ⟨by decide, by decide, by decide⟩, by decide, by decide, by decide⟩

/-- Every frame of memory die 1 is taken. -/
def fullMap : AMap (BitVec 32) := (List.range (2 ^ 11)).map fun w => (2 ^ 11 + w, 0)

theorem get_taken (l : List Nat) (w : Nat) (h : w ∈ l) : AMap.get (l.map fun w => (2 ^ 11 + w, (0 : BitVec 32))) (2 ^ 11 + w) 0xFFFFFFFF = 0 := by
  induction l with
  | nil => cases h
  | cons a r ih =>
    rw [List.map_cons, AMap.get]
    split
    · rfl
    · rename_i hne
      refine ih ?_
      cases h with
      | head => exact absurd rfl hne
      | tail _ h => exact h

theorem lowestFree_full (b : State) (m : AMap (BitVec 32)) (h : ∀ w ∈ List.range (2 ^ 11), m.get (2 ^ 11 + w) 0xFFFFFFFF = 0) :
    ({ b with mem := { b.mem with ffmap := m } } : State).lowestFree 1 = none := by
  have : ((List.range (2 ^ 11)).find? fun w => decide (({ b with mem := { b.mem with ffmap := m } } : State).ffWord 1 w ≠ 0)) = none := by
    refine List.find?_eq_none.2 fun w hw => ?_
    rw [State.ffWord, Nat.one_mul, h _ hw]
    decide
  rw [State.lowestFree, this]; rfl

/-- The bench with a migration of slot 0 from memory die 0. -/
def migBench (g : MigSt) : State := { bench .c with mem := { (bench .c).mem with home := [(0, 0x80000000)], mig := [(0, g)] }, pf := { (bench .c).pf with migEn := true } }

/-- The bench with a home-table write of slot 5 that waits, and another under way or none. -/
def waitBench (busy : Option (Nat × BitVec 32)) : State :=
  { bench .c with mem := { (bench .c).mem with homeWait := [(5, 3)], homeWrite := busy, mig := [(0, { phase := 2, dest := 1, slot := 5, oldFrame := 7 })] } }

/-- The bench with a touch of slot 0 in a home-table state of its own. -/
def touchBench (e : BitVec 32) : State :=
  let s := asPriv (bench .c)
  { s with mem := { s.mem with homeCopy := [(0, [(0, e)])], home := [(0, e)] }, ord := { s.ord with up := [⟨0, 0, 0, .f, false, 0⟩] } }

theorem witness_GranuleEvents :
    (262143 < Config.slots ∧ (bench .c).mem.homeWrite = none ∧ (bench .c).mem.homeWait = [] ∧ (bench .c).migrating (262143 * 2 ^ 15) = false) ∧
    ((migBench { phase := 1 }).mem.homeWait = [] ∧ (migBench { phase := 1 }).migrating (0 * 2 ^ 15) = true) ∧
    ((waitBench none).mem.homeWait = [(5, 3)] ∧ (waitBench none).migrating (5 * 2 ^ 15) = true ∧ (waitBench none).mem.homeWrite = none ∧
      ((waitBench none).mem.mig.get 0 {}).phase = 2 ∧ (({ waitBench none with mem := { (waitBench none).mem with
        mig := (waitBench none).mem.mig.set 0 { (waitBench none).mem.mig.get 0 {} with phase := 0 } } } : State).migrating (5 * 2 ^ 15) = false)) ∧
    ((waitBench (some (1, 0))).mem.homeWrite ≠ none) ∧
    (({ bench .c with mem := { (bench .c).mem with homeWrite := some (1, 0) } } : State).mem.homeWrite ≠ none) ∧
    (let s := migBench { cand := [(0, 1)] }
     s.pf.migEn = true ∧ (s.mem.mig.get 0 {}).phase = 0 ∧ (s.mem.mig.get 0 {}).cand = [(0, 1)] ∧ (s.masterHome 0).getLsbD 31 = true ∧ (s.masterHome 0).getLsbD 30 = false ∧
       fld (s.masterHome 0).toNat 26 2 = 0 ∧ bit (s.stage2 0 0) 31 = true ∧ s.lowestFree 1 = some 0) ∧
    (({ migBench { cand := [(0, 1)] } with mem := { (migBench { cand := [(0, 1)] }).mem with ffmap := fullMap } } : State).lowestFree 1 = none) ∧
    (let s := migBench { phase := 1, dest := 1 }
     (s.mem.mig.get 0 {}).phase = 1 ∧ s.lowestFree (s.mem.mig.get 0 {}).dest = some 0 ∧ (s.mem.mig.get 0 {}).dest < 4 ∧ (s.mem.mig.get 0 {}).slot < Config.slots ∧ s.memWf) ∧
    (let s := migBench { phase := 2, dest := 1, oldFrame := 65535 }; (s.mem.mig.get 0 {}).phase = 2 ∧ (s.mem.mig.get 0 {}).oldFrame < 2 ^ 16) ∧
    (let s : State := { touchBench 0x10000000 with pick := [0, 0, 15] }
     s.pick = 0 :: [0, 15] ∧ (s.ord.up.filter fun u => u.msg.waits && u.slot == 0 && [0, 15].contains u.die && decide (s.homeAt u = .bind)) = [] ++ ⟨0, 0, 0, .f, false, 0⟩ :: [] ∧ s.firstRoom (quadOf 0) 0 0 ∧ s.memWf) ∧
    (let s : State := { touchBench 0x10000000 with pf := { (touchBench 0x10000000).pf with left := [32, 33, 34, 35] } }
     (s.pick = [] ∧ s.ord.up.find? (fun u => u.msg.waits && decide (s.homeAt u = .bind)) = some ⟨0, 0, 0, .f, false, 0⟩) ∧
       (s.ord.up.filter fun u => u.msg.waits && u.slot == 0 && (List.range 16).contains u.die && decide (s.homeAt u = .bind)) = [] ++ ⟨0, 0, 0, .f, false, 0⟩ :: [] ∧ ∀ m f, ¬ s.firstRoom (quadOf 0) m f) ∧
    (let s := touchBench 0x20000000
     s.ord.up.find? (fun u => u.msg.waits && decide (s.homeAt u = .pull) && !s.mem.pulling.contains u.slot) = some ⟨0, 0, 0, .f, false, 0⟩) ∧
    (let s : State := { touchBench 0x20000000 with mem := { (touchBench 0x20000000).mem with pulling := [0] } }
     s.mem.pulling = [0] ∧ s.ord.up.find? (fun u => u.msg.waits && u.slot == 0) = some ⟨0, 0, 0, .f, false, 0⟩ ∧ s.firstRoom (quadOf 0) 0 0 ∧ s.memWf ∧
       Memory.wf 0 [(2097151, 9)] = true ∧ ∀ c ∈ ([(2097151, 9)] : List Host.Cell), c.1 < 2 ^ 21) :=
  ⟨⟨by decide +kernel, rfl, rfl, by decide +kernel⟩, ⟨rfl, by decide +kernel⟩, ⟨rfl, by decide +kernel, rfl, rfl, by decide +kernel⟩, by decide +kernel, by decide +kernel, ⟨rfl, by decide +kernel, by decide +kernel, by decide +kernel, by decide +kernel, by decide +kernel, by decide +kernel, by decide +kernel⟩, lowestFree_full _ _ fun w hw => get_taken _ _ hw,
    ⟨rfl, by decide +kernel, by decide +kernel, by decide +kernel, ⟨rfl, rfl, rfl⟩⟩, ⟨rfl, by decide +kernel⟩,
    ⟨rfl, by decide +kernel, ⟨0, by decide +kernel, by decide +kernel, by decide +kernel, by decide +kernel, fun i h => absurd h (Nat.not_lt_zero i)⟩, ⟨rfl, rfl, rfl⟩⟩,
    ⟨⟨rfl, by decide +kernel⟩, by decide +kernel, fun m f ⟨j, hj, hm, hl, _⟩ => by
      have : ∀ j < 4, ({ touchBench 0x10000000 with pf := { (touchBench 0x10000000).pf with left := [32, 33, 34, 35] } } : State).isLive (Config.memDie ((quadOf 0 + j) % 4)) = false := by decide +kernel
      rw [hm, this j hj] at hl; cases hl⟩, by decide +kernel,
    ⟨rfl, by decide +kernel, ⟨0, by decide +kernel, by decide +kernel, by decide +kernel, by decide +kernel, fun i h => absurd h (Nat.not_lt_zero i)⟩, ⟨rfl, rfl, rfl⟩, by decide +kernel, by decide +kernel⟩⟩

/-- The bench with a single-bit error in HBM word 0 and in cache word 0 of die 0, and a double error in cache word 1. -/
def eccBench : State :=
  { bench .c with
    mem := { (bench .c).mem with hbmCheck := [(0, 1)], history := [(0, [0])], writeback := [.hbm 0 0] }
    ord := { (bench .c).ord with dvCheck := [(0, [(0, 1), (1, 3)])] } }

theorem witness_EccEvents :
    ((32, 6) = (32, 6) ∧ 2 ^ 32 - 1 < 2 ^ 32) ∧
    (eccBench.planted (.sram (.cache 0 0)) = true ∧ eccBench.readWord (.sram (.cache 0 0)) = .fixed 0) ∧
    (eccBench.planted (.sram (.cache 0 1)) = true ∧ eccBench.readWord (.sram (.cache 0 1)) = .bad) ∧
    (eccBench.planted (.reg 1023 5) = false) ∧
    (eccBench.planted (.hbm 0 0) = true ∧ eccBench.readWord (.hbm 0 0) = .fixed 0 ∧ eccBench.mem.writeback = [.hbm 0 0]) ∧ eccBench.memWf :=
  ⟨by decide +kernel, ⟨by decide +kernel, by decide +kernel⟩, ⟨by decide +kernel, by decide +kernel⟩, by decide +kernel, ⟨by decide +kernel, by decide +kernel, rfl⟩, rfl, rfl, rfl⟩

theorem witness_FunctionRegisters :
    ((∃ pf, pfRegister (bench .c).pf 0x4608 7 = some pf) ∧ ((bench .c).sched.insts.map Inst.id).Nodup) ∧
    (fld 0x40000000 30 2 ≠ 3 ∧ ({ bench .c with pf := { (bench .c).pf with own := (bench .c).pf.own.set 767 (0x40000000 &&& 0xC0001FFF) } } : State).overused = false) ∧
    (fld 0xC0000000 30 2 = 3) ∧
    (bit 0x40000000 30 = true ∧ fld 0x40000000 0 16 = 0) ∧
    (let s : State := { bench .c with pf := { (bench .c).pf with pctl := [(1, { w0 := 0x40000001, w3 := 1 })] } }
     1 ≠ 0 ∧ s.isSealed 1 = true ∧ bit 1 0 = true ∧ (s.pctl 1).w0.getLsbD 0 = true ∧ 0 % 2 ^ 16 = 0) ∧
    ((bench .c).pctl0Ignored 511 (BitVec.ofNat 32 0x80000001 &&& 0xFF00FFFF).toNat = false ∧
      ({ bench .c with pf := { (bench .c).pf with pctl := (bench .c).pf.pctl.set 511 { (bench .c).pctl 511 with w0 := BitVec.ofNat 32 0x80000001 &&& 0xFF00FFFF } } } : State).overused = false) ∧
    (16 < 17 % 4096 ∧ (bench .c).isSealed 511 = false ∧ (bench .c).pf.expert = false ∧ ({ bench .c with pf := { (bench .c).pf with expert := true } } : State).pf.expert = true) ∧
    (fld 0 0 12 + fld 4096 0 13 ≤ 4096 ∧ ¬ fld 1 0 12 + fld 4096 0 13 ≤ 4096) ∧
    (((bench .c).pf.susp.get 15 {}).ret = false ∧ ((bench .c).pf.susp.get 15 {}).score < 16 ∧ fld 16 0 8 = 16 ∧ fld 15 0 8 < 16 ∧ bit 15 31 = false) ∧
    ((({ bench .c with pf := { (bench .c).pf with susp := [(15, { ret := true })] } } : State).pf.susp.get 15 {}).ret = true) :=
  ⟨⟨⟨_, rfl⟩, by decide⟩, ⟨by decide, by decide⟩, by decide, by decide, ⟨by decide, by decide, by decide, by decide, by decide⟩, ⟨by decide, by decide⟩,
    ⟨by decide, by decide, rfl, rfl⟩, by decide, ⟨by decide, by decide, by decide, by decide, by decide⟩, by decide⟩

/-- The bench with queue 3 of partition 511. -/
def cmdBench (x : Queue) : State :=
  { bench .c with vfs := [(511, { queues := [(3, x)] })], pf := { (bench .c).pf with pctl := [(511, { w0 := 0x80000000 })] } }

/-- A queue that runs, with one card to fetch. -/
def running : Queue := { en := true, stat := 1, qlog := 4, clog := 4, pidx := 1 }

theorem witness_CommandQueues :
    (let s := cmdBench {}; let y : Queue := { s.queue 511 3 with abort := bit 0x404 30, vec := fld 0x404 16 4, clog := fld 0x404 8 5, qlog := fld 0x404 0 5, nopre := false }
     (s.queue 511 3).en = false ∧ (s.queue 511 3).stat = 0 ∧ (s.queue 511 3).infl = 0 ∧ s.queueConfigured 511 y ∧ (y.pidx - y.cidx).toNat ≤ 2 ^ y.qlog) ∧
    (let s := cmdBench { pidx := 17 }; let y : Queue := { s.queue 511 3 with clog := 4, qlog := 4 }; s.queueConfigured 511 y ∧ 2 ^ y.qlog < (y.pidx - y.cidx).toNat) ∧
    (¬ (cmdBench {}).queueConfigured 511 { clog := 4, qlog := 17 }) ∧
    (((cmdBench { running with stat := 2 }).queue 511 3).stat = 2) ∧
    (((cmdBench running).queue 511 3).en = true ∧ ((cmdBench running).queue 511 3).stat = 1) ∧
    (((cmdBench { running with stat := 3 }).queue 511 3).en = true ∧ ((cmdBench { running with stat := 3 }).queue 511 3).stat = 3) ∧
    (((BitVec.ofNat 32 16 : BitVec 32) - ((cmdBench running).queue 511 3).cidx).toNat ≤ 2 ^ ((cmdBench running).queue 511 3).qlog ∧
      2 ^ ((cmdBench running).queue 511 3).qlog < ((BitVec.ofNat 32 17 : BitVec 32) - ((cmdBench running).queue 511 3).cidx).toNat) ∧
    (let x := (cmdBench { running with ctail := 2 }).queue 511 3
     (x.ctail - x.chead).toNat < (BitVec.ofNat 32 3 - x.chead).toNat ∧ (BitVec.ofNat 32 2 - x.chead).toNat ≤ (x.ctail - x.chead).toNat ∧ x.heldRecs = []) ∧
    (let s := cmdBench { running with ctail := 16, heldRecs := [⟨1, 0, 0, 5, 1, 0⟩] }; let x := s.queue 511 3
     (BitVec.ofNat 32 1 - x.chead).toNat ≤ (x.ctail - x.chead).toNat ∧ x.heldRecs = [⟨1, 0, 0, 5, 1, 0⟩] ∧ s.pf.modCheck = false ∧
       (x.ctail - BitVec.ofNat 32 1).toNat < 2 ^ x.clog ∧ x.clog ≤ 16 ∧ s.memWf ∧ x.cbase.toNat % 32 = 0) ∧
    ((cmdBench running).hasCard 511 3 ∧ (cmdBench running).pf.modCheck = false ∧ (cmdBench running).sched.fetching = none ∧
      (∀ n r, (cmdBench running).hasCard n r → rotated (cmdBench running).sched.vfTurn 512 511 ≤ rotated (cmdBench running).sched.vfTurn 512 n) ∧
      (∀ r, (cmdBench running).hasCard 511 r → rotated ((cmdBench running).sched.qTurn.get 511 0) 4 3 ≤ rotated ((cmdBench running).sched.qTurn.get 511 0) 4 r)) ∧
    (∀ n r, ¬ (bench .c).hasCard n r) ∧
    (({ cmdBench running with sched := { (cmdBench running).sched with fetching := some (511, 3) } } : State).sched.fetching = some (511, 3)) := by
  have only : ∀ n r, (cmdBench running).hasCard n r → n = 511 ∧ r = 3 := by
    intro n r ⟨_, _, _, h, _⟩
    refine Decidable.by_contra fun hc => ?_
    have : ((cmdBench running).queue n r).stat = 0 := by
      simp only [State.queue, cmdBench, AMap.get]
      by_cases hn : n = 511
      · by_cases hr : r = 3
        · exact absurd ⟨hn, hr⟩ hc
        · simp [hn, AMap.get, Ne.symm hr]
      · simp [Ne.symm hn, AMap.get]
    rw [this] at h; cases h
  refine ⟨⟨rfl, rfl, rfl, by unfold State.queueConfigured; decide, by decide⟩, ⟨by unfold State.queueConfigured; decide, by decide⟩,
    by unfold State.queueConfigured; decide, by decide, ⟨by decide, by decide⟩, ⟨by decide, by decide⟩, ⟨by decide, by decide⟩, ⟨by decide, by decide, by decide⟩,
    ⟨by decide, by decide, rfl, by decide, by decide, ⟨rfl, rfl, rfl⟩, by decide⟩, ⟨by unfold State.hasCard; decide, rfl, rfl, ?_, ?_⟩, ?_, rfl⟩
  · intro n r h; exact Nat.le_of_eq (by rw [(only n r h).1])
  · intro r h; exact Nat.le_of_eq (by rw [(only 511 r h).2])
  · intro n r ⟨_, _, _, h, _⟩
    have : ((bench .c).queue n r).stat = 0 := rfl
    rw [this] at h; cases h

end Sys2Proof.Tests
end

