-- ==== Sys2Proof/Tests/Witness6.lean ====
section
/-!
SUPPORT. Sys2Proof/Tests/Witness6.lean: states that meet the hypotheses of the statements about power, links, the scheduler, saving and
dovetails.
-/

namespace Sys2Proof.Tests

set_option Elab.async false

open Sys2Proof Sys2Proof.Machine

/-- The bench with die counters. -/
def atCycle (die : Nat) (n : BitVec 64) (s : State) : State := { s with cyc := [(die, n)] }

/-- The bench with a fabric. -/
def fabBench (f : FabSt) : State := { bench .c with fab := f }

/-- A beat of the control core in column 3 of die 1, southward from strip 1 to strip 3. -/
def beat1 (eng at_ : Nat) : Beat := ⟨1, 3, true, 1, 3, 0, eng, at_, 0⟩

/-- A packet in column `col` of strip 2 of die 0, for column 3. -/
def packet1 (leg : Leg) (col : Nat) (dies : List Nat) : Packet := ⟨5, 0, 1100, 0, 0, 2, col, 3, 2, dies, leg, 0, 35, 0, false⟩

/-- A dovetail entry that has come from context 0 to context 1. -/
def transit1 : Transit := ⟨0, 0, 1, 2, ⟨1, 7⟩, packet1 .there 0 []⟩

theorem witness_PowerAndFabric :
    (railSlot 146 ∧ railSlot 149 ∧ railSlot 131 ∧ ¬ railSlot 147 ∧ ¬ railSlot 127 ∧ ¬ railSlot 150 ∧
      [(⟨149, 1, 2, 3⟩ : RailMeas)].find? (fun v => v.slot == 149) = some ⟨149, 1, 2, 3⟩ ∧
      ([(⟨149, 1, 2, 3⟩ : RailMeas)].find? (fun v => v.slot == 146)) = none) ∧
    ((bench .c).isLive 36 = true ∧ [(36, 151)].find? (fun w => w.1 == 36) = some (36, 151) ∧ capWatts (bench .c).pf.coolant.toNat 36 = 150 ∧
      100 * 142 < 95 * 150 ∧ ¬ (100 * 143 < 95 * 150)) ∧
    (let s : State := { bench .c with pf := { (bench .c).pf with power := [(15, { hot := 100, cool := 100 })] } }
     100 ≤ (s.pf.power.get 15 {}).hot ∧ 100 ≤ (s.pf.power.get 15 {}).cool ∧ (s.pf.power.get 14 {}).hot < 100 ∧ (s.pf.power.get 14 {}).cool < 100) ∧
    (((bench .c).pf.conn.get 9 {}).stat = connState 9 2683 ∧ ((bench .c).pf.conn.get 9 {}).stat < connState 9 2684 ∧ connState 0 500 = 2 ∧
      (let s : State := { bench .c with pf := { (bench .c).pf with conn := [(0, ⟨2, false, 500, 14⟩), (9, ⟨1, true, 2684, 15⟩)] } }
       connState 0 499 < (s.pf.conn.get 0 {}).stat ∧ (s.pf.conn.get 0 {}).below < 15 ∧ connState 9 0 < (s.pf.conn.get 9 {}).stat ∧
         (s.pf.conn.get 9 {}).below = 15)) ∧
    (let key := (15 * 5 + 4) * 16 + 15
     ((atCycle 15 512 (bench .c)).router key).gated = false ∧ ((atCycle 15 512 (bench .c)).router key).idleFrom + 512 ≤ ((atCycle 15 512 (bench .c)).cycle 15).toNat ∧
       (∀ p ∈ (atCycle 15 512 (bench .c)).fab.transit.map Transit.pkt ++ (atCycle 15 512 (bench .c)).fab.slices, ¬ (p.leg = .chain ∧ (p.die * 5 + p.strip) * 16 + p.col = key)) ∧
       (∃ p ∈ (fabBench { slices := [packet1 .chain 0 []] }).fab.slices, p.leg = .chain ∧ (p.die * 5 + p.strip) * 16 + p.col = 32) ∧ ((bench .c).cycle 15).toNat < ((bench .c).router key).idleFrom + 512) ∧
    (let s := fabBench { routers := [(0, ⟨true, 0, some 0⟩), (1, ⟨true, 0, some 5⟩)] }
     (s.router 0).gated = true ∧ (s.router 0).wakeAt = some 0 ∧ 0 ≤ (s.cycle 0).toNat ∧ (s.router 1).wakeAt = some 5 ∧ (s.cycle 0).toNat < 5) ∧
    (let s : State := { bench .c with pf := { (bench .c).pf with pctl := [(1, { w0 := 0x40000001, w3 := 1 })] } }
     s.sealedVfs ≠ [] ∧ 36 < 37 ∧ s.fab.slot.get 36 16 ≠ fld (s.cycle 36).toNat 6 4 ∧ (bench .c).sealedVfs = []) ∧
    (let mine := fun (s : State) => s.fab.railWait.filter fun b => b.onRail 1 3 true && b.src == 1 && s.slotOpen 1 b.vf
     (let s := fabBench { railWait := [beat1 0 0], beats := [beat1 1 0] }; (beat1 1 0) ∈ s.fab.beats ∧ (beat1 1 0).at_ ≤ (s.cycle 1).toNat ∧
       (beat1 1 0).isAt 1 3 true 1 (s.cycle 1).toNat) ∧
     mine (fabBench {}) = [] ∧
     (let s := fabBench { railWait := [beat1 0 0] }; mine s = [beat1 0 0] ∧ ∀ b ∈ s.fab.beats, b.at_ ≤ (s.cycle 1).toNat ∧ ¬ b.isAt 1 3 true 1 (s.cycle 1).toNat) ∧
     (let s := fabBench { railWait := [beat1 0 0, beat1 1 0] }
      (mine s).find? (fun b => b.eng == 0) = some (beat1 0 0) ∧ (mine s).find? (fun b => b.eng == 1) = some (beat1 1 0)) ∧
     (let s := atCycle 1 2 (fabBench { beats := [beat1 1 0] })
      s.fab.beats.find? (fun b => b.onRail 1 3 true && b.dst == 3 && decide (b.at_ + b.span ≤ (s.cycle 1).toNat)) = some (beat1 1 0)) ∧
     (let s := atCycle 1 1 (fabBench { beats := [beat1 1 0] })
      ∀ b ∈ s.fab.beats, b.onRail 1 3 true = true → b.dst = 3 → (s.cycle 1).toNat < b.at_ + b.span)) :=
  ⟨by unfold railSlot; decide, by decide +kernel, by decide, by decide, by decide +kernel, by decide, by decide, by unfold Beat.isAt; decide +kernel⟩

theorem witness_PacketSteps :
    (let f : FabSt := { routers := [(32, ⟨true, 0, none⟩)] }; let p := packet1 .chain 0 []
     p.leg = .chain ∧ p.dies = [] ∧ (f.routers.get ((p.die * 5 + p.strip) * 16 + p.col) {}).gated = true) ∧
    (let s := bench .c; let p := packet1 .chain 0 []; (s.cycle p.die).toNat < p.since + 3) ∧
    (let s := atCycle 0 3 (bench .c); let p := packet1 .chain 0 []; let f : FabSt := { routers := [(35, ⟨true, 0, none⟩)] }
     (f.routers.get 32 {}).gated = false ∧ p.since + 3 ≤ (s.cycle p.die).toNat ∧ s.slotOpen p.die p.vf = true ∧ (p.col < p.toCol ∧ 1 = p.col + 1) ∧ 1 ≠ p.toCol ∧
       (p.col < p.toCol ∧ 3 = p.col + 3 ∧ 3 ≤ p.toCol) ∧ (f.routers.get ((p.die * 5 + p.strip) * 16 + 3) {}).gated = true) ∧
    (let s := bench .c; let p := packet1 .link 0 [1, 2]; let f : FabSt := {}
     p.leg = .link ∧ p.dies = 1 :: [2] ∧ p.buf = 0 ∧ 0 < p.flits ∧ s.linkUp p.die 1 = true ∧ s.slotOpen p.die p.vf = true ∧
       f.linkBuf.get (linkKey p.die 1 p.esc) 0 ≤ Config.linkFlits) ∧
    (let s := atCycle 0 64 (bench .c); let p := packet1 .link 0 [1, 2]; let f : FabSt := { linkBuf := [(linkKey 0 1 false, Config.linkFlits + 1)] }
     Config.linkFlits < f.linkBuf.get (linkKey p.die 1 p.esc) 0 ∧ p.esc = false ∧ p.since + 64 ≤ (s.cycle p.die).toNat ∧
       (∃ r, s.escapeRoute p.die ([2].getLastD 1) = some r) ∧ ((bench .c).cycle p.die).toNat < p.since + 64 ∧ { p with esc := true }.esc = true) := by
  refine ⟨by decide, by decide, by decide +kernel, ⟨rfl, rfl, rfl, by decide, by decide +kernel, by decide +kernel, Nat.zero_le _⟩, ?_⟩
  refine ⟨?_, rfl, by decide, ?_, by decide, rfl⟩
  · show Config.linkFlits < Config.linkFlits + 1
    omega
  · have : ((atCycle 0 64 (bench .c)).escapeRoute 0 2).isSome = true := by decide +kernel
    exact Option.isSome_iff_exists.1 this

/-- A waiting request and an answer on their way. -/
def up1 (m : UpMsg) (at_ : Nat) : Up := ⟨0, 0, 0, m, false, at_⟩

/-- The bench in a phase of the quiesce of die 15. -/
def leavingBench (phase : Nat) (left : List Nat) (transit : List Transit) : State :=
  { fabBench { transit := transit } with pf := { (bench .c).pf with phase := phase, leaving := 15, left := left } }

/-- A dovetail entry from die 0 to die 1 by way of die 15, and one to die 15. -/
def across : Transit := ⟨0, 0, 64, 2, ⟨1, 7⟩, { packet1 .link 0 [1] with die := 15 }⟩

/-- A dovetail entry of die 0 for die 15. -/
def toward : Transit := ⟨0, 0, 960, 2, ⟨1, 7⟩, packet1 .link 0 [15]⟩

/-- A check message is no global store. -/
theorem noG (id who : Nat) (k : AccKind) (bs : List (Nat × Byte)) : (up1 .k 0).msg ≠ .g id who k bs := fun h => UpMsg.noConfusion h

theorem witness_QuiesceAndLinks :
    (let s : State := { bench .c with pf := { (bench .c).pf with left := [31] } }
     s.pf.phase = 0 ∧ 0 ≤ 31 ∧ s.isLive 0 = true ∧ s.isLive 31 = false) ∧
    (let s : State := { bench .c with pf := { (bench .c).pf with quiesceQ := [15] } }; s.pf.quiesceQ = [15] ∧ s.pf.phase = 0 ∧ s.isLive 15 = true) ∧
    (let s : State := { bench .c with pf := { (bench .c).pf with quiesceQ := [15], left := [15] } }; s.pf.quiesceQ = [15] ∧ s.isLive 15 = false) ∧
    (let s : State := { leavingBench 2 [] [] with pf := { (leavingBench 2 [] []).pf with quiesceQ := [3] } }; s.pf.quiesceQ = [3] ∧ s.pf.phase ≠ 0) ∧
    (let crosses := fun (x : Nat) (e : Transit) => e.pkt.die = x ∧ dieOf e.fromCtx ≠ x ∧ dieOf e.toCtx ≠ x
     (leavingBench 1 [] []).pf.phase = 1 ∧ (∀ e ∈ (leavingBench 2 [] [toward]).fab.transit, ¬ crosses 15 e) ∧
       (∃ e ∈ (leavingBench 2 [] [across]).fab.transit, crosses (leavingBench 2 [] [across]).pf.leaving e) ∧
       (dieOf toward.toCtx = 15 ∧ dieOf toward.fromCtx ≠ 15) ∧ 15 ∈ (leavingBench 4 [15] []).pf.left ∧
       ((leavingBench 2 [] []).cycle 15).toNat < (leavingBench 2 [] []).pf.drainFrom + 65536 ∧
       (let s : State := { atCycle 15 65536 (leavingBench 2 [] [across]) with ord := { (bench .c).ord with up := [up1 .f 0] } }
        s.pf.phase = 2 ∧ s.pf.drainFrom + 65536 ≤ (s.cycle s.pf.leaving).toNat ∧ s.ord.up[0]? = some (up1 .f 0) ∧ (up1 .f 0).msg.waits = true)) ∧
    (let s : State := { bench .c with pf := { (bench .c).pf with left := [31] } }; s.pf.phase = 0 ∧ 31 ≤ 31 ∧ s.isLive 31 = false ∧ s.isLive 3 = true) ∧
    ((bench .c).linkUp 0 32 = true ∧ (bench .c).linkUp 0 31 = false) ∧
    (let g := up1 (.g 5 0 .global [(0, 1)]) 0
     let s : State := { bench .c with ord := { (bench .c).ord with up := [g, up1 .k 0], dv := [(0, [(0, { pend := some 5 })])] }, fab := { transit := [toward] } }
     s.ord.up[0]? = some g ∧ up1 .k 0 ∈ s.ord.up ∧ (∀ id who k bs, (up1 .k 0).msg ≠ .g id who k bs) ∧ toward ∈ s.fab.transit ∧
       toward.pkt.leg = .link ∧ toward.pkt.dies ≠ [] ∧ linkOf toward.pkt.die (toward.pkt.dies.headD 0) = (0, 15) ∧ (0 : Nat) ∈ s.liveCompute ∧
       (s.dvByte 0 0).pend ≠ none) ∧
    (let s : State := { atCycle 0 64 (bench .c) with now := 64, ord := { (bench .c).ord with up := [up1 .f 0, up1 .f 1], dn := [⟨0, 0, .p 5, false, 0⟩, ⟨0, 0, .p 5, false, 1⟩] } }
     s.homeAt (up1 .f 0) = .at_ 0 0 ∧ s.joined 0 (Config.memDie 0) = true ∧ s.ord.up[0]? = some (up1 .f 0) ∧ (up1 .f 0).at_ + 64 ≤ s.now ∧
       s.ord.up[1]? = some (up1 .f 1) ∧ s.now < (up1 .f 1).at_ + 64 ∧ s.ord.dn[0]? = some ⟨0, 0, .p 5, false, 0⟩ ∧ s.ord.dn[1]? = some ⟨0, 0, .p 5, false, 1⟩ ∧
       s.joined 0 (Config.memDie (s.lineHome 0)) = true ∧
       ({ s with fab := { s.fab with linksDown := [(0, 32), (0, 1), (0, 4), (0, 16)] } } : State).joined 0 (Config.memDie 0) = false) ∧
    (let s : State := { atCycle 0 64 (bench .c) with fab := { transit := [toward] } }
     s.fab.transit[0]? = some toward ∧ toward.pkt.dies.getLast? = some 15 ∧ toward.pkt.leg = .link ∧ toward.pkt.esc = false ∧
       toward.pkt.since + 64 ≤ (s.cycle toward.pkt.die).toNat ∧ (s.escapeRoute toward.pkt.die 15).isSome = true ∧
       ({ s with fab := { s.fab with tabLinks := [(0, 1), (0, 4)] } } : State).escapeRoute toward.pkt.die 15 = none) ∧
    ((bench .c).isLive 15 = true) :=
  ⟨by decide, by decide, by decide, by decide, by decide +kernel, by decide, by decide, ⟨by decide, by decide, noG, by decide +kernel⟩, by decide +kernel, by decide +kernel, by decide⟩

/-- A card of one team with one core, its parallel class, WAIT and footprint. -/
def card1 (pclass wait : Nat) (rs : List Region) : Card :=
  { tag := 5, mbz := true, eng := 2, team := 0, nstage := 1, shrink := false, pclass := pclass, prio := 0, version := 1, asid := 0, gx := 1, gy := 1, gz := 1
    wait := wait, budget := 100, code := 0, ttab := 0, ttabn := 0, ovf := 0, ovfn := 0, stages := [(1, 64)], succ := [], args := [], regions := rs }

/-- A task of that card. -/
def task1 (seq : Nat) (stat : TStat) (c : Card) : Task :=
  { seq := seq, vf := 0, q := 0, nopre := false, card := c, regions := c.regions, stat := stat, count := 0, edges := [], underflow := false, ending := none
    cyc := 0, retry := [] }

/-- The bench with queue 0 of partition 0, which may have its cards admitted. -/
def schedBench (sc : SchedSt) : State :=
  { bench .c with
    vfs := [(0, { queues := [(0, { en := true, stat := 1, qlog := 4, clog := 4 })] })]
    pf := { (bench .c).pf with pctl := [(0, { w0 := 0x80000000 })], ase := [(0, { w0 := 0x80000000 })], coreCtx := [(0, 0)] }
    ctxs := []
    sched := sc }

/-- Decidable parts of `onlyWaiting` and `oneCard`, for a state of the bench. -/
def fetchedBench (c : Card) (ts : List Task) : State := schedBench { fetched := [(0, 0, c)], tasks := ts }

theorem card1_made (p w : Nat) (h : p ≤ 2) (rs : List Region) (hr : ∀ r ∈ rs, r.len ≠ 0) : (card1 p w rs).made := by
  refine ⟨rfl, rfl, ?_, ?_, ?_, h, ?_, ?_, ?_, rfl, rfl, ?_, fun _ => rfl, ?_, hr⟩ <;> simp [card1]

theorem witness_SchedulerSteps :
    (({ bench .c with pf := { (bench .c).pf with modCheck := true } } : State).pf.modCheck = true ∧ ((atCycle 36 1 (bench .c)).cycle Config.linkDie).toNat % 4 ≠ 0) ∧
    ((schedBench {}).onlyWaiting ∧ (schedBench {}).sched.fetched = []) ∧
    (let c := card1 2 0 [⟨0, 8, 1⟩, ⟨7, 8, 0⟩]; let s := fetchedBench c []
     s.onlyWaiting ∧ s.oneCard 0 0 c ∧ s.ringRoom 0 0 ∧ c.made ∧ ((s.pf.ase.get c.asid {}).w0.getLsbD 31 = true ∧ fld (s.pf.ase.get c.asid {}).w0.toNat 0 9 = 0) ∧
       (s.overflow 0 c c.ovf c.ovfn).2 = .regions [] true ∧ s.hasEngines 0 c ∧ c.pclass = 2 ∧ selfOverlap (c.regions ++ [])) ∧
    (¬ (card1 3 0 []).made) ∧
    (({ fetchedBench (card1 0 0 []) [] with pf := { (fetchedBench (card1 0 0 []) []).pf with ase := [] } } : State).pf.ase.get 0 {} = {}) ∧
    (((fetchedBench (card1 0 0 []) []).overflow 0 (card1 0 0 []) (2 ^ 56 - 16) 2).2 = .bad) ∧
    (((({ fetchedBench (card1 0 0 []) [] with pf := { (fetchedBench (card1 0 0 []) []).pf with own := [] } } : State).overflow 0 (card1 0 0 []) 0 0).2 = .regions [] true) ∧
      ¬ ({ fetchedBench (card1 0 0 []) [] with pf := { (fetchedBench (card1 0 0 []) []).pf with own := [] } } : State).hasEngines 0 (card1 0 0 [])) ∧
    (let c := card1 0 0 [⟨0, 8, 0⟩]; let u := task1 1 .waiting (card1 0 1 [⟨7, 1, 1⟩]); let s := { fetchedBench c [u] with sched := { (fetchedBench c [u]).sched with seqNext := 2 } }
     s.onlyWaiting ∧ s.oneCard 0 0 c ∧ c.made ∧ s.hasEngines 0 c ∧ ¬ (c.pclass = 2 ∧ selfOverlap (c.regions ++ [])) ∧ s.sched.tasks = [u] ∧
       u.regions = [⟨7, 1, 1⟩] ∧ edgeTo [⟨7, 1, 1⟩] [⟨0, 8, 0⟩] ∧ u.edges.length < 256 ∧ (s.sched.tasks.map Task.seq).Nodup ∧
       s.sched.early.find? (fun e => e.1 == 0 && e.2.1 == c.tag) = none ∧ 0 < c.wait + 1) ∧
    (let c := card1 0 0 []; let s := fetchedBench c []; let free := fun d => s.freeCores 0 c.eng true [] d
     s.sched.tasks = [] ∧ s.sched.early = [] ∧ c.made ∧ c.wait = 0 ∧ c.ovfn = 0 ∧ c.pclass ≠ 2 ∧ c.nstage = 1 ∧ c.stages = [(1, 64)] ∧ s.sched.decl = [] ∧
       s.tiles = [] ∧ 0 < 16 ∧ c.team + 1 ≤ (free 0).length) ∧
    (let w := { task1 9 .waiting (card1 0 1 []) with count := 1 }; let k := { task1 8 .active (card1 0 0 []) with edges := [w.seq] }; let s := schedBench { tasks := [k, w] }
     s.quietStep ∧ s.sched.fetched = [] ∧ s.sched.parked = [] ∧ s.sched.areas = [] ∧ k.stat ≠ .ended ∧ (∀ i ∈ s.sched.insts, i.seq = k.seq ∧ i.stat = .done ∧ i.teams = []) ∧
       k.card.succ = [] ∧ k.retry = [] ∧ w.seq ≠ k.seq ∧ w.stat = .waiting ∧ w.ending = none ∧ w.underflow = false ∧ w.retry = [] ∧ w.edges = [] ∧
       w.card.succ = [] ∧ s.sched.tasks = [k, w] ∧ k.edges = [w.seq] ∧ k.stat = .active ∧ k.ending = none ∧ k.underflow = false ∧ w.count = 1 ∧ s.ringRoom 0 0) := by
  have quiet : ∀ (c : Card) (ts : List Task), (fetchedBench c ts).quietStep := fun _ _ => ⟨rfl, rfl, rfl, rfl, rfl, fun _ _ => rfl⟩
  have now : ∀ (c : Card) (ts : List Task), (∀ t ∈ ts, t.stat = .waiting ∧ t.ending = none ∧ t.underflow = false ∧ t.retry = []) →
      (fetchedBench c ts).onlyWaiting := fun c ts h => ⟨quiet c ts, rfl, h⟩
  have one : ∀ (c : Card) (ts : List Task), (fetchedBench c ts).oneCard 0 0 c := fun c ts => ⟨rfl, by show (0 : Nat) ≠ 1; decide, by show (0x80000000 : BitVec 32).getLsbD 31 = true; decide⟩
  refine ⟨⟨rfl, by decide⟩, ⟨⟨by unfold State.quietStep; decide, rfl, by decide⟩, rfl⟩,
    ⟨now _ _ (by decide), one _ _, ⟨rfl, by decide, by decide, rfl⟩, card1_made _ _ (by decide) _ (by decide), ⟨by decide, by decide⟩, rfl, ⟨0, by decide, by decide⟩, rfl,
      ⟨⟨0, 8, 1⟩, by decide, ⟨7, 8, 0⟩, by decide, by decide, by decide, by decide, by decide⟩⟩,
    fun h => absurd h.2.2.2.2.2.1 (by decide), by decide, by decide, ⟨by decide, ?_⟩, ?_, ?_, ?_⟩
  · intro ⟨d, hd, h⟩
    revert h
    have : ∀ d < 16, ¬ (0 + 1 ≤ ((List.range 16).filter fun col =>
      ({ fetchedBench (card1 0 0 []) [] with pf := { (fetchedBench (card1 0 0 []) []).pf with own := [] } } : State).ownsAll 0 (16 * d + col) 2).length) := by decide +kernel
    exact this d hd
  · refine ⟨⟨⟨rfl, rfl, rfl, rfl, rfl, fun _ _ => rfl⟩, rfl, by decide⟩, ⟨rfl, by decide, by decide⟩, card1_made _ _ (by decide) _ (by decide), ⟨0, by decide, by decide⟩, fun h => absurd h.1 (by decide), rfl, rfl,
      ⟨⟨7, 1, 1⟩, by decide, ⟨0, 8, 0⟩, by decide, ⟨by decide, by decide⟩, by decide, by decide⟩, by decide, by decide, by decide, by decide⟩
  · exact ⟨rfl, rfl, card1_made _ _ (by decide) _ (by decide), rfl, rfl, by decide, rfl, rfl, rfl, rfl, by decide, by decide +kernel⟩
  · exact ⟨⟨rfl, rfl, rfl, rfl, rfl, by decide⟩, rfl, rfl, rfl, by decide, by decide, rfl, rfl, by decide, rfl, rfl, rfl, rfl, rfl, rfl, rfl, rfl, rfl, rfl, rfl, rfl, rfl, by decide, by decide, rfl⟩

/-- A grid point of one context, running as task 0. -/
def inst1 (k : Nat) (areas : List (Nat × Nat × Nat)) (stopping : Bool) : Inst :=
  { id := 0, seq := 0, vf := 0, x := 0, y := 0, z := 0, stat := .running, eprio := 0, age := 0, repls := [1], teams := [⟨1, 0, 0, 0, k / 64, [k], 0, 0⟩]
    stopping := stopping, waitArea := false, prioStop := false, areas := areas, primary := 0, secondary := 1, tieDue := false, tie := none, replaced := false
    copyNext := 1, buffer := 0, onto := none }

/-- A bench on which a grid point runs, with save areas in the first quadrant. -/
def runBench (i : Inst) : State :=
  { bench .c with
    cyc := [(0, 2 ^ 24)]
    sched := { tasks := [task1 0 .active (card1 0 0 [])], insts := [i] }
    pf := { (bench .c).pf with poolNow := [(1, some 0)], savewin := [(0, 0x80000000), (1, 0x80000000)], own := [(0, 0x80000000), (1, 0x80000000), (2, 0x80000000)], pctl := [(0, { w0 := 0x10000000 })] } }

theorem witness_Preemptions :
    (let s := runBench (inst1 0 [] false); let i := inst1 0 [] false
     (s.sched.insts.map Inst.id).Nodup ∧ i ∈ s.sched.insts ∧ i.waitArea = false ∧ s.budgetOf i ≠ 0 ∧ i.stat = .running ∧ (∃ p ∈ i.teams, s.budgetOf i ≤ s.teamUsage p) ∧ i.stopping = false ∧
       s.findAreas [] i.ctxs = some [0] ∧ [0].length = (i.teams.flatMap Placed.ctxs).length ∧ i.ctxs.Nodup) ∧
    (let i := inst1 0 [] false; let s : State := { runBench i with pf := { (runBench i).pf with savewin := [] } }; s.findAreas [] i.ctxs = none) ∧
    (let i := { inst1 0 [] false with waitArea := true }; let s := runBench i
     i.stat = .running ∧ i.stopping = false ∧ (∀ j ∈ s.sched.insts, j.waitArea = true ↔ j.id = i.id) ∧ s.findAreas [] i.ctxs = some [0]) ∧
    (let i := { inst1 0 [] false with due := true }; ∀ j ∈ (runBench i).sched.insts, j.vf = i.vf → (j.due = true ↔ j.id = i.id)) ∧
    ((inst1 0 [] true).stopping = true ∧ ∀ i ∈ (runBench (inst1 0 [] false)).sched.insts, i.waitArea = false) ∧
    (let s : State := runBench (inst1 0 [] false)
     s.serves 0 1 = some 0 ∧ s.serves 255 0 = none ∧ s.pf.poolTurn.get 1 0 ≤ 0 ∧ s.busyMembers 0 1 = [0] ∧
       (s.engOf (inst1 0 [] false).seq).testBit 1 = true ∧ (∃ k ∈ (inst1 0 [] false).ctxs, k / 4 = 0) ∧ s.pf.poolFrom.get 1 0 + s.sliceOf (fld (s.pf.own.get 1 0).toNat 9 4) ≤ (s.cycle 0).toNat) ∧
    (let s : State := { runBench (inst1 0 [] false) with cyc := [(0, 65535)] }
     (s.cycle 0).toNat < s.pf.poolFrom.get 1 0 + s.sliceOf (fld (s.pf.own.get 1 0).toNat 9 4)) ∧
    ((runBench (inst1 0 [] false)).findArea [0] 0 = some 1 ∧ (runBench (inst1 0 [] false)).findArea [] 511 = some 511) :=
  ⟨⟨by decide, by decide, rfl, by decide, rfl, ⟨_, List.mem_singleton.2 rfl, by decide⟩, rfl, by decide, rfl, by decide⟩, by decide +kernel, ⟨rfl, rfl, by decide, by decide⟩,
    by decide, ⟨rfl, by decide⟩, by decide, by decide, by decide⟩

/-- A saved context but for its control stream. -/
def lastStream : Ctx := { live := true, sc := { stopReq := true }, sm := { stopReq := true, saved := true }, sv := { stopReq := true, saved := true }, sy := { stopReq := true, saved := true } }

/-- A bench whose grid point is being stopped, its context `c`. -/
def stopBench (c : Ctx) : State := { runBench (inst1 0 [(0, 1, 0)] true) with ctxs := [(0, c)] }

/-- A prefix whose guard is not decided. -/
def pfxGuard (slot : Nat) : Pfx := ⟨0, 0, true, slot, false, true, false⟩

/-- A context at a guarded control instruction at address 64. -/
def guarded (g : AMap Guard) : State :=
  ((bench .c).putCode 64 [0x8A, 0x24]).upHere fun c => { c with guard := g, sc := { stat := .run, pc := 62, fp := 64, blocks := [⟨0, 4095, 1⟩], pfx := some (pfxGuard 7) } }

/-- A discarded entry of an engine's queue. -/
def guardedEntry : QEntry := ⟨7, .mzero 2 true, 64, some (pfxGuard 7), none, 0, 0, 0, 0, 0, 0, [], false, false, false, false, false, 0, 0, 0, 0, false, [], false, false, [], []⟩

/-- An answer of a fetch that is `n`. -/
theorem ok_of {e : Type} (x : Except e Nat) (n : Nat) (h : (match x with | .ok m => m == n | .error _ => false) = true) : x = .ok n := by
  cases x with
  | error _ => cases h
  | ok m => rw [eq_of_beq h]

theorem witness_SavesAndDiscards :
    (let s := stopBench lastStream; let i := inst1 0 [(0, 1, 0)] true
     s.mustSave 0 .c i ∧ (s.ctx 0).endsBy = none ∧ (s.atRest 0 .c = true ∧ ∀ t ∈ s.fab.transit, t.fromCtx ≠ 0 ∧ t.toCtx ≠ 0) ∧
       (∀ k' ∈ i.ctxs, ∀ st', (k', st') ≠ (0, Strm.c) → (s.strm k' st').saved = true) ∧ (∀ k' ∈ i.ctxs, s.ctxRests k' = true) ∧ s.prot.epochs = [] ∧ (s.sched.insts.map Inst.id).Nodup ∧
       (i.areas.map Prod.fst).Nodup ∧ (i.teams.map Placed.team).Nodup ∧ s.memWf ∧ (0, 1, 0) ∈ i.areas ∧ ⟨1, 0, 0, 0, 0, [0], 0, 0⟩ ∈ i.teams) ∧
    (let s := stopBench { lastStream with sv := { stopReq := true } }; s.mustSave 0 .c (inst1 0 [(0, 1, 0)] true) ∧ s.atRest 0 .c = true ∧ (s.strm 0 .v).saved = false) ∧
    (let s := stopBench { lastStream with sc := { stopReq := true, rob := [oneRob] } }; s.mustSave 0 .c (inst1 0 [(0, 1, 0)] true) ∧ s.atRest 0 .c = false) ∧
    (let f : FaultRec := { valid := true, cause := 3 }; let s := stopBench { lastStream with frec := [(2, f)] }; let i := inst1 0 [(0, 1, 0)] true
     s.mustSave 0 .c i ∧ i.ctxs = [0] ∧ (s.ctx 0).hvec.getLsbD 63 = false ∧ (s.ctx 0).frec.get 2 {} = f ∧ f.valid = true ∧
       (∀ m < 4, m ≠ 2 → ((s.ctx 0).frec.get m {}).valid = false) ∧ s.pclassOf i ≠ 2 ∧ (s.ctx 0).team.pclass ≠ 2 ∧ (s.ctx 0).team.seq = i.seq) ∧
    (let s := { (bench .c).upHere (fun c => { c with sc := { stat := .run, pc := 62, fp := 64, pfx := some ⟨0, 2, false, 0, false, false, false⟩ } }) with cyc := [(0, 2 ^ 24)] }
     s.deadEnd 0 ∧ (s.ctx 0).idleFrom + 2 ^ 24 ≤ (s.cycle (dieOf 0)).toNat ∧ ((s.ctx 0).frec.get 0 {}).valid = false) ∧
    (¬ (bench .c).deadEnd 0) ∧
    (∀ g ∈ [[], [(7, .isFalse)], [(7, .isTrue)]], let b := (guarded g).prepare 0 .c
     let x := b.strm 0 .c
     b.goes 0 .c = true ∧ b.mayIssue 0 .c = true ∧ (b.ctx 0).recordDue = false ∧ x.pfx = some (pfxGuard 7) ∧ b.ord.dvCheck.get (dieOf 0) [] = [] ∧
       b.front 0 .c = .word (.mov 4 9) 66 ∧ (b.ctx 0).readGuard 7 = (b.ctx 0).guard.get 7 .unresolved ∧ ({ b with cur := ⟨0, .c, x.pc, 66⟩ } : State).settled) ∧
    (let s := (bench .m).upHere fun c => { c with guard := [(7, .isTrue)], mat := { queue := [guardedEntry] }, sm := { stat := .run, pc := 68, fp := 68, rob := [oneRob] } }
     (s.ctx 0).queue .m = [guardedEntry] ∧ guardedEntry.pfx = some (pfxGuard 7) ∧ (s.strm 0 .m).faulted = false ∧ (s.strm 0 .m).stopReq = false ∧
       (s.strm 0 .m).rob = [oneRob] ∧ oneRob.id = guardedEntry.id ∧ oneRob.eff = [] ∧ oneRob.push = 0 ∧ oneRob.err = 0 ∧ (s.ctx 0).readGuard 7 = .isTrue) := by
  have all4 : ∀ p : Strm → Prop, p .c → p .m → p .v → p .y → ∀ st, p st := fun p a b c d st => by cases st <;> assumption
  refine ⟨⟨⟨rfl, by decide, rfl, rfl, rfl⟩, by decide, ⟨by decide, by decide⟩, ?_, by decide +kernel, rfl, by decide, by decide, by decide, ⟨rfl, rfl, rfl⟩, by decide, by decide⟩, ⟨⟨rfl, by decide, rfl, rfl, rfl⟩, by decide, rfl⟩,
    ⟨⟨rfl, by decide, rfl, rfl, rfl⟩, by decide⟩, ⟨⟨rfl, by decide, rfl, rfl, rfl⟩, by decide, by decide, by decide, rfl, by decide, by decide, by decide, by decide⟩,
    ⟨⟨rfl, ⟨.c, rfl⟩, all4 _ rfl rfl rfl rfl, all4 _ ?_ ?_ ?_ ?_, by decide⟩, by decide, by decide⟩, ?_, ?_, by decide +kernel⟩
  · intro k' hk st' hne
    have : k' = 0 := by simpa [inst1, Inst.ctxs] using hk
    subst this
    cases st' <;> first | rfl | exact absurd rfl hne
  · exact fun _ => by decide
  · exact fun h => by cases h
  · exact fun h => by cases h
  · exact fun h => by cases h
  · intro h
    have := (h.2.2.2.1 .c rfl).2
    revert this; decide
  · intro g hg
    have hp : g = [] ∨ g = [(7, .isFalse)] ∨ g = [(7, .isTrue)] := by simpa using hg
    rcases hp with h | h | h <;> subst h <;>
      exact ⟨by decide +kernel, by decide +kernel, by decide +kernel, by decide +kernel, by decide +kernel, by decide +kernel, by decide +kernel, trivial⟩

/-- Epoch 0 of key 3, released, with the records of the primary copy. -/
def epoch1 (recs : List HeldRec) (out : List Nat) : Epoch := ⟨3, 0, .release, [], [(0, recs)], out, [], 0⟩

/-- A bench with that epoch, of stream `st`. -/
def epochBench (st : Strm) (recs : List HeldRec) (out : List Nat) : State :=
  let s := runBench (inst1 0 [] false)
  { s with prot := { keys := [⟨3, 0, 0, 0, 0, st⟩], epochs := [epoch1 recs out], logs := [] } }

/-- A held store, and a held signal. -/
def held1 (kind : AccKind) : Access := ⟨0, 0, 0, 0, kind, false, true, [⟨0, [(0, 1)]⟩], [], 0, none, [], .none, 0, 64, 0, false⟩

/-- A bench whose partition 0 has the registers `v`, with images that it has written. -/
def ckBench (v : VfSt) (cs : List Ckpt) : State := { runBench (inst1 0 [] false) with vfs := [(0, v)], ckpts := cs }

/-- An image of one task, with grid points `is`. -/
def image1 (is : List Inst) : Ckpt :=
  { num := 0, vf := 0, tasks := [task1 4 .waiting (card1 0 1 [])], insts := is, early := [], areas := [], keys := [], epochs := [], logs := [] }

/-- A bench ready to restore an image that a module with GID 0 has written to host address 0. -/
def restoreBench (is : List Inst) : State :=
  let s := ckBench { rst := true, cklen := 0x40000000 } [image1 is]
  let placed := placeShards (manifestLen 1) (s.shardsOf (image1 is)).2
  let m := s.manifest 0 placed
  let m := m.take 0x20 ++ List.replicate 16 0 ++ m.drop 0x30
  (placed.foldl (fun s x => s.hostFill x.1 x.2.len x.2.cells) s).hostFill 0 (manifestLen 1) (cellsOf 0 (m ++ sha256 m))

/-- The manifest of a restore. -/
def manifestOf (s : State) : List Byte := s.hostBytes 0 (0x40 + 64 * fieldAt (s.hostBytes 0 0x40) 8 4)

/-- The shards of a restore. -/
def shardsIn (s : State) : List (Nat × Shard × List Byte) := s.shardsAt 0 (manifestOf s) (fieldAt (s.hostBytes 0 0x40) 8 4)

/-- The manifest of a restore passes its first check. -/
def wholeOf (s : State) : Prop :=
  let n := fieldAt (s.hostBytes 0 0x40) 8 4
  manifestLen n ≤ 0x40000000 ∧ sha256 (manifestOf s) = s.hostBytes (0x40 + 64 * n) 32

/-- The shards of a restore pass. -/
def shardsPass (s : State) : Prop := ∀ x ∈ shardsIn s, x.1 + x.2.1.len ≤ 0x40000000 ∧ sha256 x.2.1.bytes = x.2.2

/-- The same buffer with another version in its manifest. -/
def badForm (s : State) : State :=
  let m := (manifestOf s).set 4 2
  s.hostFill 0 (manifestLen 1) (cellsOf 0 (m ++ sha256 m))

/-- A saved grid point of task 4. -/
def saved1 : Inst := { inst1 0 [] false with seq := 4, stat := .saved, teams := [] }

theorem witness_Epochs :
    (∀ recs ∈ [[], [.store (held1 .early) 64], [.tsig 9, .store (held1 .early) 64]], ∃ i, (epochBench .c recs []).releasing 3 (epoch1 recs []) ⟨3, 0, 0, 0, 0, .c⟩ i 0) ∧
    ([HeldRec.store (held1 .early) 64] = [(held1 .early, 64)].map (fun h => .store h.1 h.2) ++ [] ∧ (HeldRec.store (held1 .early) 64).isSignal .c = false) ∧
    (let a := held1 (.amo 0 1 0); (∃ i, (epochBench .y [.store a 64] []).releasing 3 (epoch1 [.store a 64] []) ⟨3, 0, 0, 0, 0, .y⟩ i 0) ∧
      (HeldRec.store a 64).isSignal .y = true ∧ (epoch1 [.store a 64] []).out = [] ∧ (epoch1 [.store a 64] [7]).out ≠ []) ∧
    ((epoch1 [.tsig 9] []).out = [] ∧ ((epochBench .c [.tsig 9] []).strm 0 .c).outE = [] ∧ ((epochBench .c [.tsig 9] []).strm 0 .c).outR = [] ∧
      (epochBench .c [.tsig 9] []).tagRoom 0 9 = true) ∧
    ((epoch1 [] [7]).out ≠ [] ∧ (epoch1 [] []).out = [] ∧ (∀ r ∈ (epoch1 [] []).recs, r.2 = []) ∧ ((epochBench .c [] []).sigLog 3).ties = []) ∧
    ((bench .c).nextReleased 3 = none) := by
  refine ⟨fun recs _ => ⟨inst1 0 [] false, rfl, rfl, rfl, rfl⟩, by decide, ⟨⟨inst1 0 [] false, rfl, rfl, rfl, rfl⟩, by decide⟩, by decide, by decide, by decide⟩

theorem witness_EpochsAndImages :
    (let s := ckBench { rst := true } []; (s.vfs.get 0 {}).ckstatus ≠ 1 ∧ (s.vfs.get 0 {}).rst = true) ∧
    (let s := ckBench {} []; (s.vfs.get 0 {}).ckstatus ≠ 1 ∧ (s.vfs.get 0 {}).rst = false ∧ (s.sched.insts.map Inst.id).Nodup) ∧
    (let s := ckBench { ckstatus := 1 } []; (s.vfs.get 0 {}).ckstatus = 1 ∧ ∃ i ∈ s.sched.insts, i.vf = 0 ∧ i.stat = .running) ∧
    (let s : State := { ckBench { ckstatus := 1 } [] with sched := {} }
     (s.vfs.get 0 {}).ckstatus = 1 ∧ ¬ ((∃ i ∈ s.sched.insts, i.vf = 0 ∧ i.stat = .running) ∨ s.releaseWaits 0 = true) ∧
       (s.vfs.get 0 {}).cklen.toNat < shardsLen (s.shardsOf (s.imageOf 0)).2) ∧
    (let s : State := { ckBench { ckstatus := 1, cklen := 0x40000000 } [] with sched := {} }
     shardsLen (s.shardsOf (s.imageOf 0)).2 ≤ (s.vfs.get 0 {}).cklen.toNat ∧ s.memWf ∧ s.mem.hbmCheck = []) ∧
    (let off := fun (s : State) => (s.vfs.get 0 {}).rst = true ∧ (s.vfs.get 0 {}).ckstatus ≠ 1 ∧ ∀ q, q < 4 → (s.queue 0 q).stat = 0 ∧ (s.queue 0 q).infl = 0
     off (restoreBench []) ∧ ¬ off (ckBench {} [])) ∧
    (¬ wholeOf (ckBench { rst := true, cklen := 0x40000000 } []) ∧ wholeOf (badForm (restoreBench [])) ∧ manifestForm (manifestOf (badForm (restoreBench []))) 1 = false) ∧
    (wholeOf (restoreBench []) ∧ manifestForm (manifestOf (restoreBench [])) 1 = true) ∧
    (¬ shardsPass ((restoreBench []).hostFill 0xA0 1 [(0, 1)])) ∧
    (shardsPass (restoreBench []) ∧ ({ restoreBench [] with ckpts := [] } : State).imageFor ((shardsIn (restoreBench [])).map fun x => x.2.1) = none ∧
      (restoreBench []).imageFor ((shardsIn (restoreBench [])).map fun x => x.2.1) = some (image1 [])) ∧
    (¬ (∀ i ∈ (image1 [saved1]).insts, i.stat = .saved → ({ restoreBench [saved1] with pf := { (restoreBench [saved1]).pf with own := [] } } : State).fitsHere 0 (image1 [saved1]) i = true) ∧
      (∀ i ∈ (image1 [saved1]).insts, i.stat = .saved → (restoreBench [saved1]).fitsHere 0 (image1 [saved1]) i = true)) ∧
    (({ restoreBench [] with pf := { (restoreBench []).pf with savewin := [] } } : State).findAreas [] [0] = none ∧ (restoreBench []).findAreas [] [] = some []) ∧
    (((image1 []).tasks.map Task.seq).Nodup ∧ ∀ x ∈ shardsIn (restoreBench []), x.2.1.kind ≠ 2 ∧ x.2.1.kind ≠ 4) ∧
    ((bench .c).pf.fwStatus ≠ 1 ∧ ({ bench .c with pf := { (bench .c).pf with fwStatus := 1 } } : State).pf.fwStatus = 1) :=
  ⟨by decide, by decide, ⟨rfl, _, List.mem_singleton.2 rfl, rfl, rfl⟩, by decide +kernel, ⟨by decide +kernel, ⟨rfl, rfl, rfl⟩, rfl⟩, by decide +kernel,
    by unfold wholeOf; decide +kernel, by unfold wholeOf; decide +kernel, by unfold shardsPass; decide +kernel, by unfold shardsPass; decide +kernel, by decide +kernel, by decide +kernel, by decide +kernel, by decide⟩

/-- A bench with a result-queue entry on register `reg` of context 0, bound as `v`, and the teams of a grid point of two stages. -/
def dvBench (v : Word) (repls : List Nat) (teams : List Placed) (f : FabSt) (left : List Nat) : State :=
  let i : Inst := { inst1 0 [] false with repls := repls, teams := teams }
  { bench .c with
    ctxs := [(0, { live := true, team := { nrepl := 1 }, rq := [(0, [⟨1, 7⟩])], dvb := [(0, v)] })]
    sched := { insts := [i] }
    pf := { (bench .c).pf with left := left }
    fab := f }

/-- The grid point's teams: stage 0 on die 0, two replicas of stage 1 on dies 0 and 1. -/
def teams2 : List Placed := [⟨1, 0, 0, 0, 0, [0], 0, 0⟩, ⟨2, 0, 1, 0, 0, [4], 0, 0⟩, ⟨3, 0, 1, 1, 1, [64], 0, 0⟩]

/-- A dovetail entry that arrived at cycle `since`, from context `k`, for operand queue 2 of context 8. -/
def arrived (k since : Nat) : Transit := ⟨k, 0, 8, 2, ⟨1, 7⟩, { packet1 .there 0 [] with since := since }⟩

/-- A bench with entries that have arrived, of lock-step bindings or not. -/
def arrivals (locked : Bool) (ts : List Transit) : State :=
  let c : Ctx := { live := true, dvb := [(0, if locked then 0x4000000000000000 else 0)] }
  { fabBench { transit := ts } with ctxs := [(0, c), (4, c)] }

theorem witness_Dovetails :
    (let s := (bench .c).upHere fun c => { c with dvbWait := [(3, 5)] }
     (s.ctx 0).dvbWait.find? (fun e => e.1 == 3) = some (3, 5) ∧ (s.ctx 0).rq.get 3 [] = [] ∧ ∀ t ∈ s.fab.transit, ¬ (t.fromCtx = 0 ∧ t.fromReg = 3)) ∧
    (let s := (bench .c).upHere fun c => { c with dvbWait := [(3, 5)], rq := [(3, [⟨1, 7⟩])] }
     (s.ctx 0).dvbWait.find? (fun e => e.1 == 3) = some (3, 5) ∧ (s.ctx 0).rq.get 3 [] ≠ []) ∧
    ((bench .c).ctx 0).dvbWait.find? (fun e => e.1 == 3) = none ∧
    (let s : State := { dvBench 0 [1, 1] teams2 {} [] with sched := {} }; s.instOf 0 = none ∧ (s.ctx 0).rq.get 0 [] = [⟨1, 7⟩]) ∧
    (let v : Word := 0x0000000000004040; let s := dvBench v [1, 2] teams2 {} []
     (s.ctx 0).rq.get 0 [] = [⟨1, 7⟩] ∧ (∃ i, s.instOf 0 = some i) ∧ bit v.toNat 62 = false ∧ 1 = fld v.toNat 6 8 ∧
       teams2.find? (fun t => t.copy == 0 && t.stage == fld v.toNat 14 3 && t.replica == 1) = some ⟨3, 0, 1, 1, 1, [64], 0, 0⟩ ∧ [64][fld v.toNat 4 2]? = some 64 ∧
       ((s.ctx 64).oq.get (2 * fld v.toNat 2 2 + fld v.toNat 1 1) []).length < Config.queueDepth ∧ s.isLive (dieOf 64) = true ∧
       (s.packetFor 0 0 64 0 1).isSome = true ∧ s.draining (dieOf 0) = false ∧
       ({ s with pf := { s.pf with phase := 2, leaving := 0 } } : State).draining (dieOf 0) = true) ∧
    (let v : Word := 0x0000000000004040; let s := dvBench v [1, 2] teams2 {} [1]; s.isLive (dieOf 64) = false) ∧
    (let v : Word := 0x0000000000004040; let s := dvBench v [1, 2] teams2 { tabLinks := [(0, 1), (0, 4)] } []
     s.isLive (dieOf 64) = true ∧ s.packetFor 0 0 64 0 1 = none) ∧
    (let v : Word := 0x0000000000004040; let s := dvBench v [1, 2] teams2 { transit := (List.range 64).map fun _ => ⟨2, 0, 64, 0, ⟨1, 7⟩, packet1 .start 0 []⟩ } []
     ¬ ((s.ctx 64).oq.get 0 []).length + (s.fab.transit.filter fun t => t.toCtx == 64 && t.toReg == 0).length < Config.queueDepth) ∧
    (let v : Word := 0x4000000000004000; let s := dvBench v [1, 2] teams2 {} []
     bit v.toNat 62 = true ∧ (s.ctx 0).team.nrepl = 1 ∧ 1 < [1, 2].getD (fld v.toNat 14 3) 1 ∧ (0 : Nat) = (s.ctx 0).deal.get 0 0 % [1, 2].getD (fld v.toNat 14 3) 1) ∧
    (let s := fabBench { transit := [{ transit1 with pkt := packet1 .chain 0 [] }] }; ∃ x, s.fab.transit[0]? = some x ∧ x.pkt.leg ≠ .there) ∧
    ((fabBench { transit := [transit1, { transit1 with toReg := 4 }] }).fab.transit[1]? = some { transit1 with toReg := 4 } ∧
      transit1 ∈ ([transit1, { transit1 with toReg := 4 }] : List Transit).take 1) ∧
    (let s := arrivals true [arrived 0 0, arrived 4 0]
     s.fab.transit[1]? = some (arrived 4 0) ∧ arrived 0 0 ∈ s.fab.transit.take 1 ∧ bit ((s.ctx 0).dvb.get 0 0).toNat 62 = true ∧ bit ((s.ctx 4).dvb.get 0 0).toNat 62 = true) ∧
    (let s := arrivals false [arrived 4 0, arrived 0 0]
     s.fab.transit[0]? = some (arrived 4 0) ∧ arrived 0 0 ∈ s.fab.transit ∧ bit ((s.ctx 0).dvb.get 0 0).toNat 62 = false ∧
       (arrived 0 0).pkt.leg = .there ∧ (arrived 0 0).pkt.since = (arrived 4 0).pkt.since ∧ (0 / 4 * 8 + 0 : Nat) < 4 / 4 * 8 + 0) ∧
    (let s := arrivals false [arrived 4 1, arrived 0 2]
     s.fab.transit[0]? = some (arrived 4 1) ∧ (arrived 4 1).pkt.leg = .there ∧ s.fab.transit.take 0 = [] ∧ ∀ y ∈ s.fab.transit, ¬ y.pkt.since < (arrived 4 1).pkt.since) ∧
    ((fabBench { transit := [transit1] }).fab.transit[1]? = none) :=
  ⟨by decide +kernel, by decide +kernel, by decide +kernel, ⟨rfl, by decide +kernel⟩,
    ⟨by decide +kernel, ⟨_, rfl⟩, by decide +kernel, by decide +kernel, by decide +kernel, by decide +kernel, by decide +kernel, by decide +kernel, by decide +kernel, by decide, by decide⟩,
    by decide +kernel, by decide +kernel, by decide +kernel, by decide +kernel, ⟨_, rfl, by decide⟩, by decide +kernel, by decide +kernel, by decide +kernel, by decide +kernel, by decide⟩

/-- A bench of the control stream at `mov g4, g9`, with its turn planned, behind a prefix or not. -/
def movBench (p : Option Pfx) : State :=
  { ((bench .c).putCode 4 [0x8A, 0x24]).upHere fun c => { c with sc := { c.sc with pfx := p } } with plan := [.run 0 .c] }

theorem decoded_of {e : Type} (x : Except e (Instr × List Byte)) (i : Instr) (r : List Byte)
    (h : (match x with | .ok (j, q) => decide (j = i ∧ q = r) | .error _ => false) = true) : x = .ok (i, r) := by
  cases x with
  | error _ => cases h
  | ok m => obtain ⟨j, q⟩ := m; have := of_decide_eq_true h; rw [this.1, this.2]

theorem fetched_of {e : Type} (x : Except e (List Byte)) (bs : List Byte) (h : (match x with | .ok m => m == bs | .error _ => false) = true) : x = .ok bs := by
  cases x with
  | error _ => cases h
  | ok m => rw [eq_of_beq h]

theorem witness_StepRunsDecoded :
    (∀ p ∈ [none, some ⟨0, 0, false, 0, false, true, true⟩], let s := movBench p
      let u := (({ s with plan := [] } : State).cycleOn).prepare 0 .c
      let x := u.strm 0 .c
      s.plan = [.run 0 .c] ∧ u.goes 0 .c = true ∧ (u.ctx 0).recordDue = false ∧ u.mayIssue 0 .c = true ∧ x.fp % 2 = 0 ∧ u.wordLen 0 .c x.fp = .ok 1 ∧
        u.fetchHalves 0 x.fp 1 = .ok [0x8A, 0x24] ∧ decode .c [0x8A, 0x24] = .ok (.mov 4 9, []) ∧ u.ord.dvCheck.get (dieOf 0) [] = [] ∧
        (u.ctx 0).regCheck = [] ∧ x.discard = false ∧ x.clashes (.mov 4 9) = false ∧
        x.misplaced (isHeader (.mov 4 9)) x.fp (x.fp + 2 * 1) = false ∧ x.repeated 0 .c (.mov 4 9) = some (.mov 4 9) ∧
        (u.passed 0 .c (.mov 4 9)).isSome = true ∧ x.fenced (.mov 4 9) = false ∧ (∀ l ∈ u.sooner 0, u.issuable l = false)) ∧
    (let s := (movBench none).setCtx 1 ((movBench none).ctx 0); 1 ∈ s.sooner 2 ∧ s.issuable 1 = true) ∧
    ((movBench none).turnOf 0 .c).2 = some (.mov 4 9) ∧
    (Instr.schedulerStep.isEvent = true ∧ ({ bench .c with plan := [.ev .schedulerStep] } : State).plan = [.ev .schedulerStep] ∧ (Instr.mov 4 9).isEvent = false) ∧
    (({ bench .c with pf := { (bench .c).pf with recovery := true } } : State).pf.recovery = true ∧ refusedInRecovery (.coolantWrite 5) = true ∧
      (Instr.coolantWrite 5).isEvent = true) ∧
    (({ bench .c with plan := [.cycles 36 7] } : State).plan = [.cycles 36 7]) ∧
    (({ bench .c with plan := [.upset (.arith ⟨0, .v, 3, 1, 0⟩)] } : State).plan = [.upset (.arith ⟨0, .v, 3, 1, 0⟩)]) ∧
    ((bench .c).plan = [] ∧ ((bench .c).cycleOn.cycle Config.linkDie).toNat % 4 ≠ 0 ∧ ((atCycle 36 3 (bench .c)).cycleOn.cycle Config.linkDie).toNat % 4 = 0) ∧
    (({ bench .c with plan := [.run 1024 .c] } : State).plan = [.run 1024 .c]) := by
  refine ⟨?_, by decide +kernel, by decide +kernel, by decide, by decide, by decide, by decide, by decide +kernel, by decide⟩
  intro p h
  have hp : p = none ∨ p = some ⟨0, 0, false, 0, false, true, true⟩ := by simpa using h
  rcases hp with h | h <;> subst h <;>
    exact ⟨rfl, by decide +kernel, by decide +kernel, by decide +kernel, by decide +kernel, ok_of _ _ (by decide +kernel), fetched_of _ _ (by decide +kernel),
      decoded_of _ _ _ (by decide +kernel), by decide +kernel, by decide +kernel, by decide +kernel, by decide +kernel, by decide +kernel, by decide +kernel,
      by decide +kernel, by decide +kernel, by decide +kernel⟩

theorem witness_RoundTrip :
    ((Instr.mov 31 31).wf .c = true ∧ (Instr.mov 31 31).isEvent = false) ∧ (Instr.endS.wf .v = true ∧ Instr.endS.isEvent = false) ∧
      decode .c [0x8A, 0x24] = .ok (.mov 4 9, []) :=
  ⟨by decide, by decide, decoded_of _ _ _ (by decide +kernel)⟩

theorem witness_StepKeepsMemory : (bench .c).memWf ∧ ∃ t, step (bench .c) = .next t := by
  refine ⟨⟨rfl, rfl, rfl⟩, ?_⟩
  have : (match step (bench .c) with | .next _ => true | _ => false) = true := by decide +kernel
  revert this
  cases step (bench .c) with
  | next t => exact fun _ => ⟨t, rfl⟩
  | _ => exact fun h => by cases h

theorem witness_ResetState : State.reset.afterReset ∧ (∃ t : State, t.afterReset ∧ exec .moduleColdReset (bench .c) = .next t) ∧ State.reset.memWf :=
  ⟨Or.inl rfl, ⟨_, Or.inr ⟨bench .c, rfl⟩, rfl⟩, rfl, rfl, rfl⟩

end Sys2Proof.Tests
end

section
/-!
PROOFS. What writing bytes of a die view, taking and sending messages, propagating a store and telling those that wait for a line leave as
they were, and from it the transitions of a die view (Table 7-4).
-/

namespace Sys2Proof.Machine

/-! ### Finite maps -/

/-- A key of a map whose values have all been changed by a function that keeps the default. -/
theorem amap_get_map {α : Type} (m : AMap α) (g : α → α) (k : Nat) (d : α) (hd : g d = d) :
    AMap.get (m.map fun e => (e.1, g e.2)) k d = g (m.get k d) := by
  induction m with
  | nil => exact hd.symm
  | cons e rest ih =>
    rw [List.map_cons, AMap.get, AMap.get, ih]
    split <;> rfl

/-- A key without an entry reads as the default. -/
theorem amap_get_of_has_eq_false {α : Type} (m : AMap α) (k : Nat) (d : α) (h : m.has k = false) : m.get k d = d := by
  induction m with
  | nil => rfl
  | cons e rest ih =>
    rw [AMap.has, List.any_cons, Bool.or_eq_false_iff] at h
    rw [AMap.get, if_neg (by simpa using h.1)]
    exact ih h.2

/-! ### Bytes of a die view -/

@[simp] theorem State.dvByte_setDv (s : State) (die loc d l : Nat) (b : DvByte) :
    (s.setDv die loc b).dvByte d l = if d = die ∧ l = loc then b else s.dvByte d l := by
  by_cases hd : d = die
  · subst hd
    by_cases hl : l = loc
    · subst hl; simp [State.dvByte, State.setDv, AMap.get_set_same]
    · simp [State.dvByte, State.setDv, AMap.get_set_same, AMap.get_set_other _ _ _ _ _ hl, hl]
  · simp [State.dvByte, State.setDv, AMap.get_set_other _ _ _ _ _ hd, hd]

@[simp] theorem State.dvByte_dvClean (s : State) (die d l : Nat) (ws : List Nat) : (s.dvClean die ws).dvByte d l = s.dvByte d l := by
  unfold State.dvClean
  simp only []
  split <;> rfl

@[simp] theorem State.dvByte_dvForget (s : State) (die d l : Nat) (locs : List Nat) : (s.dvForget die locs).dvByte d l = s.dvByte d l :=
  s.dvByte_dvClean ..

/-- Changes bytes of a view one after the other, each from what it was: what V1 to V4 come to. -/
def State.mapDv {α : Type} (s : State) (die : Nat) (key : α → Nat) (f : α → DvByte → DvByte) (bs : List α) : State :=
  bs.foldl (fun s b => s.setDv die (key b) (f b (s.dvByte die (key b)))) s

/-- Of distinct bytes each has been changed once, and every other byte of every view is as before. -/
theorem State.dvByte_mapDv {α : Type} (s : State) (die d l : Nat) (key : α → Nat) (f : α → DvByte → DvByte) (bs : List α)
    (hn : (bs.map key).Nodup) :
    (s.mapDv die key f bs).dvByte d l =
      match bs.find? fun b => key b == l with
      | some b => if d = die then f b (s.dvByte d l) else s.dvByte d l
      | none => s.dvByte d l := by
  induction bs generalizing s with
  | nil => rfl
  | cons b rest ih =>
    rw [List.map_cons, List.nodup_cons] at hn
    rw [State.mapDv, List.foldl_cons, ← State.mapDv, ih _ hn.2, State.dvByte_setDv, List.find?_cons]
    by_cases hl : key b = l
    · have hnone : rest.find? (fun c => key c == l) = none := by
        rw [List.find?_eq_none]
        intro c hc he
        exact hn.1 (hl ▸ eq_of_beq he ▸ List.mem_map_of_mem hc)
      subst hl
      by_cases hd : d = die <;> simp [hnone, hd]
    · simp [Ne.symm hl, beq_eq_false_iff_ne.2 hl]

/-- The change of every byte of `locs` by `f`, said of one byte. -/
theorem State.dvByte_mapDv_locs (s : State) (die d l : Nat) (f : DvByte → DvByte) (locs : List Nat) (hn : locs.Nodup) :
    (s.mapDv die (fun l => l) (fun _ => f) locs).dvByte d l = if d = die ∧ l ∈ locs then f (s.dvByte d l) else s.dvByte d l := by
  rw [State.dvByte_mapDv s die d l (fun l => l) (fun _ => f) locs (by simpa using hn)]
  by_cases hl : l ∈ locs
  · obtain ⟨c, hc⟩ := Option.isSome_iff_exists.1 (List.find?_isSome (p := fun b => b == l).2 ⟨l, hl, beq_self_eq_true l⟩)
    simp [hc, hl]
  · have hc : locs.find? (fun b => b == l) = none := List.find?_eq_none.2 fun c hc he => hl (eq_of_beq he ▸ hc)
    simp [hc, hl]

theorem mem_lineLocs (line l : Nat) : l ∈ lineLocs line ↔ l / 64 = line := by
  simp only [lineLocs, List.mem_map, List.mem_range]
  constructor
  · rintro ⟨i, hi, rfl⟩; omega
  · rintro rfl; exact ⟨l % 64, Nat.mod_lt _ (by omega), by omega⟩

theorem nodup_lineLocs (line : Nat) : (lineLocs line).Nodup :=
  List.Pairwise.map (64 * line + ·) (fun _ _ hne he => hne (Nat.add_left_cancel he)) List.nodup_range

/-- Searching for a key among the elements whose key passes a test. -/
theorem find?_filter_key {α : Type} (key : α → Nat) (q : Nat → Bool) (bs : List α) (l : Nat) :
    (bs.filter fun b => q (key b)).find? (fun b => key b == l) = if q l then bs.find? (fun b => key b == l) else none := by
  have hf : (fun b => decide (q (key b) = true ∧ (key b == l) = true)) = fun b => q l && key b == l := by
    funext b
    by_cases h : key b = l <;> simp [h]
  rw [List.find?_filter, hf]
  cases q l <;> simp

/-- Without planted check bits a view takes bytes by writing those that hold no pending identifier. -/
theorem State.dvTake_eq (s : State) (die : Nat) (bs : List (Nat × Byte × Nat)) (hc : s.ord.dvCheck.get die [] = []) :
    s.dvTake die bs =
      (s.mapDv die Prod.fst (fun b _ => ⟨true, b.2.1, b.2.2, none⟩) (bs.filter fun b => (s.dvByte die b.1).pend.isNone)).dvClean die
        ((bs.filter fun b => (s.dvByte die b.1).pend.isNone).map (·.1 / 4)) := by
  unfold State.dvTake State.dvMerge State.mapDv
  simp [hc]

/-- A view that takes distinct bytes: those that hold no pending identifier become VALID with their value and writer. -/
theorem State.dvByte_dvTake (s : State) (die d l : Nat) (bs : List (Nat × Byte × Nat)) (hn : (bs.map Prod.fst).Nodup)
    (hc : s.ord.dvCheck.get die [] = []) :
    (s.dvTake die bs).dvByte d l =
      match bs.find? fun b => b.1 == l with
      | some b => if d = die ∧ (s.dvByte die l).pend = none then ⟨true, b.2.1, b.2.2, none⟩ else s.dvByte d l
      | none => s.dvByte d l := by
  rw [State.dvTake_eq s die bs hc, State.dvByte_dvClean, State.dvByte_mapDv _ _ _ _ _ _ _ (hn.sublist (List.filter_sublist.map _)),
    find?_filter_key Prod.fst fun l => (s.dvByte die l).pend.isNone]
  cases bs.find? fun b => b.1 == l with
  | none => simp
  | some b => by_cases hp : (s.dvByte die l).pend = none <;> simp [hp]

/-- A confirmation clears the pending identifiers of its line that equal the store's. -/
theorem State.dvByte_confirm (s : State) (die line id d l : Nat) :
    (s.confirm die line id).dvByte d l =
      if d = die ∧ l / 64 = line ∧ (s.dvByte d l).pend = some id then { s.dvByte d l with pend := none } else s.dvByte d l := by
  have hm : l ∈ s.pendLocs die line (· == id) ↔ l / 64 = line ∧ (s.dvByte die l).pend = some id := by
    rw [State.pendLocs, List.mem_filter, mem_lineLocs]
    cases (s.dvByte die l).pend <;> simp
  have he : s.confirm die line id = s.mapDv die (fun l => l) (fun _ b => { b with pend := none }) (s.pendLocs die line (· == id)) := rfl
  have hn : (s.pendLocs die line (· == id)).Nodup := (nodup_lineLocs line).filter _
  rw [he, State.dvByte_mapDv_locs _ _ _ _ _ _ hn]
  by_cases hd : d = die
  · subst hd; simp only [hm, true_and]
  · simp only [hd, false_and, if_false]

/-- Bytes of a view that have an entry and hold no pending identifier: those that V3 makes INVALID. -/
def State.dropLocs (s : State) (die : Nat) (locs : List Nat) : List Nat :=
  locs.filter fun l => (s.ord.dv.get die []).has l && (s.dvByte die l).pend.isNone

theorem State.dvDrop_eq (s : State) (die : Nat) (locs : List Nat) :
    s.dvDrop die locs = (s.mapDv die (fun l => l) (fun _ b => { b with valid := false }) (s.dropLocs die locs)).dvForget die (s.dropLocs die locs) := rfl

/-- The bytes of a line that hold no pending identifier become INVALID. -/
theorem State.dvByte_dvDrop_lineLocs (s : State) (die line d l : Nat) :
    (s.dvDrop die (lineLocs line)).dvByte d l = if d = die ∧ l / 64 = line then dropByte (s.dvByte d l) 0 else s.dvByte d l := by
  have hn : (s.dropLocs die (lineLocs line)).Nodup := (nodup_lineLocs line).filter _
  rw [State.dvDrop_eq, State.dvByte_dvForget, State.dvByte_mapDv_locs _ _ _ _ _ _ hn]
  simp only [State.dropLocs, List.mem_filter, mem_lineLocs]
  by_cases hd : d = die
  · subst hd
    cases hh : (s.ord.dv.get d []).has l with
    | true => by_cases hl : l / 64 = line <;> simp [hl, dropByte]
    | false =>
      have hb : s.dvByte d l = {} := amap_get_of_has_eq_false _ _ _ hh
      simp [hb, dropByte]
  · simp [hd]

/-! ### What writing a view leaves as it was -/

/-- Nothing has changed but the views, their check bits, and what is recorded for the checks under way. -/
def State.onlyViews (s t : State) : Prop :=
  ∃ dv chk kh, t = { s with ord := { s.ord with dv := dv, dvCheck := chk, kHold := kh } }

theorem State.onlyViews.refl (s : State) : s.onlyViews s := ⟨_, _, _, rfl⟩

theorem State.onlyViews.trans {s t u : State} : s.onlyViews t → t.onlyViews u → s.onlyViews u := by
  rintro ⟨_, _, _, rfl⟩ ⟨_, _, _, rfl⟩
  exact ⟨_, _, _, rfl⟩

theorem State.onlyViews.onlyOrd {s t : State} : s.onlyViews t → s.onlyOrd t := by
  rintro ⟨_, _, _, rfl⟩; rfl

theorem State.onlyViews.dn {s t : State} : s.onlyViews t → t.ord.dn = s.ord.dn := by
  rintro ⟨_, _, _, rfl⟩; rfl

theorem State.onlyViews.fills {s t : State} : s.onlyViews t → t.ord.fills = s.ord.fills := by
  rintro ⟨_, _, _, rfl⟩; rfl

theorem State.onlyViews.mem {s t : State} : s.onlyViews t → t.mem = s.mem := by
  rintro ⟨_, _, _, rfl⟩; rfl

theorem State.onlyViews.tiles {s t : State} : s.onlyViews t → t.tiles = s.tiles := by
  rintro ⟨_, _, _, rfl⟩; rfl

theorem State.dvClean_onlyViews (s : State) (die : Nat) (ws : List Nat) : s.onlyViews (s.dvClean die ws) := by
  unfold State.dvClean
  simp only []
  split
  · exact .refl s
  · exact ⟨_, _, _, rfl⟩

theorem State.mapDv_onlyViews {α : Type} (s : State) (die : Nat) (key : α → Nat) (f : α → DvByte → DvByte) (bs : List α) :
    s.onlyViews (s.mapDv die key f bs) := by
  induction bs generalizing s with
  | nil => exact .refl s
  | cons b rest ih => exact .trans ⟨_, _, _, rfl⟩ (ih (s.setDv die (key b) (f b (s.dvByte die (key b)))))

theorem State.dvTake_onlyViews (s : State) (die : Nat) (bs : List (Nat × Byte × Nat)) (hc : s.ord.dvCheck.get die [] = []) :
    s.onlyViews (s.dvTake die bs) := by
  rw [State.dvTake_eq s die bs hc]
  exact (s.mapDv_onlyViews ..).trans (State.dvClean_onlyViews ..)

theorem State.confirm_onlyViews (s : State) (die line id : Nat) : s.onlyViews (s.confirm die line id) :=
  s.mapDv_onlyViews die (fun l => l) (fun _ b => { b with pend := none }) _

theorem State.dvDrop_onlyViews (s : State) (die : Nat) (locs : List Nat) : s.onlyViews (s.dvDrop die locs) := by
  rw [State.dvDrop_eq]
  exact (s.mapDv_onlyViews die (fun l => l) (fun _ b => { b with valid := false }) _).trans (State.dvClean_onlyViews ..)

/-- The record that V1 and V3 make of their message while a KR is awaited (R199). -/
def State.recordIfHeld (s : State) (die line : Nat) (m : DnMsg) : State := if s.kHeld die line then s.record die line m else s

theorem State.recordIfHeld_onlyViews (s : State) (die line : Nat) (m : DnMsg) : s.onlyViews (s.recordIfHeld die line m) := by
  unfold State.recordIfHeld
  split
  · exact ⟨_, _, _, rfl⟩
  · exact .refl s

@[simp] theorem State.dvByte_recordIfHeld (s : State) (die line d l : Nat) (m : DnMsg) :
    (s.recordIfHeld die line m).dvByte d l = s.dvByte d l := by
  unfold State.recordIfHeld
  split <;> rfl

@[simp] theorem State.dvCheck_recordIfHeld (s : State) (die line : Nat) (m : DnMsg) :
    (s.recordIfHeld die line m).ord.dvCheck = s.ord.dvCheck := by
  unfold State.recordIfHeld
  split <;> rfl

/-! ### V1 to V3 -/

/-- A view that takes the message at the head of its down channel, changes bytes and answers: the message is gone, the answer is the last of
its up channel, and nothing else has changed but views and records. -/
theorem State.onlyViews.answered {s u : State} {m : Dn} (h : (s.takeDn m).onlyViews u) (die line : Nat) (a : UpMsg) :
    s.onlyOrd (u.sendUp die line 0 a) ∧ (u.sendUp die line 0 a).ord.dn = s.ord.dn.erase m ∧
      (u.sendUp die line 0 a).ord.up = s.ord.up ++ [⟨die, line, 0, a, false, s.now⟩] := by
  obtain ⟨_, _, _, rfl⟩ := h
  exact ⟨rfl, rfl, rfl⟩

theorem execV1Update_of_head (s : State) (die line id : Nat) (bs : List (Nat × Byte)) (esc : Bool) (at_ : Nat)
    (h : s.dnHead die line = some ⟨die, line, .u id bs, esc, at_⟩) :
    exec (.v1Update die line) s =
      .next ((((s.takeDn ⟨die, line, .u id bs, esc, at_⟩).recordIfHeld die line (.u id bs)).dvTake die
        (bs.map fun b => (b.1, b.2, id))).sendUp die line 0 (.ua id)) := by
  show execV1Update die line s = _
  rw [execV1Update, h]
  rfl

theorem execV2Confirm_of_head (s : State) (die line id : Nat) (esc : Bool) (at_ : Nat)
    (h : s.dnHead die line = some ⟨die, line, .c id, esc, at_⟩) :
    exec (.v2Confirm die line) s = .next ((s.takeDn ⟨die, line, .c id, esc, at_⟩).confirm die line id) := by
  show execV2Confirm die line s = _
  rw [execV2Confirm, h]

theorem execV3Invalidate_of_head (s : State) (die line id : Nat) (esc : Bool) (at_ : Nat)
    (h : s.dnHead die line = some ⟨die, line, .i id, esc, at_⟩) :
    exec (.v3Invalidate die line) s =
      .next ((((s.takeDn ⟨die, line, .i id, esc, at_⟩).recordIfHeld die line (.i id)).dvDrop die (lineLocs line)).sendUp die line 0 (.ia id)) := by
  show execV3Invalidate die line s = _
  rw [execV3Invalidate, h]
  rfl

/-- V1: an update. -/
theorem execV1Update_takes (s : State) (die line id : Nat) (bs : List (Nat × Byte)) (esc : Bool) (at_ : Nat)
    (h : s.dnHead die line = some ⟨die, line, .u id bs, esc, at_⟩) (hn : (bs.map Prod.fst).Nodup) (hc : s.ord.dvCheck.get die [] = []) :
    ∃ t, exec (.v1Update die line) s = .next t ∧ s.onlyOrd t ∧ s.viewSet t die bs (takeByte id) ∧
      t.ord.dn = s.ord.dn.erase ⟨die, line, .u id bs, esc, at_⟩ ∧ t.ord.up = s.ord.up ++ [⟨die, line, 0, .ua id, false, s.now⟩] := by
  refine ⟨_, execV1Update_of_head s die line id bs esc at_ h, ?_⟩
  generalize hr : (s.takeDn ⟨die, line, .u id bs, esc, at_⟩).recordIfHeld die line (.u id bs) = r
  have hcr : r.ord.dvCheck.get die [] = [] := by rw [← hr, State.dvCheck_recordIfHeld]; exact hc
  have hb : ∀ d l, r.dvByte d l = s.dvByte d l := fun d l => by rw [← hr, State.dvByte_recordIfHeld]; rfl
  have hv : (s.takeDn ⟨die, line, .u id bs, esc, at_⟩).onlyViews (r.dvTake die (bs.map fun b => (b.1, b.2, id))) :=
    .trans (hr ▸ State.recordIfHeld_onlyViews ..) (r.dvTake_onlyViews die _ hcr)
  obtain ⟨ho, hdn, hup⟩ := hv.answered die line (.ua id)
  refine ⟨ho, fun d l => ?_, hdn, hup⟩
  show (r.dvTake die _).dvByte d l = _
  rw [State.dvByte_dvTake r die d l _ (by rwa [List.map_map]) hcr, List.find?_map]
  simp only [hb, Function.comp_def]
  cases bs.find? fun b => b.1 == l with
  | none => rfl
  | some b =>
    show (if d = die ∧ (s.dvByte die l).pend = none then (⟨true, b.2, id, none⟩ : DvByte) else s.dvByte d l) =
      if d = die then takeByte id (s.dvByte die l) b.2 else s.dvByte d l
    by_cases hd : d = die
    · subst hd; simp [takeByte]
    · simp [hd]

/-- V2: a confirmation. -/
theorem execV2Confirm_clears (s : State) (die line id : Nat) (esc : Bool) (at_ : Nat)
    (h : s.dnHead die line = some ⟨die, line, .c id, esc, at_⟩) :
    ∃ t, exec (.v2Confirm die line) s = .next t ∧ s.onlyOrd t ∧ t.ord.dn = s.ord.dn.erase ⟨die, line, .c id, esc, at_⟩ ∧
      ∀ d l, t.dvByte d l = if d = die ∧ l / 64 = line ∧ (s.dvByte d l).pend = some id then { s.dvByte d l with pend := none } else s.dvByte d l := by
  have hv := (s.takeDn ⟨die, line, .c id, esc, at_⟩).confirm_onlyViews die line id
  exact ⟨_, execV2Confirm_of_head s die line id esc at_ h, hv.onlyOrd, hv.dn, fun d l => State.dvByte_confirm ..⟩

/-- V3: an invalidation. -/
theorem execV3Invalidate_drops (s : State) (die line id : Nat) (esc : Bool) (at_ : Nat)
    (h : s.dnHead die line = some ⟨die, line, .i id, esc, at_⟩) :
    ∃ t, exec (.v3Invalidate die line) s = .next t ∧ s.onlyOrd t ∧ t.ord.dn = s.ord.dn.erase ⟨die, line, .i id, esc, at_⟩ ∧
      t.ord.up = s.ord.up ++ [⟨die, line, 0, .ia id, false, s.now⟩] ∧
      ∀ d l, t.dvByte d l = if d = die ∧ l / 64 = line then dropByte (s.dvByte d l) 0 else s.dvByte d l := by
  have hv : (s.takeDn ⟨die, line, .i id, esc, at_⟩).onlyViews
      (((s.takeDn ⟨die, line, .i id, esc, at_⟩).recordIfHeld die line (.i id)).dvDrop die (lineLocs line)) :=
    .trans (State.recordIfHeld_onlyViews ..) (State.dvDrop_onlyViews ..)
  obtain ⟨ho, hdn, hup⟩ := hv.answered die line (.ia id)
  refine ⟨_, execV3Invalidate_of_head s die line id esc at_ h, ho, hdn, hup, fun d l => ?_⟩
  have hb : ((s.takeDn ⟨die, line, .i id, esc, at_⟩).recordIfHeld die line (.i id)).dvByte d l = s.dvByte d l := State.dvByte_recordIfHeld ..
  exact (State.dvByte_dvDrop_lineLocs ..).trans (by rw [hb])

/-! ### What propagating a store leaves as it was -/

/-- Nothing has changed but contexts, saved streams, released records, who has seen which store, the ways of the die caches, and who waits
for a line. -/
def State.keepsBytes (s t : State) : Prop :=
  ∃ ctxs sched prot propAt ways waiters bad, t = { s with
    ctxs := ctxs, sched := sched, prot := prot, ord := { s.ord with propAt := propAt, ways := ways }
    mem := { s.mem with waiters := waiters, fillBad := bad } }

theorem State.keepsBytes.refl (s : State) : s.keepsBytes s := ⟨_, _, _, _, _, _, _, rfl⟩

theorem State.keepsBytes.trans {s t u : State} : s.keepsBytes t → t.keepsBytes u → s.keepsBytes u := by
  rintro ⟨_, _, _, _, _, _, _, rfl⟩ ⟨_, _, _, _, _, _, _, rfl⟩
  exact ⟨_, _, _, _, _, _, _, rfl⟩

theorem State.keepsBytes.sameBytes {s t : State} : s.keepsBytes t → s.sameBytes t := by
  rintro ⟨_, _, _, _, _, _, _, rfl⟩
  exact ⟨fun _ => rfl, fun _ => rfl, fun _ => rfl, fun _ _ => rfl, fun _ => rfl⟩

theorem State.keepsBytes.dn {s t : State} : s.keepsBytes t → t.ord.dn = s.ord.dn := by
  rintro ⟨_, _, _, _, _, _, _, rfl⟩; rfl

theorem State.keepsBytes.fills {s t : State} : s.keepsBytes t → t.ord.fills = s.ord.fills := by
  rintro ⟨_, _, _, _, _, _, _, rfl⟩; rfl

theorem State.keepsBytes.tiles {s t : State} : s.keepsBytes t → t.tiles = s.tiles := by
  rintro ⟨_, _, _, _, _, _, _, rfl⟩; rfl

theorem State.markProp_keepsBytes (s : State) (die id : Nat) : s.keepsBytes (s.markProp die id) := by
  unfold State.markProp
  split
  · exact .refl s
  · exact ⟨_, _, _, _, _, _, _, rfl⟩

theorem State.upDie_keepsBytes (s : State) (die : Nat) (f : StreamSt → StreamSt) : s.keepsBytes (s.upDie die f) := by
  unfold State.upDie
  generalize dieCtxs s die = ks
  induction ks generalizing s with
  | nil => exact .refl s
  | cons k rest ih => exact .trans ⟨_, _, _, _, _, _, _, rfl⟩ (ih (s.upCtx k _))

theorem State.upStreams_keepsBytes (s : State) (f : StreamSt → StreamSt) : s.keepsBytes (s.upStreams f) := ⟨_, _, _, _, _, _, _, rfl⟩

theorem State.epochLeft_keepsBytes (s : State) (id : Nat) : s.keepsBytes (s.epochLeft id) := ⟨_, _, _, _, _, _, _, rfl⟩

/-- A store's identifier leaves the observed set of a stream. -/
def StreamSt.unobserve (id : Nat) (x : StreamSt) : StreamSt := { x with obs := x.obs.filter fun o => o.1 ≠ id }

/-- An early store of a die has performed at module scope, and is no more outstanding in a stream. -/
def StreamSt.forgetEarly (die id : Nat) (x : StreamSt) : StreamSt := { x with outE := x.outE.filter fun o => !(o.id == id && o.die == die) }

theorem State.propagate_eq (s : State) (die id : Nat) :
    s.propagate die id =
      if s.issuedOn die id then (((s.markProp die id).upDie die (.unobserve id)).upStreams (.forgetEarly die id)).epochLeft id
      else (s.markProp die id).upDie die (.unobserve id) := rfl

theorem State.propagate_keepsBytes (s : State) (die id : Nat) : s.keepsBytes (s.propagate die id) := by
  have h : s.keepsBytes ((s.markProp die id).upDie die (.unobserve id)) := (s.markProp_keepsBytes die id).trans (State.upDie_keepsBytes ..)
  rw [State.propagate_eq]
  split
  · exact (h.trans (State.upStreams_keepsBytes ..)).trans (State.epochLeft_keepsBytes ..)
  · exact h

theorem State.allocWay_keepsBytes (s : State) (die line vf : Nat) : s.keepsBytes (s.allocWay die line vf) := by
  unfold State.allocWay
  simp only []
  split
  · exact .refl s
  · exact ⟨_, _, _, _, _, _, _, rfl⟩

theorem State.allocWay_onlyOrd (s : State) (die line vf : Nat) : s.onlyOrd (s.allocWay die line vf) := by
  unfold State.allocWay
  simp only []
  split <;> rfl

theorem State.tellWaiters_keepsBytes (s : State) (die line : Nat) (locs : List Nat) (code : Nat) : s.keepsBytes (s.tellWaiters die line locs code) := by
  unfold State.tellWaiters
  simp only []
  split
  · exact .refl s
  · exact ⟨_, _, _, _, _, _, _, rfl⟩

theorem State.tellWaiters_onlyWaiters (s : State) (die line : Nat) (locs : List Nat) (code : Nat) : s.onlyWaiters (s.tellWaiters die line locs code) := by
  unfold State.tellWaiters
  simp only []
  split <;> rfl

theorem State.onlyOrd.trans {s t u : State} (h : s.onlyOrd t) (h' : t.onlyOrd u) : s.onlyOrd u :=
  Eq.trans h' (by rw [h])

theorem State.onlyOrd.trans_onlyWaiters {s t u : State} (h : s.onlyOrd t) (h' : t.onlyWaiters u) : s.onlyWaiters u :=
  Eq.trans h' (by rw [h])

/-! ### V4 -/

/-- Steps that leave a state as it is leave it so together. -/
theorem foldl_of_fixed {α : Type} (f : State → α → State) (s : State) (l : List α) (h : ∀ a, f s a = s) : l.foldl f s = s := by
  induction l with
  | nil => rfl
  | cons a rest ih => rw [List.foldl_cons, h, ih]

/-- No read fails for want of no byte. -/
theorem State.failReads_nil (s : State) (die code : Nat) : s.failReads die [] code = s := by
  unfold State.failReads
  refine foldl_of_fixed _ s _ fun h => ?_
  split
  · split <;> simp
  · rfl

/-- Stores that a fill reply marks as propagated are so at the die (R438). -/
def State.propagateAll (s : State) (die : Nat) (ws : List Nat) : State := ws.foldl (fun s w => if w = 0 then s else s.propagate die w) s

theorem State.propagateAll_keepsBytes (s : State) (die : Nat) (ws : List Nat) : s.keepsBytes (s.propagateAll die ws) := by
  induction ws generalizing s with
  | nil => exact .refl s
  | cons w rest ih =>
    rw [State.propagateAll, List.foldl_cons, ← State.propagateAll]
    split
    · exact ih s
    · exact (s.propagate_keepsBytes die w).trans (ih _)

/-- Writer 0 stands for no store. -/
theorem State.propagateAll_zeros (s : State) (die : Nat) (ws : List Nat) (h : ∀ w ∈ ws, w = 0) : s.propagateAll die ws = s := by
  induction ws with
  | nil => rfl
  | cons w rest ih =>
    rw [State.propagateAll, List.foldl_cons, if_pos (h w List.mem_cons_self), ← State.propagateAll]
    exact ih fun w hw => h w (List.mem_cons_of_mem _ hw)

/-- The bytes of a fill reply that the view cannot give. -/
def State.missing (s : State) (die : Nat) (bs : List (Nat × Byte × Nat × Bool)) : List (Nat × Byte × Nat × Bool) :=
  bs.filter fun b => !(s.dvByte die b.1).readable

/-- The view behind a fill reply: the fill is answered, and the bytes that could not be read are taken. -/
def State.filled (s : State) (die line : Nat) (bs : List (Nat × Byte × Nat × Bool)) : State :=
  (s.fillDone die line).dvTake die ((s.missing die bs).map fun b => (b.1, b.2.1, b.2.2.1))

/-- Writers of the bytes taken that the reply marks as propagated. -/
def State.newlySeen (s : State) (die : Nat) (bs : List (Nat × Byte × Nat × Bool)) : List Nat :=
  (((s.missing die bs).filter fun b => b.2.2.2).map fun b => b.2.2.1).eraseDups

theorem State.dvByte_filled (s : State) (die line d l : Nat) (bs : List (Nat × Byte × Nat × Bool)) (hn : (bs.map Prod.fst).Nodup)
    (hc : s.ord.dvCheck.get die [] = []) :
    (s.filled die line bs).dvByte d l =
      match bs.find? fun b => b.1 == l with
      | some b => if d = die ∧ (s.dvByte die l).readable = false then ⟨true, b.2.1, b.2.2.1, none⟩ else s.dvByte d l
      | none => s.dvByte d l := by
  have hm : (((s.missing die bs).map fun b => (b.1, b.2.1, b.2.2.1)).map Prod.fst).Nodup := by
    rw [List.map_map]
    exact hn.sublist (List.filter_sublist.map _)
  have hb : (s.fillDone die line).dvByte = s.dvByte := rfl
  have hf : (s.fillDone die line).ord.dvCheck.get die [] = [] := hc
  rw [State.filled, State.dvByte_dvTake _ _ _ _ _ hm hf, List.find?_map, hb]
  simp only [Function.comp_def]
  rw [State.missing, find?_filter_key Prod.fst fun l => !(s.dvByte die l).readable]
  cases hr : (s.dvByte die l).readable with
  | true => cases bs.find? fun b => b.1 == l <;> simp
  | false =>
    have hp : (s.dvByte die l).pend = none := by
      rw [DvByte.readable, Bool.or_eq_false_iff] at hr
      simpa using hr.2
    cases bs.find? fun b => b.1 == l <;> simp [hp]

theorem State.filled_onlyViews (s : State) (die line : Nat) (bs : List (Nat × Byte × Nat × Bool)) (hc : s.ord.dvCheck.get die [] = []) :
    (s.fillDone die line).onlyViews (s.filled die line bs) :=
  State.dvTake_onlyViews _ die _ hc

theorem execV4FillReply_of_head (s : State) (die line : Nat) (bs : List (Nat × Byte × Nat × Bool)) (esc : Bool) (at_ : Nat)
    (h : s.dnHead die line = some ⟨die, line, .fr bs [], esc, at_⟩) :
    exec (.v4FillReply die line) s =
      let u := s.takeDn ⟨die, line, .fr bs [], esc, at_⟩
      let v := (u.filled die line bs).propagateAll die (u.newlySeen die bs)
      .next ((v.allocWay die line (v.lineVf line)).tellWaiters die line [] 1) := by
  show execV4FillReply die line s = _
  rw [execV4FillReply, h]
  simp only [State.failReads_nil]
  rfl

/-- V4: a fill reply without an uncorrectable byte. -/
theorem execV4FillReply_fills (s : State) (die line : Nat) (bs : List (Nat × Byte × Nat × Bool)) (esc : Bool) (at_ : Nat)
    (h : s.dnHead die line = some ⟨die, line, .fr bs [], esc, at_⟩) (hn : (bs.map Prod.fst).Nodup) (hc : s.ord.dvCheck.get die [] = []) :
    ∃ t, exec (.v4FillReply die line) s = .next t ∧ (∀ a, t.hbmByte a = s.hbmByte a) ∧ t.tiles = s.tiles ∧
      t.ord.dn = s.ord.dn.erase ⟨die, line, .fr bs [], esc, at_⟩ ∧
      (die, line) ∉ t.ord.fills ∧ ((∀ b ∈ bs, b.2.2.2 = true → b.2.2.1 = 0) → s.onlyWaiters t) ∧
      ∀ d l, t.dvByte d l =
        match bs.find? fun b => b.1 == l with
        | some b => if d = die ∧ (s.dvByte die l).readable = false then ⟨true, b.2.1, b.2.2.1, none⟩ else s.dvByte d l
        | none => s.dvByte d l := by
  refine ⟨_, execV4FillReply_of_head s die line bs esc at_ h, ?_⟩
  generalize hu : s.takeDn ⟨die, line, .fr bs [], esc, at_⟩ = u
  have hcu : u.ord.dvCheck.get die [] = [] := by rw [← hu]; exact hc
  have hub : u.dvByte = s.dvByte := by rw [← hu]; rfl
  have hw := u.filled_onlyViews die line bs hcu
  generalize hv : (u.filled die line bs).propagateAll die (u.newlySeen die bs) = v
  have hk : (u.filled die line bs).keepsBytes ((v.allocWay die line (v.lineVf line)).tellWaiters die line [] 1) :=
    .trans (hv ▸ State.propagateAll_keepsBytes ..) ((State.allocWay_keepsBytes ..).trans (State.tellWaiters_keepsBytes ..))
  refine ⟨fun a => ?_, ?_, ?_, ?_, fun hz => ?_, fun d l => ?_⟩
  · rw [hk.sameBytes.hbm, State.hbmByte, hw.mem, ← hu]; rfl
  · rw [hk.tiles, hw.tiles, ← hu]; rfl
  · rw [hk.dn, hw.dn, ← hu]; rfl
  · rw [hk.fills, hw.fills]
    simp [State.fillDone]
  · have hz' : ∀ w ∈ u.newlySeen die bs, w = 0 := by
      intro w hmem
      rw [State.newlySeen, List.mem_eraseDups, List.mem_map] at hmem
      obtain ⟨b, hb, rfl⟩ := hmem
      rw [List.mem_filter] at hb
      exact hz b (List.mem_filter.1 hb.1).1 hb.2
    have hs : s.onlyOrd (u.fillDone die line) := by rw [← hu]; rfl
    rw [State.propagateAll_zeros _ _ _ hz'] at hv
    rw [← hv]
    exact ((hs.trans hw.onlyOrd).trans (State.allocWay_onlyOrd ..)).trans_onlyWaiters (State.tellWaiters_onlyWaiters ..)
  · rw [hk.sameBytes.view, State.dvByte_filled _ _ _ _ _ _ hn hcu, hub]

/-! ### V5 -/

theorem mem_dieCtxs (s : State) (die k : Nat) : k ∈ dieCtxs s die ↔ (s.ctxs.any fun e => e.1 == k) = true ∧ dieOf k = die := by
  simp [dieCtxs]

/-- Every stream of a context changed by one function. -/
theorem Ctx.strm_foldl_upStrm (c : Ctx) (f : StreamSt → StreamSt) (st : Strm) : (allStrms.foldl (fun c st => c.upStrm st f) c).strm st = f (c.strm st) := by
  cases st <;> rfl

theorem State.strm_upCtx (s : State) (k j : Nat) (st : Strm) (g : Ctx → Ctx) :
    (s.upCtx k g).strm j st = if j = k then (g (s.ctx k)).strm st else s.strm j st := by
  rw [State.strm, State.ctx_upCtx]
  split <;> rfl

/-- A stream of a die whose streams have all been changed by a function that is its own square. -/
theorem State.strm_upDie (s : State) (die k : Nat) (st : Strm) (f : StreamSt → StreamSt) (hf : ∀ x, f (f x) = f x) :
    (s.upDie die f).strm k st = if k ∈ dieCtxs s die then f (s.strm k st) else s.strm k st := by
  unfold State.upDie
  generalize dieCtxs s die = ks
  induction ks generalizing s with
  | nil => simp
  | cons j rest ih =>
    rw [List.foldl_cons, ih, State.strm_upCtx, Ctx.strm_foldl_upStrm]
    by_cases hj : k = j
    · subst hj
      by_cases hr : k ∈ rest <;> simp [hr, hf, State.strm]
    · simp [hj]

theorem State.strm_upStreams (s : State) (k : Nat) (st : Strm) (f : StreamSt → StreamSt)
    (hf : allStrms.foldl (fun c st => c.upStrm st f) ({} : Ctx) = {}) : (s.upStreams f).strm k st = f (s.strm k st) := by
  have hc : (s.upStreams f).ctx k = allStrms.foldl (fun c st => c.upStrm st f) (s.ctx k) :=
    amap_get_map s.ctxs (fun c => allStrms.foldl (fun c st => c.upStrm st f) c) k {} hf
  rw [State.strm, hc, Ctx.strm_foldl_upStrm]
  rfl

theorem State.ctxs_markProp (s : State) (die id : Nat) : (s.markProp die id).ctxs = s.ctxs := by
  unfold State.markProp
  split <;> rfl

theorem State.dieCtxs_markProp (s : State) (die d id : Nat) : dieCtxs (s.markProp die id) d = dieCtxs s d := by
  rw [dieCtxs, State.ctxs_markProp]
  rfl

theorem State.strm_markProp (s : State) (die id k : Nat) (st : Strm) : (s.markProp die id).strm k st = s.strm k st := by
  rw [State.strm, State.ctx, State.ctxs_markProp]
  rfl

theorem StreamSt.unobserve_unobserve (id : Nat) (x : StreamSt) : (x.unobserve id).unobserve id = x.unobserve id := by
  simp [StreamSt.unobserve]

/-- A stream behind the propagation of a store at a die: the store has left its observed set there, and is no more outstanding when it was
issued on that die. -/
theorem State.strm_propagate (s : State) (die id k : Nat) (st : Strm) :
    (s.propagate die id).strm k st =
      let x := if k ∈ dieCtxs s die then (s.strm k st).unobserve id else s.strm k st
      if s.issuedOn die id = true then x.forgetEarly die id else x := by
  have hd : ((s.markProp die id).upDie die (.unobserve id)).strm k st =
      if k ∈ dieCtxs s die then (s.strm k st).unobserve id else s.strm k st := by
    rw [State.strm_upDie _ _ _ _ _ (StreamSt.unobserve_unobserve id), State.dieCtxs_markProp, State.strm_markProp]
  rw [State.propagate_eq, ← hd]
  cases s.issuedOn die id with
  | true => exact State.strm_upStreams _ k st _ rfl
  | false => rfl

theorem State.propagatedAt_markProp (s : State) (die id : Nat) : (s.markProp die id).propagatedAt die id = true := by
  unfold State.markProp
  split
  · assumption
  · simp [State.propagatedAt, AMap.get_set_same]

theorem State.propAt_upDie (s : State) (die : Nat) (f : StreamSt → StreamSt) : (s.upDie die f).ord.propAt = s.ord.propAt := by
  unfold State.upDie
  generalize dieCtxs s die = ks
  induction ks generalizing s with
  | nil => rfl
  | cons k rest ih => exact ih (s.upCtx k _)

theorem State.propagatedAt_propagate (s : State) (die id : Nat) : (s.propagate die id).propagatedAt die id = true := by
  have h : (s.propagate die id).ord.propAt = (s.markProp die id).ord.propAt := by
    rw [State.propagate_eq, ← State.propAt_upDie (s.markProp die id) die (.unobserve id)]
    split <;> rfl
  rw [State.propagatedAt, h]
  exact s.propagatedAt_markProp die id

/-- V5: a store is propagated. -/
theorem execV5Propagated_propagates (s : State) (die line id : Nat) (esc : Bool) (at_ : Nat)
    (h : s.dnHead die line = some ⟨die, line, .p id, esc, at_⟩) :
    ∃ t, exec (.v5Propagated die line) s = .next t ∧ t.ord.dn = s.ord.dn.erase ⟨die, line, .p id, esc, at_⟩ ∧ s.sameBytes t ∧
      t.propagatedAt die id = true ∧
      (∀ k st, (s.ctxs.any fun e => e.1 == k) = true → dieOf k = die → (t.strm k st).obs = (s.strm k st).obs.filter fun o => o.1 ≠ id) ∧
      (∀ k st, s.issuedOn die id = true → (s.ctxs.any fun e => e.1 == k) = true →
        (t.strm k st).outE = (s.strm k st).outE.filter fun o => !(o.id == id && o.die == die)) := by
  have he : exec (.v5Propagated die line) s = .next ((s.takeDn ⟨die, line, .p id, esc, at_⟩).propagate die id) := by
    show execV5Propagated die line s = _
    rw [execV5Propagated, h]
  have hk := (s.takeDn ⟨die, line, .p id, esc, at_⟩).propagate_keepsBytes die id
  have hs : ∀ k st, ((s.takeDn ⟨die, line, .p id, esc, at_⟩).propagate die id).strm k st =
      let x := if k ∈ dieCtxs s die then (s.strm k st).unobserve id else s.strm k st
      if s.issuedOn die id = true then x.forgetEarly die id else x := fun k st => State.strm_propagate ..
  have hb : s.sameBytes ((s.takeDn ⟨die, line, .p id, esc, at_⟩).propagate die id) :=
    let h := hk.sameBytes
    ⟨h.hbm, h.host, h.weight, h.view, h.tile⟩
  refine ⟨_, he, hk.dn, hb, State.propagatedAt_propagate .., fun k st hc hd => ?_, fun k st hi _ => ?_⟩
  · rw [hs, if_pos ((mem_dieCtxs s die k).2 ⟨hc, hd⟩)]
    cases s.issuedOn die id <;> rfl
  · rw [hs, if_pos hi]
    by_cases hm : k ∈ dieCtxs s die
    · rw [if_pos hm]; rfl
    · rw [if_neg hm]; rfl

/-! ### The statement -/

/-- Settles O42: V1 to V5 each by its own lemma. -/
theorem viewTakes : Obligations.ViewTakes := by
  intro s die line esc at_
  exact ⟨fun id bs h hn hc => execV1Update_takes s die line id bs esc at_ h hn hc,
    fun id h => execV2Confirm_clears s die line id esc at_ h,
    fun id h => execV3Invalidate_drops s die line id esc at_ h,
    fun bs h hn hc => execV4FillReply_fills s die line bs esc at_ h hn hc,
    fun id h => execV5Propagated_propagates s die line id esc at_ h⟩

end Sys2Proof.Machine
end

section
/-!
PROOFS. What the integer instructions of the control stream compute (Table 15-1, R317 to R322), and from it that they write their result and
nothing else; and what `call` and `ret` come to in each case of R336 to R338.
-/

namespace Sys2Proof.Machine

/-! ### Results over the integers (R317 to R321) -/

theorem add_eq_ofInt (a b : Word) : a + b = BitVec.ofInt 64 ((a.toNat : Int) + b.toNat) := by
  rw [BitVec.ofInt_add]; simp

theorem sub_eq_ofInt (a b : Word) : a - b = BitVec.ofInt 64 ((a.toNat : Int) - b.toNat) := by
  rw [Int.sub_eq_add_neg, BitVec.ofInt_add, BitVec.ofInt_neg, BitVec.sub_eq_add_neg]; simp

theorem mul_eq_ofInt (a b : Word) : a * b = BitVec.ofInt 64 ((a.toNat : Int) * b.toNat) := by
  rw [BitVec.ofInt_mul]; simp

theorem shiftLeft_eq_ofInt (a : Word) (n : Nat) : a <<< n = BitVec.ofInt 64 ((a.toNat : Int) * 2 ^ n) := by
  have h : BitVec.ofInt 64 ((a.toNat : Int) * 2 ^ n) = BitVec.ofNat 64 (a.toNat * 2 ^ n) := mod_cast BitVec.ofInt_natCast ..
  rw [h]
  exact BitVec.eq_of_toNat_eq (by simp [Nat.shiftLeft_eq])

theorem ushiftRight_eq_ofInt (a : Word) (n : Nat) : a >>> n = BitVec.ofInt 64 ((a.toNat : Int) / 2 ^ n) := by
  have h : BitVec.ofInt 64 ((a.toNat : Int) / 2 ^ n) = BitVec.ofNat 64 (a.toNat / 2 ^ n) := mod_cast BitVec.ofInt_natCast ..
  rw [h, ← Nat.shiftRight_eq_div_pow, ← BitVec.toNat_ushiftRight, BitVec.ofNat_toNat, BitVec.setWidth_eq]

theorem sshiftRight_eq_ofInt (a : Word) (n : Nat) : a.sshiftRight n = BitVec.ofInt 64 (a.toInt / 2 ^ n) := by
  rw [BitVec.sshiftRight, Int.shiftRight_eq_div_pow]; simp

/-- Bits [127:64] of an exact product are its quotient by 2^64, rounded down. -/
theorem ofInt_div_eq_high64 (x : Int) : BitVec.ofInt 64 (x / 2 ^ 64) = high64 x := by
  refine BitVec.eq_of_toNat_eq ?_
  rw [high64, BitVec.extractLsb'_toNat, BitVec.toNat_ofInt, BitVec.toNat_ofInt, Nat.shiftRight_eq_div_pow]
  omega

theorem ofNat_div_eq_high64 (n : Nat) : BitVec.ofNat 64 (n / 2 ^ 64) = high64 n := by
  rw [← ofInt_div_eq_high64]
  exact mod_cast (BitVec.ofInt_natCast ..).symm

theorem min_toInt_eq (a b : Word) : (if a.toInt ≤ b.toInt then a else b) = BitVec.ofInt 64 (min a.toInt b.toInt) := by
  rw [Int.min_def]; split <;> exact BitVec.ofInt_toInt.symm

theorem max_toInt_eq (a b : Word) : (if a.toInt ≤ b.toInt then b else a) = BitVec.ofInt 64 (max a.toInt b.toInt) := by
  rw [Int.max_def]; split <;> exact BitVec.ofInt_toInt.symm

theorem min_toNat_eq (a b : Word) : (if a.toNat ≤ b.toNat then a else b) = BitVec.ofInt 64 (min (a.toNat : Int) b.toNat) := by
  rw [Int.min_def]; simp only [Int.ofNat_le]; split <;> simp

theorem max_toNat_eq (a b : Word) : (if a.toNat ≤ b.toNat then b else a) = BitVec.ofInt 64 (max (a.toNat : Int) b.toNat) := by
  rw [Int.max_def]; simp only [Int.ofNat_le]; split <;> simp

theorem ofBool64_decide (p : Prop) [Decidable p] : ofBool64 (decide p) = oneIf p := by
  by_cases h : p <;> simp [oneIf, ofBool64, h]

/-- A signed quotient is all ones for a divisor of 0 and wraps for -2^63 by -1 (R318). -/
theorem divS_eq (a b : Word) : divS a b =
    if b = 0 then BitVec.ofInt 64 (-1)
    else if a.toInt = -2 ^ 63 ∧ b.toInt = -1 then BitVec.ofInt 64 (-2 ^ 63) else BitVec.ofInt 64 (a.toInt.tdiv b.toInt) := by
  unfold divS
  split
  · rfl
  · split
    case isTrue h => obtain ⟨ha, hb⟩ := h; rw [ha, hb]; rfl
    case isFalse => rfl

/-- A signed remainder is the dividend for a divisor of 0, and 0 for -2^63 by -1 (R318). -/
theorem remS_eq (a b : Word) : remS a b =
    if b = 0 then a
    else if a.toInt = -2 ^ 63 ∧ b.toInt = -1 then 0 else BitVec.ofInt 64 (a.toInt - b.toInt * a.toInt.tdiv b.toInt) := by
  unfold remS
  rw [Int.tmod_def]
  split
  · rfl
  · split
    case isTrue h => obtain ⟨ha, hb⟩ := h; rw [ha, hb]; rfl
    case isFalse => rfl

/-- An unsigned quotient is all ones for a divisor of 0 (R318). -/
theorem divU_eq (a b : Word) : divU a b =
    if b = 0 then BitVec.ofInt 64 (2 ^ 64 - 1) else BitVec.ofInt 64 ((a.toNat : Int) / b.toNat) := by
  unfold divU
  split
  · rfl
  · exact (BitVec.ofInt_natCast ..).symm

/-- An unsigned remainder is the dividend for a divisor of 0 (R318). -/
theorem remU_eq (a b : Word) : remU a b =
    if b = 0 then a else BitVec.ofInt 64 ((a.toNat : Int) - b.toNat * (a.toNat / b.toNat)) := by
  rw [remU, ← Int.emod_def]
  split
  · rfl
  · exact (BitVec.ofInt_natCast ..).symm

theorem atHalf_eq_shiftLeft (imm hw : Nat) : atHalf imm hw = BitVec.ofNat 64 imm <<< (16 * hw) :=
  BitVec.eq_of_toNat_eq (by simp [atHalf, Nat.shiftLeft_eq])

/-! ### Writing the result -/

/-- Equal results make equal outcomes of an integer instruction. -/
theorem State.next_alu_congr (s : State) (d : Nat) (srcs : List Nat) {v w : Word} (h : v = w) :
    (.next (s.alu d srcs v) : Out) = .next (s.alu d srcs w) := by rw [h]

/-- An integer instruction comes to the register write of its row of Table 15-1. -/
theorem exec_of_aluSpec (i : Instr) (s : State) (d : Nat) (srcs : List Nat) (v : Word) (h : aluSpec i s.readG = some (d, srcs, v)) :
    exec i s = .next (s.alu d srcs v) := by
  cases i with
  | mov | and | or | xor | sel | andi | ori | xori => cases h; rfl
  | add => cases h; exact s.next_alu_congr _ _ (add_eq_ofInt ..)
  | sub => cases h; exact s.next_alu_congr _ _ (sub_eq_ofInt ..)
  | shl | shli => cases h; exact s.next_alu_congr _ _ (shiftLeft_eq_ofInt ..)
  | shr | shri => cases h; exact s.next_alu_congr _ _ (ushiftRight_eq_ofInt ..)
  | sar | sari => cases h; exact s.next_alu_congr _ _ (sshiftRight_eq_ofInt ..)
  | mul => cases h; exact s.next_alu_congr _ _ (mul_eq_ofInt ..)
  | mulh => cases h; exact s.next_alu_congr _ _ (ofInt_div_eq_high64 _)
  | mulhu => cases h; exact s.next_alu_congr _ _ (ofNat_div_eq_high64 _)
  | div => cases h; exact s.next_alu_congr _ _ (divS_eq ..)
  | divu => cases h; exact s.next_alu_congr _ _ (divU_eq ..)
  | rem => cases h; exact s.next_alu_congr _ _ (remS_eq ..)
  | remu => cases h; exact s.next_alu_congr _ _ (remU_eq ..)
  | min => cases h; exact s.next_alu_congr _ _ (min_toInt_eq ..)
  | max => cases h; exact s.next_alu_congr _ _ (max_toInt_eq ..)
  | minu => cases h; exact s.next_alu_congr _ _ (min_toNat_eq ..)
  | maxu => cases h; exact s.next_alu_congr _ _ (max_toNat_eq ..)
  | slt | seq | sne | slti => cases h; exact s.next_alu_congr _ _ (ofBool64_decide _)
  | sltu => cases h; exact s.next_alu_congr _ _ ((ofBool64_decide _).trans (by simp only [Int.ofNat_lt]))
  | addi => cases h; exact s.next_alu_congr _ _ (by rw [BitVec.ofInt_add, BitVec.ofInt_toInt]; rfl)
  | li => cases h; exact s.next_alu_congr _ _ (atHalf_eq_shiftLeft ..)
  | lik => cases h; exact s.next_alu_congr _ _ (by rw [atHalf_eq_shiftLeft, atHalf_eq_shiftLeft]; rfl)
  | _ => cases h

/-- An integer instruction whose sources are ready writes its destination and finishes. -/
theorem State.alu_of_gReady (s : State) (d : Nat) (srcs : List Nat) (v : Word) (h : s.here.gReady srcs = true) :
    s.alu d srcs v = (s.writeG d v).finish := if_pos h

/-- An issue depends only on what the effect makes of the executing context. -/
theorem State.issues.congr {s t : State} {done : Bool} {go : StreamSt → StreamSt} {f g : Ctx → Ctx} (h : s.issues t done go f)
    (hfg : f s.here = g s.here) : s.issues t done go g := by
  obtain ⟨he, hb, hs, hn, hc⟩ := h
  exact ⟨he, hb, hfg ▸ hs, hn, hfg ▸ hc⟩

/-- The g registers after an issue are those that the effect leaves. -/
theorem State.issues.here_g {s t : State} {done : Bool} {go : StreamSt → StreamSt} {f : Ctx → Ctx} (h : s.issues t done go f) :
    t.here.g = (f s.here).g :=
  (congrArg Ctx.g h.ctx).trans (Ctx.setStrm_g ..)

@[simp] theorem Ctx.strm_writeG (c : Ctx) (r : Nat) (v : Word) (st : Strm) : (c.writeG r v).strm st = c.strm st := by cases st <;> rfl

/-- A register write that finishes passes with the write as its effect. -/
theorem State.writeG_finish_passes (s : State) (d : Nat) (v : Word) (hs : s.settled) :
    s.passes (s.writeG d v).finish true fun c => c.writeG d v :=
  s.finish_passes _ hs (by rw [Ctx.strm_writeG, State.me_eq]) rfl

/-- Settles O1: the result is that of `exec_of_aluSpec`, and what else changes is that of a register write that finishes. -/
theorem controlArithmetic : Obligations.ControlArithmetic := by
  intro i s d srcs v hspec hready hs
  have hp := s.writeG_finish_passes d v hs
  have hg := hp.here_g
  refine ⟨_, (exec_of_aluSpec i s d srcs v hspec).trans (by rw [s.alu_of_gReady d srcs v hready]), fun r => ?_, hp.congr ?_⟩
  · have hr : (s.writeG d v).finish.readG r = (s.here.writeG d v).readG r := by
      rw [State.readG, Ctx.readG, hg, Ctx.readG]
    rw [hr]
    exact s.here.readG_writeG d r v
  · rw [hg]; rfl

/-! ### Calls and returns (R336 to R338) -/

/-- A branch to a block header transfers control, with `pre` done first. -/
theorem State.branch_of_header (s : State) (a : Nat) (pre : State → State) (h : s.target s.cur.ctx a = .header) :
    s.branch a pre = (pre s).transfer a := by
  rw [State.branch, h]

/-- A control-flow fault is taken. -/
theorem State.faultSub_cCTLINT_faults (s : State) (sub : Nat) (h : s.mayFault) :
    s.faults (s.faultSub cCTLINT sub 0) { cause := cCTLINT, sub := sub } :=
  s.fault_faults _ h (show cCTLINT ≠ cXLATE by decide)

/-- What `call` makes of its context: g31 holds the return PC `a`, and so does the top of the shadow stack (R336). -/
def Ctx.pushReturn (a : Word) (c : Ctx) : Ctx := { c.writeG 31 a with shadow := a :: c.shadow }

/-- What `ret` makes of its context: `rest` is left of the shadow stack (R337). -/
def Ctx.popReturn (rest : List Word) (c : Ctx) : Ctx := { c with shadow := rest }

@[simp] theorem Ctx.strm_pushReturn (c : Ctx) (a : Word) (st : Strm) : (c.pushReturn a).strm st = c.strm st := by cases st <;> rfl

@[simp] theorem Ctx.strm_popReturn (c : Ctx) (rest : List Word) (st : Strm) : (c.popReturn rest).strm st = c.strm st := by
  cases st <;> rfl

/-- The state in which `call` transfers. -/
def State.called (s : State) : State :=
  (s.writeG 31 (BitVec.ofNat 64 s.cur.next)).upHere fun c => { c with shadow := BitVec.ofNat 64 s.cur.next :: c.shadow }

theorem State.ctx_called (s : State) (j : Nat) :
    s.called.ctx j = if j = s.cur.ctx then s.here.pushReturn (BitVec.ofNat 64 s.cur.next) else s.ctx j := by
  simp only [State.called, State.writeG, State.upHere, State.upCtx_cur, State.ctx_upCtx]
  split <;> rfl

theorem exec_call_of_full (s : State) (off : Int) (h : 512 ≤ s.here.shadow.length) :
    exec (.call off) s = .next (s.faultSub cCTLINT 2 0) :=
  congrArg Host.Outcome.next (if_pos h)

theorem exec_call_of_header (s : State) (off : Int) (hroom : s.here.shadow.length < 512)
    (h : s.target s.cur.ctx (s.relTo off) = .header) :
    exec (.call off) s = .next (s.called.transfer (s.relTo off)) :=
  congrArg Host.Outcome.next ((if_neg (Nat.not_le.2 hroom)).trans (s.branch_of_header _ _ h))

theorem State.called_goesTo (s : State) (a : Nat) (hs : s.settled) :
    s.goesTo (s.called.transfer a) a (Ctx.pushReturn (BitVec.ofNat 64 s.cur.next)) :=
  s.transfer_goesTo s.called a _ hs (by rw [Ctx.strm_pushReturn, State.me_eq]) (by rw [Ctx.strm_pushReturn, State.me_eq]) rfl rfl s.ctx_called

theorem State.popReturn_goesTo (s : State) (a : Nat) (rest : List Word) (hs : s.settled) :
    s.goesTo ((s.upHere (Ctx.popReturn rest)).transfer a) a (Ctx.popReturn rest) :=
  s.transfer_goesTo _ a _ hs (by rw [Ctx.strm_popReturn, State.me_eq]) (by rw [Ctx.strm_popReturn, State.me_eq]) rfl rfl
    fun j => s.ctx_upCtx ..

theorem exec_ret_of_nil (s : State) (hready : s.here.gReady [31] = true) (hs : s.here.shadow = []) :
    exec .ret s = .next (s.faultSub cCTLINT 3 0) := by
  show execRet s = _
  simp [execRet, hready, hs]

theorem exec_ret_of_ne (s : State) (top : Word) (rest : List Word) (hready : s.here.gReady [31] = true)
    (hs : s.here.shadow = top :: rest) (hne : s.readG 31 ≠ top) :
    exec .ret s = .next (s.faultSub cCTLINT 1 0) := by
  show execRet s = _
  simp [execRet, hready, hs, hne]

theorem exec_ret_of_eq (s : State) (top : Word) (rest : List Word) (hready : s.here.gReady [31] = true)
    (hs : s.here.shadow = top :: rest) (heq : s.readG 31 = top) :
    exec .ret s = .next ((s.upHere (Ctx.popReturn rest)).transfer top.toNat) := by
  show execRet s = _
  simp only [execRet, hready, hs, heq, Bool.not_true, Bool.false_eq_true, if_false, ne_eq, not_true_eq_false]
  rfl

theorem decodeTableWord_ret : decodeTableWord 16 0x5002 = some .ret := by decide

/-- Settles O5: each case of `call` and `ret` by its equation, and the fault or transfer that it comes to. -/
theorem callAndReturn : Obligations.CallAndReturn := by
  intro s off hs
  refine ⟨fun hroom htgt => ?call, fun hfull hm => ?callFull, fun top rest hsh hready heq => ?ret,
    fun top rest hsh hready hne hm => ?retOther, fun hsh hready hm => ?retEmpty, decodeTableWord_ret⟩
  case call => exact ⟨_, exec_call_of_header s off hroom htgt, s.called_goesTo _ hs⟩
  case callFull => exact ⟨_, exec_call_of_full s off hfull, s.faultSub_cCTLINT_faults 2 hm⟩
  case ret => exact ⟨_, exec_ret_of_eq s top rest hready hsh heq, s.popReturn_goesTo _ rest hs⟩
  case retOther => exact ⟨_, exec_ret_of_ne s top rest hready hsh hne, s.faultSub_cCTLINT_faults 1 hm⟩
  case retEmpty => exact ⟨_, exec_ret_of_nil s hready hsh, s.faultSub_cCTLINT_faults 3 hm⟩

end Sys2Proof.Machine
end
